-- ==== Sys2Proof/Word.lean ====
section
/-!
DEFINITION. Sys2Proof/Word.lean: the words the hardware computes with (R9, R11, R12 of 00_scope.md) and the sparse
table type in which every large table of the module is kept.
-/
namespace Sys2Proof

/-- One byte of memory, of a frame or of a record. -/
abbrev Byte := BitVec 8

/-- A 32-bit word: a control register, an instruction word, an address (R12, R241). -/
abbrev W32 := BitVec 32

/-- A 64-bit word: a general register or a flume word (Table ISA-1). -/
abbrev Word := BitVec 64

/-- A 128-bit vector register (Table ISA-1). -/
abbrev Vec := BitVec 128

/-- A sparse table: pairs of a key and an entry, keys strictly rising. What a key that is not listed holds is said where
the table is read. -/
abbrev Tbl (α : Type) := List (Nat × α)

end Sys2Proof
end

