-- ==== Sys2Proof/Machine/Data.lean ====
section
/-!
DEFINITION. Sys2Proof/Machine/Data.lean: the entries of the engines' tables that also travel between the modules of a pair or a cascade (15_twin_and_cascade.md, Table TWN-3):
claims, channels, fleet indexes, orders and partners; and the records and frames that carry them.
-/
namespace Sys2Proof.Machine

/-- States of a claim entry other than FREE (Table CLM-8). -/
inductive ClaimSt where
  | granted | active | overdue | blocked | cutHeld
  deriving DecidableEq, Repr

/-- A held claim (Table CLM-7). A claim time is a number below 2^32; leave means nothing while open_. echo is the cycle PRO has named for
a CUT_HELD claim (R147), none until it has; cause is the owner of the OVERDUE claim that blocks it, if one does. -/
structure Claim where
  ford : Bool
  id : Nat
  dir : Nat
  st : ClaimSt
  open_ : Bool
  stranded : Bool
  from_ : Int
  to_ : Int
  enter : Nat
  leave : Nat
  owner : Nat
  tag : Nat
  next : Option Nat
  echo : Option Nat
  cause : Option Nat
  deriving DecidableEq, Repr

/-- MODE of a channel (Table PRO-12). -/
inductive ChMode where
  | idle | run | hold | stop
  deriving DecidableEq, Repr

/-- A queued segment (Table PRO-4), with its load's TAG and its place in it. -/
structure Seg where
  reach : Nat
  dir : Nat
  from_ : Int
  to_ : Int
  vseg : Nat
  enter : Nat
  leave : Nat
  claim : Nat
  tag : Nat
  index : Nat
  deriving DecidableEq, Repr

/-- The plan at a cycle start, for the solutions of that cycle (R86): cycle, reach, DIR, station and speed. -/
structure Snap where
  cycle : Nat
  reach : Nat
  dir : Nat
  st : Int
  v : Int
  deriving DecidableEq, Repr

/-- One channel (05_motion_profiles.md). Speeds, accelerations and distances are in the units of Motion.lean. st is the planned station on reach and odo
the distance planned since the channel opened; lim and kind the limit last taken, as a distance ahead. aUse to jsUse are the limits in use (R144, R145); watch the leave times of
segments left behind (odometer at which the machine is clear, and T_LEAVE); delta and dv what the newest solution measured beyond the plan; hpl its HPL; raw its E and N
while the channel has no reach; recs the records issued (cycle, odometer of STATION + LIMIT); snaps the plan at recent cycle starts; cut that a limit was shortened by a cut and its
cycle is still to be named (R147). -/
structure Chan where
  mode : ChMode := .idle
  reach : Option Nat := none
  dir : Nat := 0
  claim : Nat := 0
  st : Int := 0
  odo : Int := 0
  v : Int := 0
  a : Int := 0
  phase : Nat := 0
  queue : List Seg := []
  lim : Int := 0
  kind : Nat := 0
  aUse : Nat := 0
  dUse : Nat := 0
  jUse : Nat := 0
  dsUse : Nat := 0
  jsUse : Nat := 0
  deferred : Bool := false
  late : Bool := false
  watch : List (Int × Nat) := []
  delta : Int := 0
  dv : Int := 0
  hpl : Nat := 0xFFFF
  raw : Option (Int × Int) := none
  recs : List (Nat × Int) := []
  snaps : List Snap := []
  cut : Bool := false
  deriving DecidableEq, Repr

/-- States of a fleet index other than FREE (Table FLT-7). -/
inductive IdxSt where
  | granted | member | silent | leaving
  deriving DecidableEq, Repr

/-- One fleet index: its state, EUI-64, duplicate filter (TOP and window, R188), the FCNT of the join granted and FIRST, the last cycle with a valid frame, the newest broadcast key identifier
shown, a return due under R629, the stored ACKs newest first (FCNT and item bytes, R190), and what the join declared (WDOG ms, STOP_DEC, STOP_JERK, firmware version). -/
structure Idx where
  st : IdxSt
  eui : List Byte := []
  top : Nat := 0
  win : Nat := 1
  join : Nat := 0
  first : Nat := 0
  last : Nat := 0
  bkey : Nat := 0
  rejoin : Bool := false
  acks : List (Nat × List Byte) := []
  wdog : Nat := 0
  dec : Nat := 0
  jerk : Nat := 0
  fw : Nat := 0
  deriving DecidableEq, Repr

/-- An order that has not completed (R193 to R195): target (bit 15: partner), kind, REPLY, number, tag, the cycle at whose start it fails, DATA, and whether its echo has arrived. -/
structure Order where
  target : Nat
  kind : Nat
  flags : Nat
  num : Nat
  tag : Nat
  due : Nat
  data : List Byte
  echoed : Bool
  deriving DecidableEq, Repr

/-- States of a sleepy partner other than FREE (Table AIR-11). -/
inductive PtrSt where
  | granted | member | rescue | lost
  deriving DecidableEq, Repr

/-- One sleepy partner beside its entry in the partner table: state, EUI-64, duplicate filter, FCNT of the join granted; the next rendezvous, the fallback, the rendezvous cycle last begun (and whether it was
one, not a fallback) with whether the partner was heard in it, misses; the called slot (cycle and lane), calls of this rescue and the cycle of the last; the broadcast key shown, the FCNT to acknowledge; PERIOD and LANE in force
and those the last RDV item carried (R203); the learnt rate and its uncertainty (ppm, binary64). -/
structure Ptr where
  st : PtrSt
  eui : List Byte := []
  top : Nat := 0
  win : Nat := 1
  join : Nat := 0
  next : Nat := 0
  fallback : Option Nat := none
  began : Option (Nat × Bool) := none
  heard : Bool := false
  misses : Nat := 0
  callAt : Option (Nat × Nat) := none
  calls : Nat := 0
  lastCall : Nat := 0
  bkey : Nat := 0
  period : Nat := 1200
  lane : Nat := 0
  sentPeriod : Nat := 1200
  rate : Nat := 0
  sd : Nat := 0
  deriving DecidableEq, Repr

/-- A mirror record (Table TWN-3). The spec gives no layout: each constructor is one row of the table's "State" column, or a part of one. -/
inductive MirRec where
  /-- Entry k of the claim table, an owner's path, the newest ECHO_CYCLE of an owner. -/
  | claim (k : Nat) (c : Option Claim)
  | path (owner : Nat) (l : Option (List Nat))
  | echo (owner : Nat) (cycle : Option Nat)
  | chan (n : Nat) (c : Option Chan)
  | idx (m : Nat) (i : Option Idx)
  | orders (l : List Order)
  /-- A partner, and the 32 bytes of its entry in the partner table. -/
  | ptr (p : Nat) (x : Option Ptr) (entry : List Byte)
  /-- Channel occupancy charges: channel, start and end in site ns, whether of the stop lane. -/
  | charges (l : List (Nat × Nat × Nat × Bool))
  /-- Stop lane: STATE, FAULT, ACTIVE, LATCHED, SERIAL, FIRST, last epoch (ns) and its cycle. -/
  | lane (state fault active latched serial first epoch cycle : Nat)
  /-- Newest and previous broadcast key, and whether the newest protects frames. -/
  | keys (new prev : Option (Nat × List Byte)) (use : Bool)
  /-- A write to an S-class or H-class field: the register's address and the word. -/
  | write (addr value : Nat)
  /-- The program mirror region. -/
  | region (l : List Byte)
  /-- MRC_STATUS.ITEMS, which a takeover's alarm carries (R484). -/
  | items (n : Nat)
  deriving DecidableEq, Repr

/-- A frame of the cascade link other than a heartbeat, a stop notice and a reconciliation (15_twin_and_cascade.md): at the headwater a JOIN with what R494 and R499 compare, a LEAVE, a request,
progress reports (owner, claim, station, HPL) and echoes (owner, cycle); at a tributary the acceptance (with the headwater's EUI-64 values and its CASCADE key), a refusal, the answer to LEAVE (error 0: accepted), a result, a note, and a replica change. -/
inductive CasFrame where
  | join (member : Nat) (eui : List Byte) (group u site epoch plan mapSerial hopEdition claims : Nat)
  | leave (member : Nat)
  | request (member : Nat) (ws : List Word)
  | progress (member : Nat) (l : List (Nat × Nat × Int × Nat))
  | echoes (member : Nat) (l : List (Nat × Nat))
  | accept (euis : List (List Byte)) (key : List Byte)
  | refused (error : Nat)
  | leaveAnswer (error : Nat)
  | result (ws : List Word)
  | note (ws : List Word)
  | replica (k : Nat) (c : Option Claim)
  deriving DecidableEq, Repr

end Sys2Proof.Machine
end

