-- ==== Sys2Proof/Syntax.lean ====
section
/-!
DEFINITION. Sys2Proof/Syntax.lean: the commands the block takes (spec/opcode_table.json). A command is one occurrence of its row: a
register command, an instruction a core executes, a frame that arrives, an edge on a pin, a tick. Its operands carry everything that
comes from outside (which core, which registers, what a frame holds, what a sensor reads); everything else is read from the state.
Register numbers, indexes and field values are natural numbers as the encodings give them; WellFormed.lean says their ranges.
-/
namespace Sys2Proof

/-! ### What the receiver measures -/

/-- One tracked signal of one antenna at an epoch (Table REF-5): system, satellite, signal code, lock flags, GLONASS frequency number plus 7,
pseudorange (1/16 mm), carrier phase (2^-16 cycle), Doppler (mHz), C/N0 (0.25 dB-Hz), lock time (s), standard deviations, and elevation
and azimuth (0.001 degree). -/
structure Sig where
  sys : Nat
  prn : Nat
  sig : Nat
  lli : Bool
  half : Bool
  glo : Nat
  pr : Nat
  cp : Int
  dop : Int
  cn0 : Nat
  lock : Nat
  sigPr : Nat
  sigCp : Nat
  el : Nat
  az : Nat
  deriving DecidableEq, Repr

/-- What REF measures at an epoch: the signals visible on each antenna, the A1 to A2 baseline it resolves (1/16 mm, site-frame axes), and
its single-point solution (ECEF, 1/16 mm). -/
structure Meas where
  a1 : List Sig
  a2 : List Sig
  baseline : Option (Int × Int × Int)
  spp : Option (Int × Int × Int)
  deriving DecidableEq, Repr

/-- One sample of multipath learning (R55): antenna 0 A1 or 1 A2, signal code, elevation and azimuth (0.001 degree), code minus carrier (mm), deficit of
C/N0 against the elevation model (0.25 dB), carrier residual (0.1 mm), whether a new pass has begun, and the lock time (s). -/
structure MpSample where
  ant : Nat
  sig : Nat
  el : Nat
  az : Nat
  cmc : Int
  deficit : Int
  res : Nat
  newPass : Bool
  lock : Nat
  deriving DecidableEq, Repr

/-- A caster request (02_reference_station.md, "NTRIP caster"): well-formed NTRIP v2 over HTTP/1.1, login good, mountpoint of site data, client
identity. -/
structure NtripReq where
  good : Bool
  login : Bool
  mount : Nat
  client : Nat
  deriving DecidableEq, Repr

/-- What SOL's float64 arithmetic gives for one machine and epoch (R76 to R85), for which the spec gives no bit-exact procedure: whether the solution is finished in time; whether pseudorange
reconstruction fails the residual test; satellites (system, number) below the elevation mask, and those an adopted re-solve excludes; the residual test (0 passes, 1 a re-solve passes, 2
none passes) and the re-solves made; for each sighting whether it lies outside the gate; the integer set's size, ratio (times 10) and failure exponent, whether it equals the last epoch's, and whether the
fixed residual test passes; the control point (1/16 mm), velocity (1/16 mm/s), heading (2^-16 turn); the axis and height deviations and slope terms of R82 (µm); publication after slot end (ns). -/
structure Solve where
  fleet : Nat
  ready : Bool
  codeFail : Bool
  low : List (Nat × Nat)
  excl : List (Nat × Nat)
  fde : Nat
  resolves : Nat
  gated : List Bool
  nfix : Nat
  ratio : Nat
  pfExp : Nat
  same : Bool
  keep : Bool
  e : Int
  n : Int
  u : Int
  ve : Int
  vn : Int
  vu : Int
  heading : Nat
  sigMaj : Nat
  sigU : Nat
  slopeH : Nat
  slopeV : Nat
  pubOfs : Nat
  deriving DecidableEq, Repr

/-- What a start-up finds in flash and at its sources (R593 to R595): whether FW0 and FW1 pass the ROM's check, the gatherings of RECENT that fail their re-read (R537), whether the site-data generation can be
read and a migration or a SITE image's sections were translated (R547 to R549), the site epoch and tables that translation gives, if one was made, and the ms it took to reach Ready. -/
structure Boot where
  fw0 : Bool := true
  fw1 : Bool := true
  bad : List Nat := []
  siteOk : Bool := true
  migrateOk : Bool := true
  newEpoch : Option Nat := none
  newTables : Option (List (Nat × Byte)) := none
  ms : Nat := 0
  deriving DecidableEq, Repr

/-- The commands of the module, one constructor per row of spec/opcode_table.json, in the table's order. -/
inductive Instr where
  /-- REGISTER_WRITE (R15). A write of value at addr by who: 0 to 15 a field core, 16 the steward, 17 the host. -/
  | registerWrite (who addr value : Nat)
  /-- COMMIT_POINT (R15). The commit point of a block, or of one of its parts (a core of CCX, a flume of FLM). -/
  | commitPoint (blk part : Nat)
  /-- CYCLE_START (R27). The cycle of the present site time begins; m is what REF measures at its epoch, none when the record is not complete in time (R52). -/
  | cycleStart (m : Option Meas)
  /-- FRAME_FREEZE (R31). The freeze of the frames of hop h, 1.0 ms before the hop; ack says that the standby has acknowledged within FENCE_WAIT (R480). -/
  | frameFreeze (h : Nat) (ack : Bool)
  /-- HOP_TRANSMIT (R175). Hop h begins; busy lists the carriers whose channel is busy at assessment (R168). -/
  | hopTransmit (h : Nat) (busy : List Nat)
  /-- GUARD_CALIBRATION (R41). -/
  | guardCalibration
  /-- AIR_CAL_DONE (R626). -/
  | airCalDone
  /-- OBSERVATION_FRAME (R189). A frame on a lane in a slot: how far its sync word ended from the nominal instant (ns), and header, payload and MIC as received (192 bytes). -/
  | observationFrame (lane sl : Nat) (off : Int) (b : List Byte)
  /-- REPLY_FRAME (R190). -/
  | replyFrame (lane sl : Nat) (off : Int) (b : List Byte)
  /-- JOIN_FRAME (R629). -/
  | joinFrame (lane sl : Nat) (off : Int) (b : List Byte)
  /-- PARTNER_JOIN_FRAME (R202). -/
  | partnerJoinFrame (lane sl : Nat) (off : Int) (b : List Byte)
  /-- PARTNER_FRAME (R203). -/
  | partnerFrame (lane sl : Nat) (off : Int) (b : List Byte)
  /-- GRANT_LAPSE (R36). For fleet index m. -/
  | grantLapse (m : Nat)
  /-- INDEX_SILENT (R38). For fleet index m. -/
  | indexSilent (m : Nat)
  /-- RELEASE_INDEX (R210). AIR_CMD 1. -/
  | releaseIndex (m : Nat)
  /-- CANCEL_ORDERS (R640). AIR_CMD 2. -/
  | cancelOrders (m : Nat)
  /-- ORDER_RECORD (R193). -/
  | orderRecord
  /-- ORDER_DEADLINE (R195). -/
  | orderDeadline
  /-- BROADCAST_KEY_ROTATE (R514). -/
  | broadcastKeyRotate
  /-- BROADCAST_KEY_SWITCH (R192). -/
  | broadcastKeySwitch
  /-- WAKE_PATTERN_RX (R200). The address and the CRC-8 of a pattern received. -/
  | wakePatternRx (addr crc : Nat)
  /-- RENDEZVOUS (R202). The cycle of partner p's rendezvous, or of its fallback, begins. -/
  | rendezvous (p : Nat)
  /-- RESCUE_RECALL (R206). 20 cycles have passed since the last call of partner p. -/
  | rescueRecall (p : Nat)
  /-- RELEASE_PARTNER (R640). WKR_CMD 1. -/
  | releasePartner (p : Nat)
  /-- WKR_CALL (R206). WKR_CMD 2. -/
  | wkrCall (p : Nat)
  /-- ANTENNA_BIAS_SAMPLE (R44). The bias current of antenna n (0 A1, 1 A2) in units of 0.1 mA. -/
  | antennaBiasSample (n current : Nat)
  /-- SURVEY_COMPLETE (R49). The mean of the survey (ECEF, 1/16 mm) and its standard deviation (mm). -/
  | surveyComplete (x y z : Int) (sigma : Nat)
  /-- EPOCH_LATE (R53). 3.0 ms after a cycle start its reference record is not complete. -/
  | epochLate
  /-- RAW_EPOCH (R54). An epoch of the raw stream, with what REF measures. -/
  | rawEpoch (m : Meas)
  /-- RTCM_EPOCH (R54). An epoch of RTCM output: the messages for the caster, those for the downlink, and what each client (by identity) has taken since the last. -/
  | rtcmEpoch (msgs air : List Byte) (taken : List (Nat × Nat))
  /-- NTRIP_REQUEST (R62). -/
  | ntripRequest (r : NtripReq)
  /-- MULTIPATH_LEARNING (R55). The 1 Hz samples of the signals in lock. -/
  | multipathLearning (l : List MpSample)
  /-- MAP_PERIODIC_SAVE (R56). ok says whether the save succeeds. -/
  | mapPeriodicSave (ok : Bool)
  /-- SURVEY_RESTART (R50). REF_CMD 1. -/
  | surveyRestart
  /-- POS_LOAD (R48). REF_CMD 2. -/
  | posLoad
  /-- MP_CLEAR (R57). REF_CMD 3. -/
  | mpClear
  /-- MP_SAVE (R56). REF_CMD 4. -/
  | mpSave
  /-- TIME_ACCEPT (R644). REF_CMD 5. -/
  | timeAccept
  /-- TIME_SOLUTION (R643). GNSS-derived TAI (ns), whether two constellations agree on it, and the fractional frequency error (10^-12). -/
  | timeSolution (tai : Nat) (agree : Bool) (freq : Int)
  /-- TIME_SOLUTION_LOSS (R624). No time solution for 2 s. -/
  | timeSolutionLoss
  /-- HOLDOVER_LIMIT (R643). REF_HOLD_TIME reaches HOLD_LIMIT hours. -/
  | holdoverLimit
  /-- TIME_CONFIRM (R58). Two constellations have agreed on a suspect jump for CONFIRM seconds. -/
  | timeConfirm
  /-- SLOT_END (R89). Slot sl of the present cycle ends; l holds what the arithmetic of the filter gives for its machines. -/
  | slotEnd (sl : Nat) (l : List Solve)
  /-- SOL_DEADLINE (R90). 5.5 ms after the slot end a machine's solution is unfinished; its best finished stage is 0 fixed, 1 float, 2 prediction. -/
  | solDeadline (z : Solve) (stage : Nat)
  /-- SOL_REF_MISSING (R635). 3.0 ms after a cycle start. -/
  | solRefMissing
  /-- RESET_AMB (R95). SOL_MACH_CMD 1 for a fleet index. -/
  | resetAmb (fleet : Nat)
  /-- RESET_ALL (R95). SOL_MACH_CMD 2 for a fleet index. -/
  | resetAll (fleet : Nat)
  /-- SOL_LAT_CLEAR (R89). -/
  | solLatClear
  /-- MAP_LOAD (R100). CLM_CMD 1. -/
  | mapLoad
  /-- MAP_UNLOAD (R100). CLM_CMD 2. -/
  | mapUnload
  /-- CLM_STORE_WRITE (R98). A store of n bytes of value at offset ofs of the CLM store, in the reach or ford table. -/
  | clmStoreWrite (ofs n value : Nat)
  /-- CLM_TICK (R108). -/
  | clmTick
  /-- CLM_EXTEND (R110). CLM takes the EXTEND at the head of its request flume; its check takes ns nanoseconds (R109). -/
  | clmExtend (ns : Nat)
  /-- CLM_PLACE (R112). As CLM_EXTEND, for a PLACE. -/
  | clmPlace (ns : Nat)
  /-- CLM_SHORTEN (R113). As CLM_EXTEND, for a SHORTEN. -/
  | clmShorten (ns : Nat)
  /-- CLM_RELEASE (R115). As CLM_EXTEND, for a RELEASE. -/
  | clmRelease (ns : Nat)
  /-- SET_REACH (R116). As CLM_EXTEND, for a SET_REACH. -/
  | setReach (ns : Nat)
  /-- CLM_DISABLE (R117). CLM_CTRL.EN is cleared. -/
  | clmDisable
  /-- CLM_LAT_CLEAR (R109). CLM_LAT.CLEAR is written with 1. -/
  | clmLatClear
  /-- PRO_TICK (R137). -/
  | proTick
  /-- AXIS_TICK (R446). A 1 µs tick; raw holds the raw inputs, bit 2n limit A and bit 2n + 1 limit B of axis n, bit 16 + n HOMEn, 1 closed. -/
  | axisTick (raw : Nat)
  /-- PRO_APPEND (R131). PRO takes a load record with OP 1. -/
  | proAppend
  /-- PRO_CLEAR (R136). PRO takes a load record with OP 2. -/
  | proClear
  /-- PRO_HALT (R150). PRO takes a load record with OP 3. -/
  | proHalt
  /-- PRO_RESUME (R149). PRO takes a load record with OP 4. -/
  | proResume
  /-- FENCE_ENABLE (R138). PRO_FENCE_CTRL_f.EN is written with 1. -/
  | fenceEnable (f : Nat)
  /-- STOP_INPUT_EDGE (R213). Channel 0 STOPA, 1 STOPB. -/
  | stopInputEdge (ch : Nat) (closed : Bool)
  /-- STOP_DISCREPANCY (R215). -/
  | stopDiscrepancy
  /-- STP_STOP (R638). -/
  | stpStop
  /-- STP_CLEAR_PROGRAM (R638). -/
  | stpClearProgram
  /-- STP_RELEASE (R217). -/
  | stpRelease
  /-- STP_OVERRIDE (R218). -/
  | stpOverride
  /-- STOP_FRAME_TX (R222, R227). Carrier k; whether its channel has been clear for 160 us; ns from the filtered edge to the first stop symbol. -/
  | stopFrameTx (k : Nat) (clear : Bool) (lat : Nat)
  /-- STOP_BURST_REPEAT (R225). -/
  | stopBurstRepeat
  /-- STAT_FAULT (R236). Output n reads back otherwise than commanded for 1 ms. -/
  | statFault (n : Nat)
  /-- STP_LAT_CLEAR (R220). Writing 1 to STP_LAT.CLEAR. -/
  | stpLatClear
  /-- ILLEGAL (R242). Core c meets instruction word w: an all-zero, reserved or malformed word, or one of a class the steward lacks (R238). -/
  | illegal (c : Nat) (w : Nat)
  /-- ADD (R243). wf is the W form bit of Table ISA-4. -/
  | add (c d s1 s2 : Nat) (wf : Bool)
  /-- SUB (R243). -/
  | sub (c d s1 s2 : Nat) (wf : Bool)
  /-- AND (R243). -/
  | and (c d s1 s2 : Nat) (wf : Bool)
  /-- OR (R243). -/
  | or (c d s1 s2 : Nat) (wf : Bool)
  /-- XOR (R243). -/
  | xor (c d s1 s2 : Nat) (wf : Bool)
  /-- SLL (R243). -/
  | sll (c d s1 s2 : Nat) (wf : Bool)
  /-- SRL (R243). -/
  | srl (c d s1 s2 : Nat) (wf : Bool)
  /-- SRA (R243). -/
  | sra (c d s1 s2 : Nat) (wf : Bool)
  /-- SLT (R243). -/
  | slt (c d s1 s2 : Nat) (wf : Bool)
  /-- SLTU (R243). -/
  | sltu (c d s1 s2 : Nat) (wf : Bool)
  /-- MIN (R243). -/
  | min (c d s1 s2 : Nat) (wf : Bool)
  /-- MAX (R243). -/
  | max (c d s1 s2 : Nat) (wf : Bool)
  /-- MINU (R243). -/
  | minu (c d s1 s2 : Nat) (wf : Bool)
  /-- MAXU (R243). -/
  | maxu (c d s1 s2 : Nat) (wf : Bool)
  /-- CLZ (R243). -/
  | clz (c d s1 : Nat)
  /-- CTZ (R243). -/
  | ctz (c d s1 : Nat)
  /-- POPC (R243). -/
  | popc (c d s1 : Nat)
  /-- BSWAP (R243). -/
  | bswap (c d s1 : Nat) (wf : Bool)
  /-- MUL (R243). -/
  | mul (c d s1 s2 : Nat) (wf : Bool)
  /-- MULH (R243). -/
  | mulh (c d s1 s2 : Nat)
  /-- MULHU (R243). -/
  | mulhu (c d s1 s2 : Nat)
  /-- DIV (R244). -/
  | div (c d s1 s2 : Nat) (wf : Bool)
  /-- DIVU (R244). -/
  | divu (c d s1 s2 : Nat) (wf : Bool)
  /-- REM (R244). -/
  | rem (c d s1 s2 : Nat) (wf : Bool)
  /-- REMU (R244). -/
  | remu (c d s1 s2 : Nat) (wf : Bool)
  /-- ADDI (R243). imm is the 16-bit field. -/
  | addi (c d s1 imm : Nat)
  /-- ANDI (R243). -/
  | andi (c d s1 imm : Nat)
  /-- ORI (R243). -/
  | ori (c d s1 imm : Nat)
  /-- XORI (R243). -/
  | xori (c d s1 imm : Nat)
  /-- SHIFTI (R243). kind is FN bits 10:8, amt FN bits 5:0. -/
  | shifti (c d s1 kind amt : Nat)
  /-- SLTI (R243). -/
  | slti (c d s1 imm : Nat)
  /-- MOVW (R243). -/
  | movw (c d q : Nat) (keep : Bool) (imm : Nat)
  /-- PCADD (R243). -/
  | pcadd (c d imm : Nat)
  /-- LB (R248). ofs is the 16-bit OFFSET field. -/
  | lb (c d s1 ofs : Nat)
  /-- LBU (R248). -/
  | lbu (c d s1 ofs : Nat)
  /-- LH (R248). -/
  | lh (c d s1 ofs : Nat)
  /-- LHU (R248). -/
  | lhu (c d s1 ofs : Nat)
  /-- LW (R248). -/
  | lw (c d s1 ofs : Nat)
  /-- LWU (R248). -/
  | lwu (c d s1 ofs : Nat)
  /-- LD (R248). -/
  | ld (c d s1 ofs : Nat)
  /-- SB (R248). -/
  | sb (c d s1 ofs : Nat)
  /-- SH (R248). -/
  | sh (c d s1 ofs : Nat)
  /-- SW (R248). -/
  | sw (c d s1 ofs : Nat)
  /-- SD (R248). -/
  | sd (c d s1 ofs : Nat)
  /-- VLD (R248). The address is S1 + 16 times OFFSET (Table ISA-3). -/
  | vld (c d s1 ofs : Nat)
  /-- VST (R248). -/
  | vst (c d s1 ofs : Nat)
  /-- FLD (R246). -/
  | fld (c d s1 ofs : Nat)
  /-- FST (R246). -/
  | fst (c d s1 ofs : Nat)
  /-- ATOMIC (R253). op is Table ISA-7's OP 0 to 8, size 2 or 3, order 0 to 3. -/
  | atomic (c op size order d s1 s2 : Nat)
  /-- ATOMIC_CAS (R254). -/
  | atomicCas (c size order d s1 s2 : Nat)
  /-- FENCE_RW (R257). -/
  | fenceRw (c : Nat)
  /-- FENCE_ALL (R258). -/
  | fenceAll (c : Nat)
  /-- FENCE_I (R260). -/
  | fenceI (c : Nat)
  /-- BEQ (R241). disp is the 16-bit DISP field, in words. -/
  | beq (c s1 s2 disp : Nat)
  /-- BNE (R241). -/
  | bne (c s1 s2 disp : Nat)
  /-- BLT (R241). -/
  | blt (c s1 s2 disp : Nat)
  /-- BGE (R241). -/
  | bge (c s1 s2 disp : Nat)
  /-- BLTU (R241). -/
  | bltu (c s1 s2 disp : Nat)
  /-- BGEU (R241). -/
  | bgeu (c s1 s2 disp : Nat)
  /-- JAL (R241). disp is the 26-bit DISP field, in words. -/
  | jal (c disp : Nat)
  /-- JALR (R241). -/
  | jalr (c d s1 imm : Nat)
  /-- FADD (R245). -/
  | fadd (c d s1 s2 : Nat)
  /-- FSUB (R245). -/
  | fsub (c d s1 s2 : Nat)
  /-- FMUL (R245). -/
  | fmul (c d s1 s2 : Nat)
  /-- FDIV (R245). -/
  | fdiv (c d s1 s2 : Nat)
  /-- FSQRT (R245). -/
  | fsqrt (c d s1 : Nat)
  /-- FMIN (R245). -/
  | fmin (c d s1 s2 : Nat)
  /-- FMAX (R245). -/
  | fmax (c d s1 s2 : Nat)
  /-- FMADD (R245). -/
  | fmadd (c d s1 s2 : Nat)
  /-- FMSUB (R245). -/
  | fmsub (c d s1 s2 : Nat)
  /-- FNMADD (R245). -/
  | fnmadd (c d s1 s2 : Nat)
  /-- FABS (R245). -/
  | fabs (c d s1 : Nat)
  /-- FNEG (R245). -/
  | fneg (c d s1 : Nat)
  /-- FEQ (R245). -/
  | feq (c d s1 s2 : Nat)
  /-- FLT (R245). -/
  | flt (c d s1 s2 : Nat)
  /-- FLE (R245). -/
  | fle (c d s1 s2 : Nat)
  /-- FCVT_D_L (R245). -/
  | fcvtDL (c d s1 : Nat)
  /-- FCVT_L_D (R247). -/
  | fcvtLD (c d s1 : Nat)
  /-- FMV_X (R246). -/
  | fmvX (c d s1 : Nat)
  /-- FMV_D (R246). -/
  | fmvD (c d s1 : Nat)
  /-- FCLASS (R245). -/
  | fclass (c d s1 : Nat)
  /-- VADD (R243). wd is the width code of Table ISA-6. -/
  | vadd (c wd d s1 s2 : Nat)
  /-- VSUB (R243). -/
  | vsub (c wd d s1 s2 : Nat)
  /-- VMUL (R243). -/
  | vmul (c wd d s1 s2 : Nat)
  /-- VFMA (R245). -/
  | vfma (c wd d s1 s2 : Nat)
  /-- VMIN (R243). -/
  | vmin (c wd d s1 s2 : Nat)
  /-- VMAX (R243). -/
  | vmax (c wd d s1 s2 : Nat)
  /-- VAND (R243). -/
  | vand (c wd d s1 s2 : Nat)
  /-- VOR (R243). -/
  | vor (c wd d s1 s2 : Nat)
  /-- VXOR (R243). -/
  | vxor (c wd d s1 s2 : Nat)
  /-- VSHL (R243). -/
  | vshl (c wd d s1 s2 : Nat)
  /-- VSHR (R243). -/
  | vshr (c wd d s1 s2 : Nat)
  /-- VSAR (R243). -/
  | vsar (c wd d s1 s2 : Nat)
  /-- VCMPEQ (R243). -/
  | vcmpeq (c wd d s1 s2 : Nat)
  /-- VCMPLT (R243). -/
  | vcmplt (c wd d s1 s2 : Nat)
  /-- VSPLAT (R243). -/
  | vsplat (c wd d s1 : Nat)
  /-- VEXT (R243). lane is the S2 field. -/
  | vext (c wd d s1 lane : Nat)
  /-- VINS (R243). -/
  | vins (c wd d s1 lane : Nat)
  /-- VSUM (R243). -/
  | vsum (c wd d s1 : Nat)
  /-- VDIV (R245). -/
  | vdiv (c wd d s1 s2 : Nat)
  /-- VSQRT (R245). -/
  | vsqrt (c wd d s1 : Nat)
  /-- FPUSH (R266). -/
  | fpush (c d s1 flume : Nat)
  /-- FPUSHE (R266). -/
  | fpushe (c d s1 flume : Nat)
  /-- FPUSHW (R267). -/
  | fpushw (c d s1 flume : Nat)
  /-- FPUSHWE (R267). -/
  | fpushwe (c d s1 flume : Nat)
  /-- FPOP (R265). s1 names the register that receives the tags. -/
  | fpop (c d s1 flume : Nat)
  /-- FPOPW (R267). -/
  | fpopw (c d s1 flume : Nat)
  /-- FPEEK (R265). -/
  | fpeek (c d s1 flume : Nat)
  /-- FLEN (R265). -/
  | flen (c d flume : Nat)
  /-- FSEND (R268). -/
  | fsend (c d s1 s2 flume : Nat)
  /-- FRECV (R268). -/
  | frecv (c d s1 s2 flume : Nat)
  /-- FLUME_WAIT_DONE (R267). A core's waiting flume instruction, or its TWAIT, finds its condition met. -/
  | flumeWaitDone (c : Nat)
  /-- WAIT_TIMEOUT (R267). A waiting instruction of a core reaches 1 ms. -/
  | waitTimeout (c : Nat)
  /-- ERD (R270). tbl is FN bits 10:8. -/
  | erd (c tbl d s1 : Nat)
  /-- MDONE (R272). -/
  | mdone (c s1 : Nat)
  /-- MFAIL (R273). -/
  | mfail (c s1 : Nat)
  /-- MPOST (R274). -/
  | mpost (c d s1 s2 : Nat)
  /-- MCANCEL (R275). -/
  | mcancel (c d s1 : Nat)
  /-- MYIELD (R276). -/
  | myield (c : Nat)
  /-- MARG (R263). -/
  | marg (c d : Nat)
  /-- MID (R263). -/
  | mid (c d : Nat)
  /-- TSITE (R277). -/
  | tsite (c d : Nat)
  /-- TCYC (R278). s1 names the register that receives the nanoseconds. -/
  | tcyc (c d s1 : Nat)
  /-- TCT (R278). -/
  | tct (c d : Nat)
  /-- TPORT (R278). port is the S2 field. -/
  | tport (c d port : Nat)
  /-- TWAIT (R277). -/
  | twait (c d s1 : Nat)
  /-- SYSC (R279). -/
  | sysc (c s1 : Nat)
  /-- BRK (R284). -/
  | brk (c : Nat)
  /-- ERET (R280). -/
  | eret (c : Nat)
  /-- CRR (R261). num is the control register number, the 16-bit IMM. -/
  | crr (c d num : Nat)
  /-- CRW (R261). -/
  | crw (c d s1 num : Nat)
  /-- BUDGET_EXPIRY (R281). The budget of the operation on core c has run out. -/
  | budgetExpiry (c : Nat)
  /-- CORE_RESET (R283). CCX_CORE_CTRL_n.RESET is written with 1. -/
  | coreReset (n : Nat)
  /-- ITEM_DISPATCH (R295). One dispatch decision of Millrace. -/
  | itemDispatch
  /-- AFFINITY_RELEASE (R296). The affinity window of the item numbered n closes. -/
  | affinityRelease (n : Nat)
  /-- READY_WAIT_LONG (R295). The item numbered n has been READY longer than WAIT_LIM. -/
  | readyWaitLong (n : Nat)
  /-- FLUME_TRIGGER (R303). A whole record stands at the head of trigger flume f. -/
  | flumeTrigger (f : Nat)
  /-- TRIGGER_SPILL_MARK (R307). A spill mark stands at the head of trigger flume f. -/
  | triggerSpillMark (f : Nat)
  /-- MILLRACE_TIMER (R313). Timer t reaches its AT. -/
  | millraceTimer (t : Nat)
  /-- CANCEL_FLOW (R314). MRC_CMD 1 with ARG a flow. -/
  | cancelFlow (flow : Nat)
  /-- CANCEL_OP (R314). MRC_CMD 2 with ARG an operation. -/
  | cancelOp (op : Nat)
  /-- GRAPH_ENABLE (R302). The enable bit of graph g is set. -/
  | graphEnable (g : Nat)
  /-- GRAPH_DISABLE (R315). The enable bit of graph g is cleared. -/
  | graphDisable (g : Nat)
  /-- MILLRACE_DISABLE (R315). MRC_CTRL.EN is cleared. -/
  | millraceDisable
  /-- DESCRIPTOR_WRITE (R301). Word w of operation k's descriptor is written. -/
  | descriptorWrite (k w value : Nat)
  /-- MRC_LAT_CLEAR (R297). MRC_LAT.CLEAR is written with 1. -/
  | mrcLatClear
  /-- SCRUB_VISIT (R327). The scrubber of a store (0 main, 1 CLM, 2 SOL, 3 steward, 4 tags) visits its next line, on which upsets have struck since the last visit, each a word of the line and 0 one bit or 1 flagged, syndrome meaning a line whose outer syndromes are not zero with no word flagged, late that the visit was not done by the next due time (R328). -/
  | scrubVisit (store : Nat) (upsets : List (Nat × Nat)) (syndrome late : Bool)
  /-- SCRUB_RESTART (R327). MEM_CMD 1. -/
  | scrubRestart
  /-- INJECT (R332). MEM_CMD 2, with MEM_INJECT naming word and mode. -/
  | inject
  /-- MEM_CLEAR_ERR (R331). MEM_CMD 3. -/
  | memClearErr
  /-- FLUSH (R348). FLM_CMD 1 on flume f. -/
  | flush (f : Nat)
  /-- FLUME_ENABLE (R333). FLM_CFG_n.EN of flume f is written with 1. -/
  | flumeEnable (f : Nat)
  /-- FLUME_DISABLE (R348). FLM_CFG_n.EN of flume f is cleared. -/
  | flumeDisable (f : Nat)
  /-- FLOW_PIN_IN (R347). FLOW pin p has been qualified at a level over 10 us. -/
  | flowPinIn (p : Nat) (level : Bool)
  /-- ETH_FRAME_RX (R357). A frame ends on port p: its bytes with FCS; err 0 none, 1 alignment, 2 symbol, 3 reassembly, 4 SMD; fragments it came in (0: whole); FRC ticks since its stamp point. -/
  | ethFrameRx (p : Nat) (b : List Byte) (err frags age : Nat)
  /-- TXQ_KICK (R366). -/
  | txqKick (p q : Nat)
  /-- ETH_FRAME_TX (R359). -/
  | ethFrameTx (p : Nat)
  /-- ETH_TX_WRITEBACK (R366). The frame on the wire of port p ends: 0 sent, 1 link lost, 2 excessive collisions, 3 late collision; collisions met and fragments sent. -/
  | ethTxWriteback (p outcome coll frags : Nat)
  /-- RING_RETURN (R375). Ring r of port p, n descriptors. -/
  | ringReturn (p r n : Nat)
  /-- RESTART_AN (R356). ETH_CMD 1 of port p. -/
  | restartAn (p : Nat)
  /-- ETH_VERIFY (R361). ETH_CMD 2. -/
  | ethVerify (p : Nat)
  /-- VERIFY_COMPLETE (R361). -/
  | verifyComplete (p : Nat) (ok : Bool)
  /-- FLUSH_TXQ (R368). ETH_CMD 3. -/
  | flushTxq (p q : Nat)
  /-- GCL_SWITCH (R364). ETH_CMD 4. -/
  | gclSwitch (p : Nat)
  /-- GCL_CHANGE (R364). -/
  | gclChange (p : Nat)
  /-- LINK_CHANGE (R356). half: the partner offers half duplex only. -/
  | linkChange (p : Nat) (up half : Bool) (speed : Nat)
  /-- PLCA_BEACON_LOST (R371). -/
  | plcaBeaconLost
  /-- TSQ_POP (R388). A read of ETH_TSQ_0. -/
  | tsqPop (p : Nat)
  /-- PTP_MESSAGE (R382). A PTP message ends on port p; FRC ticks since its stamp point. -/
  | ptpMessage (p : Nat) (b : List Byte) (age : Nat)
  /-- PTP_MESSAGE_TX (R391). Of port p: 0 Sync, 1 Announce, 2 Delay_Req, 3 Pdelay_Req. -/
  | ptpMessageTx (p kind : Nat)
  /-- MASTER_LOST (R384). -/
  | masterLost
  /-- STEP_PORT (R381). PTC_CMD 1. -/
  | stepPort
  /-- RESELECT (R384). PTC_CMD 2. -/
  | reselect
  /-- PPS_OUT (R613). A whole second of site time. -/
  | ppsOut
  /-- PPSIN_EDGE (R614). A rising edge on PPSIN that has stayed high for 100 ns; ns since the edge. -/
  | ppsinEdge (age : Nat)
  /-- HELLO (R401). A datagram d from a host's address reaches port 47,500 of E0. -/
  | hello (peer : Nat) (d : List Byte)
  /-- SESSION_TIMEOUT (R405). 60 s have passed since a session's last valid REQUEST. -/
  | sessionTimeout (id : Nat)
  /-- MDNS_QUERY (R398). An mDNS query for _galostia-svc._udp reaches E0. -/
  | mdnsQuery
  /-- BYE (R405). As HELLO, for a REQUEST of this code; so in every request below. -/
  | bye (peer : Nat) (d : List Byte)
  /-- PING (R407). This row also takes a REQUEST whose code is in no row (error 0x0040). -/
  | ping (peer : Nat) (d : List Byte)
  /-- REG_READ (R412). -/
  | regRead (peer : Nat) (d : List Byte)
  /-- REG_WRITE (R413). -/
  | regWrite (peer : Nat) (d : List Byte)
  /-- MEM_READ (R414). -/
  | memRead (peer : Nat) (d : List Byte)
  /-- IMAGE_BEGIN (R532). -/
  | imageBegin (peer : Nat) (d : List Byte)
  /-- GATHER_PUT (R415). -/
  | gatherPut (peer : Nat) (d : List Byte)
  /-- IMAGE_STATUS (R536). -/
  | imageStatus (peer : Nat) (d : List Byte)
  /-- IMAGE_VERIFY (R538). -/
  | imageVerify (peer : Nat) (d : List Byte)
  /-- IMAGE_ACTIVATE (R541). -/
  | imageActivate (peer : Nat) (d : List Byte)
  /-- EDITION_WRITE (R551). good: the read-back holds; lost: power fails before SEAL. -/
  | editionWrite (peer : Nat) (d : List Byte) (good lost : Bool)
  /-- DEBUG_ENABLE (R523). -/
  | debugEnable (peer : Nat) (d : List Byte)
  /-- TWIN_PAIR (R492). pub: the partner's public part, none where it does not agree. -/
  | twinPair (peer : Nat) (d : List Byte) (pub : Option (List Byte))
  /-- CASCADE_JOIN (R499). -/
  | cascadeJoin (peer : Nat) (d : List Byte)
  /-- PROG_START (R416). -/
  | progStart (peer : Nat) (d : List Byte)
  /-- PROG_HALT (R416). -/
  | progHalt (peer : Nat) (d : List Byte)
  /-- LEDGER_OPEN (R418). -/
  | ledgerOpen (peer : Nat) (d : List Byte)
  /-- LEDGER_ACK (R419). -/
  | ledgerAck (peer : Nat) (d : List Byte)
  /-- LEDGER_CLOSE (R418). -/
  | ledgerClose (peer : Nat) (d : List Byte)
  /-- STREAM_SEND (R418). The steward turns to the stream of a session. -/
  | streamSend (id : Nat)
  /-- STREAM_RESEND (R419). 1 s has passed since the stream's last message. -/
  | streamResend (id : Nat)
  /-- HOST_STOP (R417). -/
  | hostStop (peer : Nat) (d : List Byte)
  /-- HOST_RESUME (R417). -/
  | hostResume (peer : Nat) (d : List Byte)
  /-- HOST_RELEASE (R417). -/
  | hostRelease (peer : Nat) (d : List Byte)
  /-- HOST_OVERRIDE (R417). -/
  | hostOverride (peer : Nat) (d : List Byte)
  /-- DIGEST_ON (R420). -/
  | digestOn (peer : Nat) (d : List Byte)
  /-- DIGEST_OFF (R420). -/
  | digestOff (peer : Nat) (d : List Byte)
  /-- DIGEST_SEND (R420). A second of site time begins. -/
  | digestSend
  /-- CAN_FRAME_RX (R436). A frame ends on the bus of port p: identifier word and format byte as in Table CAN-3, data, whether it met an error, FRC ticks since its start-of-frame bit. -/
  | canFrameRx (p idw fmt : Nat) (data : List Byte) (err : Bool) (age : Nat)
  /-- RATE_DWELL (R424). -/
  | rateDwell (p : Nat)
  /-- MAILBOX_PEND (R426). -/
  | mailboxPend (p n : Nat)
  /-- MAILBOX_ABORT (R428). onBus: the mailbox's frame is on the bus. -/
  | mailboxAbort (p n : Nat) (onBus : Bool)
  /-- MAILBOX_END (R430). The attempt of port p's offered frame ends: 0 sent, 1 arbitration lost, 2 error frame. -/
  | mailboxEnd (p outcome : Nat)
  /-- RECOVER (R435). CAN_CMD 1. -/
  | recover (p : Nat)
  /-- BUS_OFF_RECOVERY (R435). -/
  | busOffRecovery (p : Nat)
  /-- CAN_SLEEP (R437). -/
  | canSleep (p : Nat)
  /-- CAN_WAKE (R439). A wake-up pattern, or a frame with an identifier word and data, perhaps with a bit error. -/
  | canWake (p idw : Nat) (data : List Byte) (wup err : Bool)
  /-- CAN_ENABLE (R422). -/
  | canEnable (p : Nat)
  /-- CAN_DISABLE (R429). onBus: the offered mailbox's frame is on the bus. -/
  | canDisable (p : Nat) (onBus : Bool)
  /-- SER_FRAME_RX (R442). Characters (bit 8 the ninth bit) of a frame; err 0 none, 1 parity, 2 framing, 5 break; FRC ticks since its first start bit. -/
  | serFrameRx (p : Nat) (cs : List Nat) (err age : Nat)
  /-- SER_TX_RECORD (R443). -/
  | serTxRecord (p : Nat)
  /-- SER_TX_START (R441). -/
  | serTxStart (p : Nat)
  /-- HOME (R460). AXS_CMD 1 on axis n. -/
  | home (n : Nat)
  /-- SET_POS (R454). AXS_CMD 2 on axis n. -/
  | setPos (n : Nat)
  /-- CLEAR_FAULT (R454). AXS_CMD 3 on axis n. -/
  | clearFault (n : Nat)
  /-- ABORT_HOME (R463). AXS_CMD 4 on axis n. -/
  | abortHome (n : Nat)
  /-- LIMIT_TRIP (R456). Limit l (0 A, 1 B) of axis n has held its tripped state for QUAL. -/
  | limitTrip (n l : Nat)
  /-- LIMIT_CLEAR (R457). Limit l of axis n. -/
  | limitClear (n l : Nat)
  /-- LIMIT_CHATTER (R458). Limit l of axis n. -/
  | limitChatter (n l : Nat)
  /-- HOME_REFERENCE (R460). The homing reference of axis n has held its new state for QUAL. -/
  | homeReference (n : Nat)
  /-- DI_EDGE (R466). Filtered state of input k. -/
  | diEdge (k : Nat) (level : Bool)
  /-- DO_WRITE (R467, R469). The value written to DIO_OUT. -/
  | doWrite (v : Nat)
  /-- DO_PULSE_END (R467). Of output k. -/
  | doPulseEnd (k : Nat)
  /-- DO_OVERCURRENT (R470). On output k. -/
  | doOvercurrent (k : Nat)
  /-- DO_OVERCURRENT_CLEAR (R470). Writing 1 to the bit of output k. -/
  | doOvercurrentClear (k : Nat)
  /-- DO_OPEN (R471). Output k on and drawing less than 5 mA for 100 ms, or (low false) drawing 5 mA or more again. -/
  | doOpen (k : Nat) (low : Bool)
  /-- OUT_SUPPLY_LOW (R472). -/
  | outSupplyLow
  /-- OUT_SUPPLY_RETURN (R472). -/
  | outSupplyReturn
  /-- LEASE_TX (R486). -/
  | leaseTx
  /-- LEASE_RX (R482). Whether the tag holds; TERM, site time at sending, last mirror SEQ issued, and the stop lane's ACTIVE sources (its state comes with the mirror). -/
  | leaseRx (ok : Bool) (term site seq active : Nat)
  /-- STANDBY_FRAME (R481). Whether the tag holds; TERM, TWN_HEALTH, last mirror SEQ held, stop input state; whether the partner asks for RESYNC; the acknowledgement time it shows (us). -/
  | standbyFrame (ok : Bool) (term health seq : Nat) (stop ask : Bool) (lag : Nat)
  /-- MIRROR_FRAME (R478). Whether the tag holds; one record and its SEQ. -/
  | mirrorFrame (ok : Bool) (seq : Nat) (r : Machine.MirRec)
  /-- HOP_CHECK (R482). Whether the sync word of any of the active's carriers was heard. -/
  | hopCheck (heard : Bool)
  /-- TWN_YIELD (R483). TWN_CMD 1. -/
  | twnYield
  /-- YIELD_FRAME (R483). Whether the tag holds; TERM and the hop at which the standby takes over. -/
  | yieldFrame (ok : Bool) (term cyc hop : Nat)
  /-- TWN_RESYNC (R479). TWN_CMD 2. -/
  | twnResync
  /-- RESYNC_FRAME (R479). Whether the tag holds; the SEQ the journal goes on from, and the full state. -/
  | resyncFrame (ok : Bool) (seq : Nat) (l : List Machine.MirRec)
  /-- TWIN_START_TIMEOUT (R484). Whether a LEASE or a BROADCAST frame of the site was heard in the last two air cycles; whether the partner is STARTING. -/
  | twinStartTimeout (heard partnerStarting : Bool)
  /-- IO_FRAME (R489). Whether the tag holds; at the I/O module the plans of channels 256 to 263 and DIO_OUT; at the active the I/O module's registers (block, key, value). -/
  | ioFrame (ok : Bool) (plan : List (Nat × Machine.Chan)) (out : Nat) (inputs : List (Nat × Nat × Nat))
  /-- IO_LOSS (R491). -/
  | ioLoss
  /-- TWN_PAIR (R492). TWN_CMD 3. The partner's public part, if it has accepted in its own window a request that names this module, within 120 s. -/
  | twnPair (pub : Option (List Byte))
  /-- TWN_UNPAIR (R493). TWN_CMD 4. Whether the other module has accepted likewise. -/
  | twnUnpair (agreed : Bool)
  /-- HEARTBEAT_TX (R496). -/
  | heartbeatTx
  /-- HEARTBEAT_RX (R497). Whether the tag holds; the headwater's site time, and by how many ns it is ahead, by the two-way exchange. -/
  | heartbeatRx (ok : Bool) (site : Nat) (off : Int)
  /-- HEADWATER_LOST (R501). -/
  | headwaterLost
  /-- RECONCILIATION (R502). At the headwater: what the member sends (claims freed, requests completed under R501 as owner and tag). At the tributary: the replica that comes back. -/
  | reconciliation (member : Nat) (freed : List Nat) (orphans : List (Nat × Nat)) (replica : List (Nat × Machine.Claim))
  /-- CAS_JOIN (R499). CAS_CMD 1. -/
  | casJoin
  /-- CAS_JOIN_TIMEOUT (R499). -/
  | casJoinTimeout
  /-- ALIGN_HOLD (R498). -/
  | alignHold
  /-- CAS_LEAVE (R500). CAS_CMD 2. -/
  | casLeave
  /-- CAS_EVICT (R503). CAS_CMD 3 with TARGET. -/
  | casEvict (target : Nat)
  /-- LATENCY_MEASURE (R496). Members and their one-way latency (us), none for one that does not answer. -/
  | latencyMeasure (l : List (Nat × Option Nat))
  /-- CASCADE_STOP_NOTICE (R504). A member, whether it reports an epoch, its ACTIVE sources. -/
  | cascadeStopNotice (member : Nat) (ep : Bool) (active : Nat)
  /-- CREATE_QUIRE (R517). KEY_CHANGE with OP 1 (or with a payload that spells no OP); steps: the flash writes done before power fails, many where it does not. -/
  | createQuire (peer : Nat) (d : List Byte) (steps : Nat)
  /-- IMPORT (R517). -/
  | importKey (peer : Nat) (d : List Byte) (steps : Nat)
  /-- GENERATE (R517). -/
  | generateKey (peer : Nat) (d : List Byte) (steps : Nat)
  /-- DERIVE (R517). -/
  | deriveKey (peer : Nat) (d : List Byte) (steps : Nat)
  /-- DESTROY (R518). -/
  | destroyKey (peer : Nat) (d : List Byte) (steps : Nat)
  /-- DECOMMISSION (R522). -/
  | decommission (peer : Nat) (d : List Byte)
  /-- ROTATE_BKEY (R514). KEY_CMD 1. -/
  | rotateBkey
  /-- KEY_DEBUG_ENABLE (R523). KEY_CMD 2. -/
  | keyDebugEnable
  /-- CLOSE_WINDOW (R526). KEY_CMD 3. -/
  | closeWindow
  /-- PRESENCE_OPEN (R524). The field has been present for 2 s without a break. -/
  | presenceOpen
  /-- PRESENCE_CLOSE (R524). A presence window reaches its end; field is what the sensor reads. -/
  | presenceClose (field : Bool)
  /-- PRESENCE_STUCK (R525). The field has been present for 30 s without a break (held), or absent for 2 s, which ends STUCK. -/
  | presenceStuck (held : Bool)
  /-- DRBG_HEALTH_FAIL (R508). A health test of the entropy source fails. -/
  | drbgHealthFail
  /-- DRBG_HEALTH_PASS (R508). A health test passes. -/
  | drbgHealthPass
  /-- UPD_ABORT (R533). UPD_CMD 1. -/
  | updAbort
  /-- UPD_VERIFY (R538). UPD_CMD 2 on slot k of UPD_SLOT_k. -/
  | updVerify (k : Nat)
  /-- UPD_ACTIVATE (R541). UPD_CMD 3 on slot k. -/
  | updActivate (k : Nat)
  /-- TRIAL_CONFIRM (R543). Of a kind (0 FIRMWARE, 1 PROGRAM, 2 SITE). -/
  | trialConfirm (kind : Nat)
  /-- TRIAL_REVERT (R544). Of a kind, and what the start-up after it finds. -/
  | trialRevert (kind : Nat) (b : Boot)
  /-- OTP_WRITE_EDITION (R551). OTP_CMD 1 with the edition's bytes; whether the read-back holds, and whether power fails before SEAL. -/
  | otpWriteEdition (e : List Byte) (good lost : Bool)
  /-- OTP_ADVANCE (R546). OTP_CMD 2. -/
  | otpAdvance (ctr step : Nat)
  /-- FLASH_OP_FAIL (R556). A program or an erase fails in a region of FSH_REGION_k. -/
  | flashOpFail (region : Nat) (erase : Bool)
  /-- WEAR_LEVELLING (R558). The region's mean erase count (in units of 4) after the work, or whether it was put off beyond the budget. -/
  | wearLevelling (region mean : Nat) (deferred : Bool)
  /-- COUNTERS_APPEND (R550). -/
  | countersAppend
  /-- SECOND (R561). -/
  | second
  /-- SOFTWARE_EVENT (R561). The word written to EVT_SW. -/
  | softwareEvent (v : Nat)
  /-- EVT_CLEAR_ERR (R564). -/
  | evtClearErr (b : Nat)
  /-- WATCHDOG_KICK (R565). Core n (16 the steward) writes v to EVT_WDOG. -/
  | watchdogKick (n v : Nat)
  /-- STEWARD_WATCHDOG_EXPIRY (R565). -/
  | stewardWatchdogExpiry
  /-- STEWARD_ERROR (R566). Error code and DETAIL of the entry. -/
  | stewardError (code detail : Nat)
  /-- DFAULT_RESET (R568). What the start-up after it finds. -/
  | dfaultReset (b : Boot)
  /-- PROG_LEDGER_RECORD (R572). -/
  | progLedgerRecord
  /-- ARCHIVE_PAGE_WRITE (R578). Whether the page is programmed. -/
  | archivePageWrite (ok : Bool)
  /-- ALARM_ARCHIVE (R578). Whether the page is programmed. -/
  | alarmArchive (ok : Bool)
  /-- PWR_RUN (R583). PWR_CMD 1. -/
  | pwrRun
  /-- PWR_READY (R582). PWR_CMD 2. -/
  | pwrReady
  /-- PWR_WATCH (R585). PWR_CMD 3. -/
  | pwrWatch
  /-- PWR_RESET (R601). PWR_CMD 4, and what the start-up after it finds. -/
  | pwrReset (b : Boot)
  /-- AUTO_RUN_SET (R642). PWR_CTRL.AUTO_RUN is written with 1. -/
  | autoRunSet
  /-- RUN_ENTRY (R584). A pending RUN takes effect. -/
  | runEntry
  /-- WATCH_ENTRY_DONE (R585). Every field core is IDLE or HALTED. -/
  | watchEntryDone
  /-- WAKE (R589). A wake source becomes active: its bit in Table PWR-4. -/
  | wake (src : Nat)
  /-- POWER_ON (R593). The logic supply has exceeded 9 V for 10 ms, and what the start-up finds. -/
  | powerOn (b : Boot)
  /-- PIN_RESET (R600). RESETIN has been low for 1 ms, and what the start-up after it finds. -/
  | pinReset (b : Boot)
  /-- BROWNOUT_RESET (R600). Internal rails out of range, and what the start-up after it finds. -/
  | brownoutReset (b : Boot)
  /-- ROM_RETRY (R594). 60 s after the ROM found no bootable firmware, and what it finds now. -/
  | romRetry (b : Boot)
  /-- SUPPLY_WARN (R602). The logic supply (10 mV) has stayed below 8.5 V for 100 us. -/
  | supplyWarn (v : Nat)
  /-- TEMPERATURE_READING (R603). The internal temperature (degrees C) and the logic and output supplies (10 mV); b is what the start-up finds should the reading reset the module. -/
  | temperatureReading (t : Int) (logic output : Nat) (b : Boot)
  /-- VERIFICATION_END (R539). The gatherings whose re-read from flash does not match, and the most bits corrected in any codeword of each block read. -/
  | verificationEnd (bad corrected : List Nat)
  /-- ACTIVATION_RESET (R541). What the start-up after it finds. -/
  | activationReset (b : Boot)
  /-- POWER_LOSS (R602). The hold-up store is empty. -/
  | powerLoss
  /-- PLCA_BEACON_RETURN (R371). -/
  | plcaBeaconReturn
  /-- STANDBY_TX (R481). Bits of Table TWN-4 that only a comparison outside this module's registers decides, for the last cycle: 1 IMAGE, 2 AIR_HEAR, 3 TX_LOOP, 6 solutions agreed, 7 records agreed. -/
  | standbyTx (obs : Nat)
  /-- TRANSMIT_CHAIN_FAULT (R477). -/
  | transmitChainFault
  /-- CASCADE_LINK_FRAME (R499). Whether the tag holds. -/
  | cascadeLinkFrame (ok : Bool) (f : Machine.CasFrame)
  deriving DecidableEq, Repr

end Sys2Proof
end

