-- ==== Sys2Proof/Decode.lean ====
section
/-!
DEFINITION. Sys2Proof/Decode.lean: reading instruction words. The opcode table gives no row any bits, so no word of the host's numbering spells a command (decodeTableWord). Cyent instructions have words of their own (08_cyent_instruction_set.md,
Tables ISA-2 to ISA-12): decodeCyent reads one, and encodeCyent writes one.
-/
namespace Sys2Proof

/-- No row of spec/opcode_table.json has bits. -/
def decodeTableWord (_nbits _w : Nat) : Option Instr := none

/-- Bits lo to lo + n − 1 of a word. -/
def wbits (w lo n : Nat) : Nat := w / 2 ^ lo % 2 ^ n

/-- ALU functions (Table ISA-4, opcode 0x01). -/
def decodeAlu (c fn d s1 s2 : Nat) (wf : Bool) : Option Instr :=
  match fn with
  | 0x000 => some (.add c d s1 s2 wf)
  | 0x001 => some (.sub c d s1 s2 wf)
  | 0x002 => some (.and c d s1 s2 wf)
  | 0x003 => some (.or c d s1 s2 wf)
  | 0x004 => some (.xor c d s1 s2 wf)
  | 0x005 => some (.sll c d s1 s2 wf)
  | 0x006 => some (.srl c d s1 s2 wf)
  | 0x007 => some (.sra c d s1 s2 wf)
  | 0x008 => some (.slt c d s1 s2 wf)
  | 0x009 => some (.sltu c d s1 s2 wf)
  | 0x00A => some (.min c d s1 s2 wf)
  | 0x00B => some (.max c d s1 s2 wf)
  | 0x00C => some (.minu c d s1 s2 wf)
  | 0x00D => some (.maxu c d s1 s2 wf)
  | 0x00E => if s2 = 0 ∧ wf = false then some (.clz c d s1) else none
  | 0x00F => if s2 = 0 ∧ wf = false then some (.ctz c d s1) else none
  | 0x010 => if s2 = 0 ∧ wf = false then some (.popc c d s1) else none
  | 0x011 => if s2 = 0 then some (.bswap c d s1 wf) else none
  | _ => none

/-- Multiply and divide functions (Table ISA-4, opcode 0x09). -/
def decodeMul (c fn d s1 s2 : Nat) (wf : Bool) : Option Instr :=
  match fn with
  | 0x000 => some (.mul c d s1 s2 wf)
  | 0x001 => if wf then none else some (.mulh c d s1 s2)
  | 0x002 => if wf then none else some (.mulhu c d s1 s2)
  | 0x004 => some (.div c d s1 s2 wf)
  | 0x005 => some (.divu c d s1 s2 wf)
  | 0x008 => some (.rem c d s1 s2 wf)
  | 0x009 => some (.remu c d s1 s2 wf)
  | _ => none

/-- Atomics (Table ISA-7). -/
def decodeAtomic (c fn d s1 s2 : Nat) : Option Instr :=
  let op := fn % 16
  let size := fn / 16 % 4
  let order := fn / 64 % 4
  if 256 ≤ fn ∨ (size ≠ 2 ∧ size ≠ 3) ∨ 9 < op then none
  else if op = 9 then some (.atomicCas c size order d s1 s2) else some (.atomic c op size order d s1 s2)

/-- Float64 functions (Table ISA-5). -/
def decodeFp (c fn d s1 s2 : Nat) : Option Instr :=
  match fn with
  | 0x00 => some (.fadd c d s1 s2)
  | 0x01 => some (.fsub c d s1 s2)
  | 0x02 => some (.fmul c d s1 s2)
  | 0x03 => some (.fdiv c d s1 s2)
  | 0x04 => some (.fsqrt c d s1)
  | 0x05 => some (.fmin c d s1 s2)
  | 0x06 => some (.fmax c d s1 s2)
  | 0x07 => some (.fmadd c d s1 s2)
  | 0x08 => some (.fmsub c d s1 s2)
  | 0x09 => some (.fnmadd c d s1 s2)
  | 0x0A => some (.fabs c d s1)
  | 0x0B => some (.fneg c d s1)
  | 0x0C => some (.feq c d s1 s2)
  | 0x0D => some (.flt c d s1 s2)
  | 0x0E => some (.fle c d s1 s2)
  | 0x0F => some (.fcvtDL c d s1)
  | 0x10 => some (.fcvtLD c d s1)
  | 0x11 => some (.fmvX c d s1)
  | 0x12 => some (.fmvD c d s1)
  | 0x13 => some (.fclass c d s1)
  | _ => none

/-- Lanes of a vector at a width code of Table ISA-6. -/
def laneCount (wd : Nat) : Nat := match wd with | 0 => 16 | 1 => 8 | 2 => 4 | 3 => 2 | 4 => 2 | _ => 0

/-- Vector functions at a width that Table ISA-6 lists. -/
def decodeVec (c wd fn d s1 s2 : Nat) : Option Instr :=
  if 4 < wd then none
  else
    match fn with
    | 0x00 => some (.vadd c wd d s1 s2)
    | 0x01 => some (.vsub c wd d s1 s2)
    | 0x02 => some (.vmul c wd d s1 s2)
    | 0x03 => if wd = 4 then some (.vfma c wd d s1 s2) else none
    | 0x04 => some (.vmin c wd d s1 s2)
    | 0x05 => some (.vmax c wd d s1 s2)
    | 0x06 => some (.vand c wd d s1 s2)
    | 0x07 => some (.vor c wd d s1 s2)
    | 0x08 => some (.vxor c wd d s1 s2)
    | 0x09 => if wd < 4 then some (.vshl c wd d s1 s2) else none
    | 0x0A => if wd < 4 then some (.vshr c wd d s1 s2) else none
    | 0x0B => if wd < 4 then some (.vsar c wd d s1 s2) else none
    | 0x0C => some (.vcmpeq c wd d s1 s2)
    | 0x0D => some (.vcmplt c wd d s1 s2)
    | 0x0E => some (.vsplat c wd d s1)
    | 0x0F => if s2 < laneCount wd then some (.vext c wd d s1 s2) else none
    | 0x10 => if s2 < laneCount wd then some (.vins c wd d s1 s2) else none
    | 0x11 => if 3 ≤ wd then some (.vsum c wd d s1) else none
    | 0x12 => if wd = 4 then some (.vdiv c wd d s1 s2) else none
    | 0x13 => if wd = 4 then some (.vsqrt c wd d s1) else none
    | _ => none

/-- Flume functions (Table ISA-9). -/
def decodeFlm (c sub d s1 s2 f : Nat) : Option Instr :=
  match sub with
  | 0 => some (.fpush c d s1 f)
  | 1 => some (.fpushe c d s1 f)
  | 2 => some (.fpushw c d s1 f)
  | 3 => some (.fpushwe c d s1 f)
  | 4 => some (.fpop c d s1 f)
  | 5 => some (.fpopw c d s1 f)
  | 6 => some (.fpeek c d s1 f)
  | 7 => some (.flen c d f)
  | 8 => some (.fsend c d s1 s2 f)
  | 9 => some (.frecv c d s1 s2 f)
  | _ => none

/-- Millrace functions (Table ISA-11). -/
def decodeMrc (c fn d s1 s2 : Nat) : Option Instr :=
  match fn with
  | 0 => some (.mdone c s1)
  | 1 => some (.mfail c s1)
  | 2 => some (.mpost c d s1 s2)
  | 3 => some (.mcancel c d s1)
  | 4 => some (.myield c)
  | 5 => some (.marg c d)
  | 6 => some (.mid c d)
  | _ => none

/-- Time functions (Table ISA-12). -/
def decodeTime (c fn d s1 s2 : Nat) : Option Instr :=
  match fn with
  | 0 => some (.tsite c d)
  | 1 => some (.tcyc c d s1)
  | 2 => some (.tct c d)
  | 3 => if s2 < 4 then some (.tport c d s2) else none
  | 4 => some (.twait c d s1)
  | _ => none

/-- The instruction that a 32-bit word spells on core c (Table ISA-3); none for every word R242 calls illegal. -/
def decodeCyent (c w : Nat) : Option Instr :=
  let op := wbits w 26 6
  let d := wbits w 21 5
  let s1 := wbits w 16 5
  let s2 := wbits w 11 5
  let fn := wbits w 0 11
  let imm := wbits w 0 16
  match op with
  | 0x01 => decodeAlu c (fn % 1024) d s1 s2 (fn / 1024 == 1)
  | 0x02 => some (.addi c d s1 imm)
  | 0x03 => some (.andi c d s1 imm)
  | 0x04 => some (.ori c d s1 imm)
  | 0x05 => some (.xori c d s1 imm)
  | 0x06 => if s2 = 0 ∧ wbits w 6 2 = 0 ∧ wbits w 8 3 ≠ 3 ∧ wbits w 8 3 < 7 then some (.shifti c d s1 (wbits w 8 3) (wbits w 0 6)) else none
  | 0x07 => some (.slti c d s1 imm)
  | 0x08 => if wbits w 16 2 = 0 then some (.movw c d (wbits w 19 2) (wbits w 18 1 == 1) imm) else none
  | 0x09 => decodeMul c (fn % 1024) d s1 s2 (fn / 1024 == 1)
  | 0x0A => some (.pcadd c d imm)
  | 0x10 => some (.lb c d s1 imm)
  | 0x11 => some (.lbu c d s1 imm)
  | 0x12 => some (.lh c d s1 imm)
  | 0x13 => some (.lhu c d s1 imm)
  | 0x14 => some (.lw c d s1 imm)
  | 0x15 => some (.lwu c d s1 imm)
  | 0x16 => some (.ld c d s1 imm)
  | 0x18 => some (.sb c d s1 imm)
  | 0x19 => some (.sh c d s1 imm)
  | 0x1A => some (.sw c d s1 imm)
  | 0x1B => some (.sd c d s1 imm)
  | 0x1C => some (.vld c d s1 imm)
  | 0x1D => some (.vst c d s1 imm)
  | 0x1E => some (.fld c d s1 imm)
  | 0x1F => some (.fst c d s1 imm)
  | 0x20 => decodeAtomic c fn d s1 s2
  | 0x21 => match fn with | 0 => some (.fenceRw c) | 1 => some (.fenceAll c) | 2 => some (.fenceI c) | _ => none
  | 0x24 => some (.beq c d s1 imm)
  | 0x25 => some (.bne c d s1 imm)
  | 0x26 => some (.blt c d s1 imm)
  | 0x27 => some (.bge c d s1 imm)
  | 0x28 => some (.bltu c d s1 imm)
  | 0x29 => some (.bgeu c d s1 imm)
  | 0x2A => some (.jal c (wbits w 0 26))
  | 0x2B => some (.jalr c d s1 imm)
  | 0x30 => decodeFp c fn d s1 s2
  | 0x31 => decodeVec c (wbits w 8 3) (wbits w 0 8) d s1 s2
  | 0x34 => decodeFlm c (wbits w 0 4) d s1 s2 (wbits w 4 7)
  | 0x35 =>
    let t := wbits w 8 3
    if wbits w 0 8 = 0 ∧ t < 6 ∧ d % (if t = 3 then 4 else 2) = 0 then some (.erd c t d s1) else none
  | 0x36 => decodeMrc c fn d s1 s2
  | 0x37 => decodeTime c fn d s1 s2
  | 0x3C => match fn with | 0 => some (.sysc c s1) | 1 => some (.brk c) | 2 => some (.eret c) | _ => none
  | 0x3D => if [0, 1, 2, 3, 4, 5, 0x10, 0x20, 0x21, 0x30].contains imm then some (.crr c d imm) else none
  | 0x3E => if [0, 1, 2, 3, 4, 5, 0x10, 0x20, 0x21, 0x30].contains imm then some (.crw c d s1 imm) else none
  | _ => none

/-- The classes the steward lacks (R238): float64, vector, flume, engine and Millrace opcodes. -/
def fieldOnly (w : Nat) : Bool := [0x1C, 0x1D, 0x1E, 0x1F, 0x30, 0x31, 0x34, 0x35, 0x36].contains (wbits w 26 6)

/-! ### The encoder, from the same tables -/

/-- Format A. -/
def fmtA (op d s1 s2 fn : Nat) : Nat := op * 2 ^ 26 + d * 2 ^ 21 + s1 * 2 ^ 16 + s2 * 2 ^ 11 + fn
/-- Formats I and M; format B with its two sources in the places of D and S1. -/
def fmtI (op d s1 imm : Nat) : Nat := op * 2 ^ 26 + d * 2 ^ 21 + s1 * 2 ^ 16 + imm
def wBit (wf : Bool) : Nat := if wf then 1024 else 0

/-- The word of a Cyent instruction; fields the tables leave unused are 0. None for a command that is no instruction. -/
def encodeCyent (i : Instr) : Option Nat :=
  match i with
  | .add _ d s1 s2 wf => some (fmtA 0x01 d s1 s2 (wBit wf))
  | .sub _ d s1 s2 wf => some (fmtA 0x01 d s1 s2 (wBit wf + 1))
  | .and _ d s1 s2 wf => some (fmtA 0x01 d s1 s2 (wBit wf + 2))
  | .or _ d s1 s2 wf => some (fmtA 0x01 d s1 s2 (wBit wf + 3))
  | .xor _ d s1 s2 wf => some (fmtA 0x01 d s1 s2 (wBit wf + 4))
  | .sll _ d s1 s2 wf => some (fmtA 0x01 d s1 s2 (wBit wf + 5))
  | .srl _ d s1 s2 wf => some (fmtA 0x01 d s1 s2 (wBit wf + 6))
  | .sra _ d s1 s2 wf => some (fmtA 0x01 d s1 s2 (wBit wf + 7))
  | .slt _ d s1 s2 wf => some (fmtA 0x01 d s1 s2 (wBit wf + 8))
  | .sltu _ d s1 s2 wf => some (fmtA 0x01 d s1 s2 (wBit wf + 9))
  | .min _ d s1 s2 wf => some (fmtA 0x01 d s1 s2 (wBit wf + 0x0A))
  | .max _ d s1 s2 wf => some (fmtA 0x01 d s1 s2 (wBit wf + 0x0B))
  | .minu _ d s1 s2 wf => some (fmtA 0x01 d s1 s2 (wBit wf + 0x0C))
  | .maxu _ d s1 s2 wf => some (fmtA 0x01 d s1 s2 (wBit wf + 0x0D))
  | .clz _ d s1 => some (fmtA 0x01 d s1 0 0x0E)
  | .ctz _ d s1 => some (fmtA 0x01 d s1 0 0x0F)
  | .popc _ d s1 => some (fmtA 0x01 d s1 0 0x10)
  | .bswap _ d s1 wf => some (fmtA 0x01 d s1 0 (wBit wf + 0x11))
  | .mul _ d s1 s2 wf => some (fmtA 0x09 d s1 s2 (wBit wf))
  | .mulh _ d s1 s2 => some (fmtA 0x09 d s1 s2 1)
  | .mulhu _ d s1 s2 => some (fmtA 0x09 d s1 s2 2)
  | .div _ d s1 s2 wf => some (fmtA 0x09 d s1 s2 (wBit wf + 4))
  | .divu _ d s1 s2 wf => some (fmtA 0x09 d s1 s2 (wBit wf + 5))
  | .rem _ d s1 s2 wf => some (fmtA 0x09 d s1 s2 (wBit wf + 8))
  | .remu _ d s1 s2 wf => some (fmtA 0x09 d s1 s2 (wBit wf + 9))
  | .addi _ d s1 imm => some (fmtI 0x02 d s1 imm)
  | .andi _ d s1 imm => some (fmtI 0x03 d s1 imm)
  | .ori _ d s1 imm => some (fmtI 0x04 d s1 imm)
  | .xori _ d s1 imm => some (fmtI 0x05 d s1 imm)
  | .shifti _ d s1 kind amt => some (fmtA 0x06 d s1 0 (kind * 256 + amt))
  | .slti _ d s1 imm => some (fmtI 0x07 d s1 imm)
  | .movw _ d q keep imm => some (0x08 * 2 ^ 26 + d * 2 ^ 21 + q * 2 ^ 19 + (if keep then 2 ^ 18 else 0) + imm)
  | .pcadd _ d imm => some (fmtI 0x0A d 0 imm)
  | .lb _ d s1 ofs => some (fmtI 0x10 d s1 ofs)
  | .lbu _ d s1 ofs => some (fmtI 0x11 d s1 ofs)
  | .lh _ d s1 ofs => some (fmtI 0x12 d s1 ofs)
  | .lhu _ d s1 ofs => some (fmtI 0x13 d s1 ofs)
  | .lw _ d s1 ofs => some (fmtI 0x14 d s1 ofs)
  | .lwu _ d s1 ofs => some (fmtI 0x15 d s1 ofs)
  | .ld _ d s1 ofs => some (fmtI 0x16 d s1 ofs)
  | .sb _ d s1 ofs => some (fmtI 0x18 d s1 ofs)
  | .sh _ d s1 ofs => some (fmtI 0x19 d s1 ofs)
  | .sw _ d s1 ofs => some (fmtI 0x1A d s1 ofs)
  | .sd _ d s1 ofs => some (fmtI 0x1B d s1 ofs)
  | .vld _ d s1 ofs => some (fmtI 0x1C d s1 ofs)
  | .vst _ d s1 ofs => some (fmtI 0x1D d s1 ofs)
  | .fld _ d s1 ofs => some (fmtI 0x1E d s1 ofs)
  | .fst _ d s1 ofs => some (fmtI 0x1F d s1 ofs)
  | .atomic _ op size order d s1 s2 => some (fmtA 0x20 d s1 s2 (op + 16 * size + 64 * order))
  | .atomicCas _ size order d s1 s2 => some (fmtA 0x20 d s1 s2 (9 + 16 * size + 64 * order))
  | .fenceRw _ => some (fmtA 0x21 0 0 0 0)
  | .fenceAll _ => some (fmtA 0x21 0 0 0 1)
  | .fenceI _ => some (fmtA 0x21 0 0 0 2)
  | .beq _ s1 s2 disp => some (fmtI 0x24 s1 s2 disp)
  | .bne _ s1 s2 disp => some (fmtI 0x25 s1 s2 disp)
  | .blt _ s1 s2 disp => some (fmtI 0x26 s1 s2 disp)
  | .bge _ s1 s2 disp => some (fmtI 0x27 s1 s2 disp)
  | .bltu _ s1 s2 disp => some (fmtI 0x28 s1 s2 disp)
  | .bgeu _ s1 s2 disp => some (fmtI 0x29 s1 s2 disp)
  | .jal _ disp => some (0x2A * 2 ^ 26 + disp)
  | .jalr _ d s1 imm => some (fmtI 0x2B d s1 imm)
  | .fadd _ d s1 s2 => some (fmtA 0x30 d s1 s2 0x00)
  | .fsub _ d s1 s2 => some (fmtA 0x30 d s1 s2 0x01)
  | .fmul _ d s1 s2 => some (fmtA 0x30 d s1 s2 0x02)
  | .fdiv _ d s1 s2 => some (fmtA 0x30 d s1 s2 0x03)
  | .fsqrt _ d s1 => some (fmtA 0x30 d s1 0 0x04)
  | .fmin _ d s1 s2 => some (fmtA 0x30 d s1 s2 0x05)
  | .fmax _ d s1 s2 => some (fmtA 0x30 d s1 s2 0x06)
  | .fmadd _ d s1 s2 => some (fmtA 0x30 d s1 s2 0x07)
  | .fmsub _ d s1 s2 => some (fmtA 0x30 d s1 s2 0x08)
  | .fnmadd _ d s1 s2 => some (fmtA 0x30 d s1 s2 0x09)
  | .fabs _ d s1 => some (fmtA 0x30 d s1 0 0x0A)
  | .fneg _ d s1 => some (fmtA 0x30 d s1 0 0x0B)
  | .feq _ d s1 s2 => some (fmtA 0x30 d s1 s2 0x0C)
  | .flt _ d s1 s2 => some (fmtA 0x30 d s1 s2 0x0D)
  | .fle _ d s1 s2 => some (fmtA 0x30 d s1 s2 0x0E)
  | .fcvtDL _ d s1 => some (fmtA 0x30 d s1 0 0x0F)
  | .fcvtLD _ d s1 => some (fmtA 0x30 d s1 0 0x10)
  | .fmvX _ d s1 => some (fmtA 0x30 d s1 0 0x11)
  | .fmvD _ d s1 => some (fmtA 0x30 d s1 0 0x12)
  | .fclass _ d s1 => some (fmtA 0x30 d s1 0 0x13)
  | .vadd _ wd d s1 s2 => some (fmtA 0x31 d s1 s2 (wd * 256 + 0x00))
  | .vsub _ wd d s1 s2 => some (fmtA 0x31 d s1 s2 (wd * 256 + 0x01))
  | .vmul _ wd d s1 s2 => some (fmtA 0x31 d s1 s2 (wd * 256 + 0x02))
  | .vfma _ wd d s1 s2 => some (fmtA 0x31 d s1 s2 (wd * 256 + 0x03))
  | .vmin _ wd d s1 s2 => some (fmtA 0x31 d s1 s2 (wd * 256 + 0x04))
  | .vmax _ wd d s1 s2 => some (fmtA 0x31 d s1 s2 (wd * 256 + 0x05))
  | .vand _ wd d s1 s2 => some (fmtA 0x31 d s1 s2 (wd * 256 + 0x06))
  | .vor _ wd d s1 s2 => some (fmtA 0x31 d s1 s2 (wd * 256 + 0x07))
  | .vxor _ wd d s1 s2 => some (fmtA 0x31 d s1 s2 (wd * 256 + 0x08))
  | .vshl _ wd d s1 s2 => some (fmtA 0x31 d s1 s2 (wd * 256 + 0x09))
  | .vshr _ wd d s1 s2 => some (fmtA 0x31 d s1 s2 (wd * 256 + 0x0A))
  | .vsar _ wd d s1 s2 => some (fmtA 0x31 d s1 s2 (wd * 256 + 0x0B))
  | .vcmpeq _ wd d s1 s2 => some (fmtA 0x31 d s1 s2 (wd * 256 + 0x0C))
  | .vcmplt _ wd d s1 s2 => some (fmtA 0x31 d s1 s2 (wd * 256 + 0x0D))
  | .vsplat _ wd d s1 => some (fmtA 0x31 d s1 0 (wd * 256 + 0x0E))
  | .vext _ wd d s1 lane => some (fmtA 0x31 d s1 lane (wd * 256 + 0x0F))
  | .vins _ wd d s1 lane => some (fmtA 0x31 d s1 lane (wd * 256 + 0x10))
  | .vsum _ wd d s1 => some (fmtA 0x31 d s1 0 (wd * 256 + 0x11))
  | .vdiv _ wd d s1 s2 => some (fmtA 0x31 d s1 s2 (wd * 256 + 0x12))
  | .vsqrt _ wd d s1 => some (fmtA 0x31 d s1 0 (wd * 256 + 0x13))
  | .fpush _ d s1 f => some (fmtA 0x34 d s1 0 (f * 16 + 0))
  | .fpushe _ d s1 f => some (fmtA 0x34 d s1 0 (f * 16 + 1))
  | .fpushw _ d s1 f => some (fmtA 0x34 d s1 0 (f * 16 + 2))
  | .fpushwe _ d s1 f => some (fmtA 0x34 d s1 0 (f * 16 + 3))
  | .fpop _ d s1 f => some (fmtA 0x34 d s1 0 (f * 16 + 4))
  | .fpopw _ d s1 f => some (fmtA 0x34 d s1 0 (f * 16 + 5))
  | .fpeek _ d s1 f => some (fmtA 0x34 d s1 0 (f * 16 + 6))
  | .flen _ d f => some (fmtA 0x34 d 0 0 (f * 16 + 7))
  | .fsend _ d s1 s2 f => some (fmtA 0x34 d s1 s2 (f * 16 + 8))
  | .frecv _ d s1 s2 f => some (fmtA 0x34 d s1 s2 (f * 16 + 9))
  | .erd _ tbl d s1 => some (fmtA 0x35 d s1 0 (tbl * 256))
  | .mdone _ s1 => some (fmtA 0x36 0 s1 0 0)
  | .mfail _ s1 => some (fmtA 0x36 0 s1 0 1)
  | .mpost _ d s1 s2 => some (fmtA 0x36 d s1 s2 2)
  | .mcancel _ d s1 => some (fmtA 0x36 d s1 0 3)
  | .myield _ => some (fmtA 0x36 0 0 0 4)
  | .marg _ d => some (fmtA 0x36 d 0 0 5)
  | .mid _ d => some (fmtA 0x36 d 0 0 6)
  | .tsite _ d => some (fmtA 0x37 d 0 0 0)
  | .tcyc _ d s1 => some (fmtA 0x37 d s1 0 1)
  | .tct _ d => some (fmtA 0x37 d 0 0 2)
  | .tport _ d port => some (fmtA 0x37 d 0 port 3)
  | .twait _ d s1 => some (fmtA 0x37 d s1 0 4)
  | .sysc _ s1 => some (fmtA 0x3C 0 s1 0 0)
  | .brk _ => some (fmtA 0x3C 0 0 0 1)
  | .eret _ => some (fmtA 0x3C 0 0 0 2)
  | .crr _ d num => some (fmtI 0x3D d 0 num)
  | .crw _ d s1 num => some (fmtI 0x3E d s1 num)
  | _ => none

end Sys2Proof
end

