-- ==== Sys2Proof/Machine/State.lean ====
section
/-!
DEFINITION. Sys2Proof/Machine/State.lean: every piece of state the spec gives the module, as plain data, block by block,
and the machine right after reset. A control register's fields stand in the regs table of its block, each under its own
key and listed only once it has been written; an unlisted field reads as the reset value its field map gives (Machine/RegMap.lean).
Tables the spec sizes in the thousands (claims, channels, items, partners) are sparse tables (Tbl) whose unlisted entry is
named beside the structure.
-/
namespace Sys2Proof.Machine

/-- Access codes of a field (Table SCP-5, R14). -/
inductive Acc where
  | rw | ro | wo | w1c | w1s
  deriving DecidableEq, Repr

/-- Write classes of a field (Table SCP-6, R15); none for a read-only field. -/
inductive Cls where
  | live | shadowed | held | none
  deriving DecidableEq, Repr

/-- One field of one control register: its block (Table IDX-2), its key in that block's table (32 times the register's
offset plus the field's lowest bit), its width and its reset value. -/
structure Fld where
  blk : Nat
  key : Nat
  width : Nat
  rst : Nat
  deriving DecidableEq, Repr

/-- One row of a field map: lowest bit, width, access, class and reset value. -/
structure FDef where
  lo : Nat
  width : Nat
  acc : Acc
  cls : Cls
  rst : Nat
  deriving DecidableEq, Repr

/-- A run of registers: first offset, the strides and counts of its indexes, and its field map. -/
structure Reg where
  off : Nat
  dims : List (Nat × Nat)
  fields : List FDef
  deriving DecidableEq, Repr

/-- Who performs a register access. -/
inductive Who where
  | core (n : Nat) | steward | host | hardware
  deriving DecidableEq, Repr

/-! ### Faults and refusals -/

/-- Reasons the model stops. No meaning of this model raises one: every command the spec gives an effect runs. -/
inductive Fault where
  /-- Conditions outside the ratings of 20_module_connectors_environment.md (R611), for which the spec gives no behaviour. Raised by no
  command of the table; safe: it only says less. -/
  | outsideRatings
  deriving DecidableEq, Repr

/-- Reasons the model declines a command. -/
inductive Refusal where
  /-- The command has no meaning in this model yet. Raised by an arm of exec that is still rejected by name; safe: nothing runs. -/
  | notModelled (mnemonic : String)
  deriving DecidableEq, Repr

/-! ### Time -/

/-- The clocks of PTC (11_ethernet_and_time.md, "The clocks", R379 to R381): the free-running counter, and for the site and the port
clock an accumulator, an offset and an increment, in units of 2^-32 ns. -/
structure Clk where
  frc : Nat := 0
  siteSet : Bool := false
  siteAcc : Nat := 0
  siteOfs : Nat := 0
  incSite : Nat := 0x200000000
  portAcc : Nat := 0
  portOfs : Int := 0
  incPort : Nat := 0x200000000
  deriving DecidableEq, Repr

/-! ### Cyent cores (08_cyent_instruction_set.md) -/

/-- State of a core (CCX_CORE_STATUS_n.STATE). -/
inductive CoreSt where
  | off | idle | op | run | halted
  deriving DecidableEq, Repr

/-- The waiting flume instructions and TWAIT (R267, R277), as a core holds them while it waits. -/
inductive WaitKind where
  | push (tagEnd : Bool) | pop | send | recv | twait
  deriving DecidableEq, Repr

/-- An instruction that waits: its kind, register numbers, flume and the FRC at which the wait began (R267). -/
structure Waiting where
  kind : WaitKind
  d : Nat
  s1 : Nat
  s2 : Nat
  flume : Nat
  since : Nat
  deriving DecidableEq, Repr

/-- One core: F0 to F15, or the steward as number 16 (Tables ISA-1, ISA-14; R261, R263). An unlisted general or vector
register holds zero. -/
structure Core where
  st : CoreSt := .off
  pc : W32 := 0
  g : Tbl Word := []
  v : Tbl Vec := []
  epc : Word := 0
  ecause : Word := 0
  eaddr : Word := 0
  estat : Word := 0
  scratch0 : Word := 0
  scratch1 : Word := 0
  fpctl : Word := 0
  ccount : Word := 0
  icount : Word := 0
  /-- FRC up to which CCOUNT has been brought, and the core clock in MHz taken at the last dispatch (R603). -/
  ccFrom : Nat := 0
  mhz : Nat := 1200
  /-- Serial of the item in service (Millrace), and the site time of its dispatch (ns) for the budget of R281. -/
  item : Option Nat := none
  since : Nat := 0
  wait : Option Waiting := none
  /-- BRK has halted the core into debug (R284). -/
  debug : Bool := false
  deriving DecidableEq, Repr

/-- CCX: its registers and the cores (unlisted core: OFF, all registers zero). -/
structure Ccx where
  regs : Tbl Nat := []
  cores : Tbl Core := []
  deriving DecidableEq, Repr

/-! ### Memory and flumes (10_memory_and_flumes.md) -/

/-- What the error-correcting codes hold of one 64-bit word besides its data (Table MEM-2, R324, R325): one bit in error,
flagged uncorrectable by the inner code, or poisoned. -/
inductive WordErr where
  | single | flagged | poisoned
  deriving DecidableEq, Repr

/-- MEM: registers, the marks of words in error (keyed by the word's address; an unlisted word is sound), lines whose outer
syndromes are not zero with no word flagged, the next line of each store's scrubber, and the words rebuilt in the present and the previous pass (R329). -/
structure MemSt where
  regs : Tbl Nat := []
  marks : Tbl WordErr := []
  badLines : List Nat := []
  pos : Tbl Nat := []
  rebuilt : List Nat := []
  rebuiltPrev : List Nat := []
  deriving DecidableEq, Repr

/-- One flume (R336 to R349): ring position of its head word, tags of the words held oldest first (bit 0 END, bit 1 SPILL),
the words of the newest record not yet seen by readers, words accepted so far of the record in progress, and its marks of state. -/
structure Flume where
  head : Nat := 0
  tags : List Nat := []
  unseen : Nat := 0
  recWords : Nat := 0
  dropping : Bool := false
  flushing : Bool := false
  heldByPin : Bool := false
  high : Bool := false
  told : Bool := false
  deriving DecidableEq, Repr

/-- FLM: registers and flumes (unlisted flume: empty). The words themselves lie in main SRAM at FLM_BASE_n (R333). -/
structure Flm where
  regs : Tbl Nat := []
  flumes : Tbl Flume := []
  /-- Level of the FLOW pins 0 to 3 as driven from outside, and as driven out (Table MEM-7, R346, R347). -/
  pinIn : Tbl Bool := []
  pinOut : Tbl Bool := []
  deriving DecidableEq, Repr

/-! ### Millrace (09_millrace_scheduler.md) -/

inductive ItemSt where
  | waiting | ready | service
  deriving DecidableEq, Repr

/-- An inbox (R303, R304): its number, ring position of the next word, and the tags of the words left. -/
structure Inbox where
  slot : Nat
  pos : Nat
  tags : List Nat
  deriving DecidableEq, Repr

/-- What posted an item: its route, for the coalescing of R312 and R313. -/
inductive ItemSrc where
  | mpost | trigger | chain | event (e : Nat) | timer (t : Nat)
  deriving DecidableEq, Repr

/-- One item in flight (R290, R291, Table MRC-2): its number, operation, flow, argument, source, state, inbox, the core it was
dispatched to (none: never), the FRC at which it became READY, and whether WAIT_LONG has been raised for it. -/
structure Item where
  num : Nat
  op : Nat
  flow : Nat
  arg : Word
  src : ItemSrc
  st : ItemSt
  inbox : Option Inbox
  core : Option Nat
  readyAt : Nat
  held : Bool
  waitLong : Bool
  deriving DecidableEq, Repr

/-- One flow (R292, R296): the serial of the item that holds it, and where and when its last item ended. -/
structure Flow where
  holder : Option Nat := none
  lastCore : Option Nat := none
  lastEnd : Nat := 0
  deriving DecidableEq, Repr

/-- MRC: registers, the items in flight keyed by the serial under which they were posted (so in posting order), the READY
order of each level as serials, the flows (unlisted: free, no item has ended), and the next serial. -/
structure Mrc where
  regs : Tbl Nat := []
  items : Tbl Item := []
  ready : Tbl (List Nat) := []
  flows : Tbl Flow := []
  nextSeq : Nat := 0
  /-- Trigger flumes that wait for want of an inbox (INBOX_FULL already raised). -/
  inboxFull : List Nat := []
  /-- Item numbers under which an item has completed (MCANCEL tells them from numbers no item has ever had, R275). -/
  done : List Nat := []
  deriving DecidableEq, Repr

/-! ### Events, errors and the ledger (18_events_errors_ledger.md) -/

/-- A ledger record (Table EVT-4) without its CRC, which is computed where the record is written out, and the FRC at which it was staged. -/
structure LRec where
  seq : Nat
  site : Nat
  cls : Nat
  kind : Nat
  source : Nat
  error : Nat
  rep : Nat
  last : Nat
  cycle : Nat
  data : List Byte
  stagedAt : Nat
  deriving DecidableEq, Repr

/-- A coalescing tally of lost records (R573 to R576). -/
structure Tally where
  source : Nat
  cls : Nat
  count : Nat
  first : Nat
  last : Nat
  deriving DecidableEq, Repr

/-- An event's occurrences held in Watch (R587): their count and the site time of the first. -/
structure HeldEvt where
  count : Nat := 0
  first : Nat := 0
  deriving DecidableEq, Repr

/-- EVT: registers (pending bits, counts, routes and error records among them), the staging ring in SEQ order, the SEQ of staged records
already written to the alarm ring and to the general ring, the log tallies oldest first, the trace tally, the next SEQ, the events held in Watch, the FRC
of the last watchdog kick, the loss state behind LEDGER_PRESSURE, and the latch of EVT_SEQ_HI. -/
structure Evt where
  regs : Tbl Nat := []
  staged : List LRec := []
  alarmDone : List Nat := []
  genDone : List Nat := []
  tallies : List Tally := []
  traceTally : Option Tally := none
  seq : Nat := 0
  heldEvts : Tbl HeldEvt := []
  kickAt : Nat := 0
  lossy : Bool := false
  seqHi : Nat := 0
  /-- FRC of the double fault, for R568. -/
  dfAt : Nat := 0
  /-- FRC at which the archive writer last wrote a general page (PAGE_MS of R578). -/
  pageAt : Nat := 0
  deriving DecidableEq, Repr

/-- What a block reports in the course of one command, until EVT takes it at the command's end (R559, R562): an event, with or
without the alarm a rule calls for, an error that no completion record carries, or a record the steward writes (kinds 4, 5, 7 of Table EVT-5). -/
inductive Note where
  | event (e : Nat) (alarm : Bool)
  | error (blk code detail : Nat) (alarm : Bool)
  | record (cls kind source error : Nat) (data : List Byte)
  deriving DecidableEq, Repr

/-! ### Power (19_power_states_and_startup.md) -/

/-- What the reset record carries of the run before (Table EVT-5): the reset's kind, MRC_STATUS.ITEMS, uptime (s), whether a presence window was open, whether the run ended orderly. -/
structure Left where
  kind : Nat := 0
  items : Nat := 0
  uptime : Nat := 0
  window : Bool := false
  orderly : Bool := false
  deriving DecidableEq, Repr

/-- PWR: registers, and what the state machine of Table PWR-3 keeps: whether the module is Off, the saved CCX_CTRL.EN of R585, whether entry to Watch is in progress, the site time of Watch entry, a wake accepted
during that entry, whether the RUN pending came from PWR_CMD, whether Watch follows a THERMAL reset, whether Ready waits for a burst's end (and whether a READY command asked for it), the governor rows held (R603), what the last reset left for its record, and
whether the ROM has found no bootable firmware (R594). -/
structure Pwr where
  regs : Tbl Nat := []
  off : Bool := false
  savedEn : Nat := 0
  entering : Bool := false
  watchAt : Nat := 0
  pendingWake : Option Nat := none
  runCmd : Bool := false
  thermalWatch : Bool := false
  stopping : Bool := false
  govRows : List Nat := []
  left : Left := {}
  romFail : Bool := false
  deriving DecidableEq, Repr

/-- A ledger stream of a session (R418, R419): CLASSES, the next sequence to send, the FRC of the newest STREAM message, and the messages not yet acknowledged (their SEQ and datagram). -/
structure Stream where
  classes : Nat
  next : Nat
  at_ : Nat := 0
  open_ : List (Nat × List Byte) := []
  deriving DecidableEq, Repr

/-- A host session (R400 to R409): the key slot it was opened under, its key, the host's address, TOP and window of its request numbers, the last eight responses as sent (SEQ and datagram), the
requests in service (SEQ and CODE), the FRC of the last valid request, its stream and the SEQ of its newest STREAM message, whether it takes digests and the SEQ of the newest. -/
structure Session where
  slot : Nat
  key : List Byte
  peer : Nat
  top : Nat := 0
  win : Nat := 0
  kept : List (Nat × List Byte) := []
  busy : List (Nat × Nat) := []
  last : Nat := 0
  stream : Option Stream := none
  streamSeq : Nat := 0
  digest : Bool := false
  digestSeq : Nat := 0
  deriving DecidableEq, Repr

/-- STW: its registers (identity, boot report, uptime); the open host sessions by identifier; and the counters of the status digest (12_service_protocol.md). -/
structure Stw where
  regs : Tbl Nat := []
  sessions : Tbl Session := []
  malformed : Nat := 0
  badTag : Nat := 0
  dupStale : Nat := 0
  queueFull : Nat := 0
  streamDefer : Nat := 0
  alarms : Nat := 0
  sentAt : List (Nat × Nat) := []
  deriving DecidableEq, Repr

/-- Site data in force (17_updates_and_editions.md): the site epoch (R27); the surveyed position (R49); the two saved copies of the multipath map with
their SEQ, as offset and byte of every byte not zero (R56); the number of caster mountpoints; EN of the service record (R396); the admission list, as EUI-64 and pinned index; the partner list; and the engine tables, as the bytes they put into memory (R595). -/
structure Site where
  epoch : Nat := 0
  surveyed : Option (Int × Int × Int) := none
  mapA : Option (Nat × List Host.Cell) := none
  mapB : Option (Nat × List Host.Cell) := none
  mounts : Nat := 0
  service : Bool := false
  admitted : List (List Byte × Option Nat) := []
  partners : List (List Byte) := []
  tables : List Host.Cell := []
  deriving DecidableEq, Repr

/-- What the module has put on a medium in the course of the last command: each kind says which. -/
inductive Emit where
  /-- HTTP answer of the caster to a client. -/
  | http (client code : Nat)
  /-- RTCM bytes to the caster's clients and serial outputs. -/
  | rtcm (l : List Byte)
  /-- A wake pattern to an address (R199). -/
  | wake (addr : Nat)
  /-- A frame on air: carrier, channel, site time of its first symbol, and its bytes from preamble to MIC, whitened (R178). -/
  | radio (carrier channel at_ : Nat) (bytes : List Byte)
  /-- An Ethernet frame leaves port n from a site time (ns) on; a PTP message leaves port n in the transport of PTC_CTRL; a CAN frame leaves port n (identifier, extended, data); characters leave RS-485 port n. -/
  | eth (port at_ : Nat) (bytes : List Byte)
  | ptp (port : Nat) (bytes : List Byte)
  | can (port ident : Nat) (ext : Bool) (bytes : List Byte)
  | ser (port : Nat) (bytes : List Byte)
  /-- PPSOUT rises at a whole second of site time (ns) and stays high for 100 ms (R613). -/
  | pps (at_ : Nat)
  /-- A service datagram to a host address (R396). -/
  | host (peer : Nat) (bytes : List Byte)
  /-- The answer to an mDNS query (R398, Table GSP-1): the last 24 bits of the EUI-64, SITE_ID, firmware version, PROG_VERSION of the running program, role, power state. -/
  | mdns (eui site fw : Nat) (prog : Option Nat) (role state : Nat)
  /-- Link frames of a pair (Table TWN-1): LEASE with TERM, site time, last mirror SEQ, stop lane state and sources; STANDBY with TERM, TWN_HEALTH, last mirror SEQ held and stop input state; a MIRROR record with its
  SEQ; YIELD with TERM and the hop; a request for RESYNC; RESYNC with the SEQ the journal goes on from; IO with the plans of channels 256 to 263 and DIO_OUT, and with the I/O module's registers (block, key, value). -/
  | lease (term site seq state active : Nat)
  | standby (term health seq : Nat) (stop : Bool)
  | mirror (seq : Nat) (r : MirRec)
  | yield (term cycle hop : Nat)
  | askResync
  | resync (seq : Nat) (l : List MirRec)
  | ioPlan (l : List (Nat × Chan)) (out : Nat)
  | ioInputs (l : List (Nat × Nat × Nat))
  /-- Frames of the cascade link to a member, or (none) to the headwater; a heartbeat to every member with site time and cycle; a stop notice to every member (an epoch, ACTIVE sources); the claims a tributary freed
  and the requests it completed while ISOLATED (owner, tag), to the headwater; and the end of a reconciliation, to a member. -/
  | cas (target : Option Nat) (f : CasFrame)
  | heartbeat (site cycle : Nat)
  | stopNotice (epoch : Bool) (active : Nat)
  | reconcile (freed : List Nat) (orphans : List (Nat × Nat))
  | reconciled (member : Nat)
  deriving DecidableEq, Repr

/-- What flash keeps across every reset besides site data (17_updates_and_editions.md): the counters record's site time (R550). -/
structure Nv where
  time : Nat := 0
  /-- SERIAL of the last epoch (STP_SERIAL), TERM and the partner's EUI-64 of the pair (R492), kept in site data. -/
  serial : Nat := 0
  term : Nat := 0
  pair : Option (List Byte) := none
  /-- The pages of the two archive rings, oldest first (R578), and whether the last run ended in an orderly reset (R579). -/
  alarmRing : List (List LRec) := []
  genRing : List (List LRec) := []
  orderly : Bool := false
  /-- The confirmed generation of site data, while a trial runs on another (R548). -/
  oldSite : Option Site := none
  deriving DecidableEq, Repr

/-- REF (02_reference_station.md): registers; the adopted ARP of A1 (ECEF, 1/16 mm) and one waiting for the next cycle start (R51); the
command waiting for the next cycle start; satellites tracked per antenna and cycles without one on the reference; low-bias samples
per antenna; monitor counts; the survey's start; the last single-point solution; and the time discipline of Table REF-8. Lists of caster clients carry
identity and unsent backlog (bytes). -/
structure Ref where
  regs : Tbl Nat := []
  pos : Option (Int × Int × Int) := none
  nextPos : Option (Int × Int × Int) := none
  pendingCmd : Nat := 0
  sats1 : Nat := 0
  sats2 : Nat := 0
  noSat : Nat := 0
  low1 : Nat := 0
  low2 : Nat := 0
  monFail : Nat := 0
  monPass : Nat := 0
  surveyFrom : Nat := 0
  recordCycle : Option Nat := none
  lastSol : Option Nat := none
  acceptRem : Int := 0
  refusing : Bool := false
  holdFrom : Option Nat := none
  returned : Bool := false
  agreeFrom : Option Nat := none
  slewMark : Int := 0
  clients : List (Nat × Nat) := []
  deriving DecidableEq, Repr

/-- The filter of a machine (R76 to R85): fix state (Table SOL-11), DR age, the cycle of the last accepted marker, epochs in which the present integer candidate passed, whether a set is
accepted, consecutive fault-exclusion failures, the ambiguities kept (system, satellite, signal, ARC, epochs absent), the latched machine entry, a pending SOL_MACH_CMD, and a
reset of the ambiguities not yet shown in a record. -/
structure Filt where
  st : Nat := 0
  drAge : Nat := 0
  marked : Option Nat := none
  conf : Nat := 0
  fixed : Bool := false
  fails : Nat := 0
  arcs : List (Nat × Nat × Nat × Nat × Nat) := []
  entry : List Byte := []
  cmd : Nat := 0
  ambDue : Bool := false
  deriving DecidableEq, Repr

/-- The newest reference record SOL has taken (Tables REF-4, REF-5): cycle, MISSING, HOLDOVER, ANT, POS_SERIAL, and the signals tracked (system, satellite, SIG code, SHADOW). -/
structure RefRec where
  cycle : Nat
  missing : Bool
  holdover : Bool
  ant : Nat
  serial : Nat
  sigs : List (Nat × Nat × Nat × Bool)
  deriving DecidableEq, Repr

/-- An observation payload waiting for its slot's end: fleet index, cycle, slot, whether it came in the regular slot, whether it may update the filter (R632), and its 168 bytes. -/
structure ObsIn where
  fleet : Nat
  cycle : Nat
  slot : Nat
  regular : Bool
  update : Bool
  payload : List Byte
  deriving DecidableEq, Repr

/-- SOL: registers; the filters (unlisted: NONE, cleared); the newest reference record; the cycle for which a record was taken as MISSING; payloads waiting; machines whose solution
is unfinished, with their payload; machines solved, in FIXED and in MARKED in the present cycle; and the work of the last second (FRC, solves, re-solves). -/
structure Sol where
  regs : Tbl Nat := []
  filt : Tbl Filt := []
  ref : Option RefRec := none
  missed : Option Nat := none
  obs : List ObsIn := []
  open_ : List ObsIn := []
  tally : Nat × Nat × Nat := (0, 0, 0)
  work : List (Nat × Nat × Nat) := []
  /-- The newest solution record of each fleet index (unlisted: none yet, all zeros). -/
  newest : Tbl (List Byte) := []
  deriving DecidableEq, Repr

/-- A SHORTEN or RELEASE whose result waits until the claims it left CUT_HELD are FREE (R117). -/
structure CutWait where
  op : Nat
  owner : Nat
  tag : Nat
  ns : Nat
  claims : List Nat
  deriving DecidableEq, Repr

/-- PRO's last progress report of an owner (R127): the claim its control point is in, the station on its reach (1/16 mm), and the HPL (mm; 0xFFFF unavailable). -/
structure Progress where
  claim : Nat
  station : Int
  hpl : Nat
  deriving DecidableEq, Repr

/-- CLM (04_reaches_and_claims.md): registers; the claim table (unlisted index: FREE); each owner's path as claim indexes in path order; the requests
that wait; the latched machine entries (FRONT and REAR in mm), PRO's progress reports and the newest ECHO_CYCLE by owner; and the requests a tributary has forwarded and awaits (owner, tag, op). The reach,
ford and machine tables are bytes of the CLM store. -/
structure Clm where
  regs : Tbl Nat := []
  claims : Tbl Claim := []
  paths : Tbl (List Nat) := []
  waits : List CutWait := []
  mach : Tbl (Nat × Nat) := []
  prog : Tbl Progress := []
  echo : Tbl Nat := []
  forwarded : List (Nat × Nat × Nat) := []
  deriving DecidableEq, Repr

/-- PRO: registers and the open channels (unlisted: closed). -/
structure Pro where
  regs : Tbl Nat := []
  chans : Tbl Chan := []
  deriving DecidableEq, Repr

/-- What an item waiting for room carries (Table AIR-6): the item's bytes after its header where they never change; an RDV, KEY or CALL is built for the cycle of its frame. -/
inductive ItemKind where
  | grant (body : List Byte) (notice : Option (List Byte))
  | ack (body : List Byte)
  | rdv (fcnt : Nat)
  | call
  | key
  | order (num : Nat)
  | corr (body : List Byte)
  deriving DecidableEq, Repr

/-- An item and its target (bit 15: partner; 0xFFFF: broadcast). -/
structure DItem where
  target : Nat
  kind : ItemKind
  deriving DecidableEq, Repr

/-- A frozen downlink frame: cycle, carrier, hop, channel, header and body, its MIC, the items it carries, and once on air the site time (ns) of its end. -/
structure DFrame where
  cycle : Nat
  carrier : Nat
  hop : Nat
  channel : Nat
  bytes : List Byte
  mic : List Byte
  items : List DItem
  onAir : Option Nat := none
  deriving DecidableEq, Repr

/-- AIR (06_fleet_radio.md): registers; the fleet indexes (unlisted: FREE); incomplete orders in arrival order; items that wait, as they arose; frozen frames; occupancy charges (channel, start and
end in site ns, whether of the stop lane); whether the first calibration is complete, the lane whose step comes next, the end of the burst on air, whether a rule withholds BROADCAST frames; the cycle of the
first KEY item of the newest key, whether frames are protected with it; and the RTCM message sequence. -/
structure Air where
  regs : Tbl Nat := []
  idx : Tbl Idx := []
  orders : List Order := []
  items : List DItem := []
  frames : List DFrame := []
  charges : List (Nat × Nat × Nat × Bool) := []
  calDone : Bool := false
  calLane : Nat := 0
  burstEnd : Option Nat := none
  withheld : Bool := false
  keyFrom : Option Nat := none
  keyUse : Bool := false
  corrSeq : Nat := 0
  deriving DecidableEq, Repr

/-- WKR: registers; the partners (unlisted: FREE); the partners whose wake pattern waits for a cycle of its own (R199), those whose CALL follows in the next cycle, and the cycle in which the last
pattern went out. -/
structure Wkr where
  regs : Tbl Nat := []
  ptr : Tbl Ptr := []
  queue : List Nat := []
  callNext : List Nat := []
  sent : Option Nat := none
  deriving DecidableEq, Repr

/-- A stop burst on air (R222, R227): the site time (ns) of its first frame, and for each carrier the frames still to send and the pitch position of the next. -/
structure Burst where
  start : Nat
  left : Tbl (Nat × Nat)
  deriving DecidableEq, Repr

/-- STP (07_fleet_stop.md): registers (lane state, filtered channels, sources and the last epoch among them); whether source PROGRAM and source HOST are set; the FRC at which the filtered channels began to differ; the burst
on air, and the repeats still to come. -/
structure Stp where
  regs : Tbl Nat := []
  program : Bool := false
  host : Bool := false
  differ : Option Nat := none
  burst : Option Burst := none
  repeats : Nat := 0
  deriving DecidableEq, Repr

/-- A receive ring (R373, R375): the cells of its consumed descriptors, oldest first. -/
structure Ring where
  cells : List Nat := []
  deriving DecidableEq, Repr

/-- A frame on the wire of a port: its queue, the ring indexes of its descriptors, TAG, the error found while reading it (cause, 0 none), the STAMP_SEQ it was given, whether its stamp was lost. -/
structure OnWire where
  queue : Nat
  descs : List Nat
  tag : Nat
  err : Nat
  stamp : Option Nat
  lost : Bool
  deriving DecidableEq, Repr

/-- Timing of a gate control list: BASE, CYCLE, LEN and its time base (port time or site time). -/
structure Gate where
  base : Nat
  cycle : Nat
  len : Nat
  port : Bool
  deriving DecidableEq, Repr

/-- A stamp queue entry: queue, STAMP_SEQ, TAG, port time and site time (ns). -/
structure Stamp where
  queue : Nat
  seq : Nat
  tag : Nat
  port : Nat
  site : Nat
  deriving DecidableEq, Repr

/-- One port: the frame on its wire, its stamp queue oldest first and the next STAMP_SEQ, the gate list in operation, an armed one with the instant of its change, queues kicked, and queues whose head frame
has been counted as gate-held. -/
structure Port where
  wire : Option OnWire := none
  stamps : List Stamp := []
  seq : Nat := 0
  gate : Option Gate := none
  armed : Option (Gate × Nat) := none
  kicked : List Nat := []
  heldQ : List Nat := []
  deriving DecidableEq, Repr

/-- ETH0 to ETH3 (11_ethernet_and_time.md): registers; the ports; the rings, ring r of port p under 4p + r; and the pool cells taken. -/
structure Eth where
  regs : Tbl Nat := []
  ports : Tbl Port := []
  rings : Tbl Ring := []
  used : List Nat := []
  deriving DecidableEq, Repr

/-- The newest Announce of a port's best foreign master: the grandmaster's dataset in the order of the IEEE 1588 comparison (priority1, class, accuracy, variance, priority2, identity), stepsRemoved, the sender's port identity, and the FRC. -/
structure Foreign where
  ds : List Nat
  steps : Nat
  sender : Nat
  at_ : Nat
  deriving DecidableEq, Repr

/-- What PTC keeps of a port: the best foreign master, the FRC of the last Sync, a two-step Sync waiting for its Follow_Up (sequence, receive time, correction), its last delay request (sequence, transmit time), the Sync of that exchange (transmit and
receive time, corrected), a peer delay response waiting for its Follow_Up (sequence, request receipt time, receive time), and the sequence numbers it sends next. Times are port time in ns. -/
structure PtpPort where
  foreign : Option Foreign := none
  sync : Nat := 0
  twoStep : Option (Nat × Int × Int) := none
  req : Option (Nat × Int) := none
  last : Option (Int × Int) := none
  pResp : Option (Nat × Int × Int) := none
  seqs : Nat := 0
  deriving DecidableEq, Repr

/-- PTC (11_ethernet_and_time.md): registers; the ports; whether a time source has just been refused (R598); the latches of PTC_DIFF_HI, PTC_FRC_HI and PTC_PPSIN_HI. -/
structure Ptc where
  regs : Tbl Nat := []
  ports : Tbl PtpPort := []
  refused : Bool := false
  diffHi : Nat := 0
  frcHi : Nat := 0
  ppsHi : Nat := 0
  deriving DecidableEq, Repr

/-- One CAN port beside its registers: the express mailbox's frames, oldest first (identifier, IDE, data, R432); the candidate rate of AUTO and the good frames in a row at it; whether bus-off recovery runs. -/
structure CanPort where
  express : List (Nat × Bool × List Byte) := []
  cand : Nat := 0
  good : Nat := 0
  recovering : Bool := false
  deriving DecidableEq, Repr

/-- CAN0 and CAN1 (13_can_and_rs485.md): registers (mailboxes and filters among them) and the ports. -/
structure Can where
  regs : Tbl Nat := []
  ports : Tbl CanPort := []
  deriving DecidableEq, Repr

/-- SER0 and SER1 (13_can_and_rs485.md): registers, and the data of the transmit record each port waits to send. -/
structure Ser where
  regs : Tbl Nat := []
  wait : Tbl (List Byte) := []
  deriving DecidableEq, Repr

/-- A homing (R460): stage 0 comes to rest first, 1 searches, 2 moves back; whether it is on the homing ramp; whether it ends at rest without success; the station (distance units) at which the stage
began, and the AXS_POS captured in the second stage (R461). -/
structure Homing where
  stage : Nat
  ramp : Bool := false
  failed : Bool := false
  from_ : Int := 0
  cap : Int := 0
  deriving DecidableEq, Repr

/-- A limit or home input: raw state (closed), the FRC of its last change, AXS_POS at that change (R461), and the FRC of the raw transitions still inside the chatter window. -/
structure Inp where
  closed : Bool
  since : Nat
  pos : Int := 0
  trans : List Nat := []
  deriving DecidableEq, Repr

/-- The step generator of an axis (R446, R448): level of DIR, and the 100 ns units since the last pulse and since DIR last changed (held at 1,000); and its homing. -/
structure Axis where
  dirLow : Bool := true
  sincePulse : Nat := 1000
  sinceDir : Nat := 1000
  home : Option Homing := none
  deriving DecidableEq, Repr

/-- AXS (14_local_axes_and_io.md): registers (qualified inputs, positions and states among them); the axes; and the inputs as sampled, limit l of axis n under 2n + l and HOMEn under 16 + n (unlisted: not sampled yet). -/
structure Axs where
  regs : Tbl Nat := []
  axes : Tbl Axis := []
  inp : Tbl Inp := []
  deriving DecidableEq, Repr

/-- DIO (14_local_axes_and_io.md): registers, and for each PULSE-mode output whose pulse runs the FRC at which it ends. -/
structure Dio where
  regs : Tbl Nat := []
  pulse : Tbl Nat := []
  deriving DecidableEq, Repr

/-- TWN (15_twin_and_cascade.md): registers; link frames sent; the FRC of the last valid LEASE and of the last valid link frame; the FRC at which the role STARTING was entered; whether the partner is STARTING; the
partner's stop input; on the active, that the partner counts as STALE (R480) and the mirror position it reported; the hop a YIELD names (cycle, hop); on the standby, whether the mirror is continuous; the FRC of the last IO frame and whether its loss holds the axes; the old active's last mirrored MRC_STATUS.ITEMS; the stop input as the active reports it; the cycle of the last self-test and the runs of cycles behind SOL_AGREE and REC_AGREE; and whether a new active has yet to reach its first transmit instant (R485). -/
structure Twn where
  regs : Tbl Nat := []
  sent : Nat := 0
  leaseAt : Option Nat := none
  linkAt : Option Nat := none
  startAt : Nat := 0
  partnerStart : Bool := false
  partnerStop : Bool := false
  partnerStale : Bool := false
  partnerSeq : Nat := 0
  yieldAt : Option (Nat × Nat) := none
  whole : Bool := false
  ioAt : Option Nat := none
  ioHeld : Bool := false
  items : Nat := 0
  leaseStop : Bool := false
  evalCyc : Option Nat := none
  solCyc : Nat := 0
  recCyc : Nat := 0
  burstDue : Bool := false
  deriving DecidableEq, Repr

/-- A member at the headwater: EUI-64, overlap group, u, and since when it has been unreachable (FRC). -/
structure CasMember where
  eui : List Byte
  group : Nat
  u : Nat
  lostAt : Option Nat := none
  deriving DecidableEq, Repr

/-- CAS (15_twin_and_cascade.md): registers; the members at the headwater; the headwater's EUI-64 values; the FRC of the last heartbeat, of the JOIN sent, and since when the offset has been within ALIGN_LIM;
the ACTIVE sources each other member has reported; the requests completed under R501 (owner, tag); the own claims that the replica freed while ISOLATED. -/
structure Cas where
  regs : Tbl Nat := []
  members : Tbl CasMember := []
  heads : List (List Byte) := []
  beatAt : Option Nat := none
  joinAt : Option Nat := none
  alignedFrom : Option Nat := none
  sources : Tbl Nat := []
  orphans : List (Nat × Nat) := []
  freed : List Nat := []
  deriving DecidableEq, Repr

/-- A slot record (Table KEY-2): kind 1 quire, 2 folio; state 1 CURRENT, 2 ORPHANED; origin 1 DERIVED, 2 IMPORTED, 3 GENERATED; cur is the wrapped key. -/
structure KSlot where
  kind : Nat
  usage : Nat
  parent : Nat := 0
  st : Nat := 1
  len : Nat := 32
  gen : Nat := 0
  origin : Nat := 0
  nonce : List Byte := []
  cur : List Byte := []
  kcv : List Byte := []
  deriving DecidableEq, Repr

/-- A slot record as one flash copy holds it: the key in force, if any, and the pending change with its transaction number and the KCV supplied. -/
structure KRec where
  now : Option KSlot := none
  pend : Option KSlot := none
  pendKcv : List Byte := []
  txn : Nat := 0
  deriving DecidableEq, Repr

/-- A swap record (Table KEY-3): op 1 INSTALL, 2 DESTROY. -/
structure Swap where
  seq : Nat
  slot : Nat
  op : Nat
  txn : Nat
  gen : Nat
  kcv : List Byte
  deriving DecidableEq, Repr

/-- KEY (16_keys_and_presence.md): registers; the two copies of the slot records (unlisted: empty) and of the swap journal (newest first, 256 records), all in flash; the
next transaction number; the slots made while the test root is active; the current and the previous broadcast key (identifier and key) and the site time of the last rotation; the FRC at which
the open presence window ends, and its end in site time. -/
structure Key where
  regs : Tbl Nat := []
  recA : Tbl KRec := []
  recB : Tbl KRec := []
  jrnA : List Swap := []
  jrnB : List Swap := []
  txn : Nat := 0
  dbg : Tbl KSlot := []
  bkey : Option (Nat × List Byte) := none
  bprev : Option (Nat × List Byte) := none
  rotated : Nat := 0
  window : Option (Nat × Nat) := none
  deriving DecidableEq, Repr

/-- The download UPD holds (R532 to R537): its identity, the header of IMAGE_BEGIN, the lead gathering once it is accepted, the gatherings whose bits are set, and those handed over since
the last download record. -/
structure Dl where
  kind : Nat
  slot : Nat
  size : Nat
  lead : List Byte
  header : List Byte
  manifest : List Byte := []
  have_ : List Nat := []
  recent : List Nat := []
  deriving DecidableEq, Repr

/-- An image slot: STATE and CAUSE as UPD_SLOT_k has them, the image header, and the plain content of each gathering handed to flash. -/
structure ImgSlot where
  st : Nat := 0
  cause : Nat := 0
  header : List Byte := []
  manifest : List Byte := []
  body : Tbl (List Byte) := []
  deriving DecidableEq, Repr

/-- One kind's part of a boot pointer (R540): the CONFIRMED slot, the TRIAL slot and the trial boots begun. -/
structure BootK where
  conf : Nat := 0
  trial : Option Nat := none
  boots : Nat := 0
  deriving DecidableEq, Repr

/-- A boot pointer: SEQ, the three kinds, FW_VERSION. -/
structure BootPtr where
  seq : Nat := 0
  kinds : List BootK := [{}, {}, {}]
  fw : Nat := 0
  deriving DecidableEq, Repr

/-- UPD (17_updates_and_editions.md): registers; the six slots in the order of UPD_SLOT_k (unlisted: EMPTY); the download in progress; the two copies of the download record (SEQ and
download) and of the boot pointer; the slot being verified; the pieces held of each gathering (R415); whether an activation's reset is to come; the site second at which Ready was reached in
this boot, and since when the conditions of Table UPD-6 have held. -/
structure Upd where
  regs : Tbl Nat := []
  slots : Tbl ImgSlot := []
  dl : Option Dl := none
  recA : Option (Nat × Dl) := none
  recB : Option (Nat × Dl) := none
  bootA : Option BootPtr := none
  bootB : Option BootPtr := none
  verifying : Option Nat := none
  pieces : Tbl (Tbl (List Byte)) := []
  resetDue : Bool := false
  readyAt : Option Nat := none
  heldFrom : Option Nat := none
  programRefused : Bool := false
  deriving DecidableEq, Repr

/-- A customer edition in the fuses: bytes 0 to 1,019 as programmed, and whether SEAL was programmed and the CRC holds (R551, R552). -/
structure Edition where
  bytes : List Byte
  sealed : Bool
  deriving DecidableEq, Repr

/-- OTP: registers; the anti-rollback counters (unlisted: step 0); editions 1 to 5 as far as written; and the edition in force since the last reset (0: the factory block). -/
structure Otp where
  regs : Tbl Nat := []
  ctrs : Tbl Nat := []
  editions : Tbl Edition := []
  current : Nat := 0
  deriving DecidableEq, Repr

/-- FSH: registers; blocks retired in each region (numbered as FSH_REGION_k), the spares used, and the regions that are read-only, all kept in flash. -/
structure Fsh where
  regs : Tbl Nat := []
  retired : Tbl Nat := []
  used : Nat := 0
  ro : List Nat := []
  deriving DecidableEq, Repr

/-- The state of the module: the queue of waiting commands, the counter behind free values, the clocks, the addressed memories of
Table IDX-1 as one sparse list of bytes (an unlisted byte reads 0: R593 writes every word with zeros), the S-class writes held for their commit points (R15), what the running command has
reported so far (empty between commands), what it has put on a medium, the site data in force, and one component per block of Table IDX-2. -/
structure State where
  pending : List Instr := []
  free : Nat := 0
  clk : Clk := {}
  mem : List Host.Cell := []
  held : Tbl Nat := []
  notes : List Note := []
  out : List Emit := []
  site : Site := {}
  nv : Nv := {}
  stw : Stw := {}
  pwr : Pwr := {}
  evt : Evt := {}
  mrc : Mrc := {}
  flm : Flm := {}
  ecc : MemSt := {}
  ref : Ref := {}
  sol : Sol := {}
  clm : Clm := {}
  pro : Pro := {}
  air : Air := {}
  wkr : Wkr := {}
  stp : Stp := {}
  eth : Eth := {}
  ptc : Ptc := {}
  can : Can := {}
  ser : Ser := {}
  axs : Axs := {}
  dio : Dio := {}
  twn : Twn := {}
  cas : Cas := {}
  key : Key := {}
  upd : Upd := {}
  otp : Otp := {}
  fsh : Fsh := {}
  ccx : Ccx := {}
  deriving DecidableEq, Repr

/-- The module right after reset: every register at the reset value of its field map, no command waiting, memory zero. -/
def State.reset : State := { ccx := { cores := [(16, { st := .run, mhz := 400 })] } }

end Sys2Proof.Machine
end

