-- ==== Sys2Proof/Machine/RegMap.lean ====
section
/-!
DEFINITION. Sys2Proof/Machine/RegMap.lean: the field maps of every block (R12 to R18 of 00_scope.md and the register section of
each chapter), block by block in the order of Table IDX-2. A field is named BLOCK_REGISTER_FIELD; a register whose single field is
VAL or COUNT is named BLOCK_REGISTER. An index of a run of registers is an argument, the instance of ETH, CAN and SER the first
argument p. Reserved bits have no entry: they read as 0 (R13).
-/
namespace Sys2Proof.Machine

/-! ### STW (offset base 0x00, chapter file [19]) -/
-- STW_EUI_LO, offset 0x0000
def STW_EUI_LO : Fld := ⟨0, 0x0, 32, 0⟩
-- STW_EUI_HI, offset 0x0004
def STW_EUI_HI : Fld := ⟨0, 0x80, 32, 0⟩
-- STW_FW_VERSION, offset 0x0008
def STW_FW_VERSION : Fld := ⟨0, 0x100, 32, 0⟩
-- STW_BOOT, offset 0x000C
def STW_BOOT_STAGE : Fld := ⟨0, 0x19C, 4, 0⟩
def STW_BOOT_KIND : Fld := ⟨0, 0x199, 3, 0⟩
def STW_BOOT_FW_SLOT : Fld := ⟨0, 0x198, 1, 0⟩
def STW_BOOT_ERROR : Fld := ⟨0, 0x190, 8, 0⟩
def STW_BOOT_READY_MS : Fld := ⟨0, 0x180, 16, 0⟩
-- STW_UPTIME, offset 0x0010
def STW_UPTIME : Fld := ⟨0, 0x200, 32, 0⟩
-- STW_CFG_REFUSED, offset 0x0FF0
def STW_CFG_REFUSED_LAST_OFFSET : Fld := ⟨0, 0x1FE10, 16, 0⟩
def STW_CFG_REFUSED_COUNT : Fld := ⟨0, 0x1FE00, 16, 0⟩

/-! ### PWR (offset base 0x01, chapter file [19]) -/
-- PWR_CTRL, offset 0x0000
def PWR_CTRL_GOV_EN : Fld := ⟨1, 0x1, 1, 1⟩
def PWR_CTRL_AUTO_RUN : Fld := ⟨1, 0x0, 1, 0⟩
-- PWR_STATUS, offset 0x0004
def PWR_STATUS_STATE : Fld := ⟨1, 0x9E, 2, 1⟩
def PWR_STATUS_LAST_RESET : Fld := ⟨1, 0x9B, 3, 0⟩
def PWR_STATUS_TIME_SET : Fld := ⟨1, 0x9A, 1, 0⟩
def PWR_STATUS_THERM_STOP : Fld := ⟨1, 0x99, 1, 0⟩
def PWR_STATUS_CORE_STEP : Fld := ⟨1, 0x97, 2, 0⟩
def PWR_STATUS_RUN_PENDING : Fld := ⟨1, 0x96, 1, 0⟩
def PWR_STATUS_TEMP : Fld := ⟨1, 0x88, 8, 0⟩
-- PWR_CMD, offset 0x0008
def PWR_CMD_CMD : Fld := ⟨1, 0x100, 4, 0⟩
-- PWR_CMD_RES, offset 0x000C
def PWR_CMD_RES_ERROR : Fld := ⟨1, 0x190, 16, 0⟩
def PWR_CMD_RES_CMD : Fld := ⟨1, 0x184, 4, 0⟩
def PWR_CMD_RES_STATUS : Fld := ⟨1, 0x180, 3, 0⟩
-- PWR_WAKE_EN, offset 0x0010
def PWR_WAKE_EN_DI : Fld := ⟨1, 0x210, 16, 0⟩
def PWR_WAKE_EN_SRC : Fld := ⟨1, 0x200, 7, 0x3F⟩
-- PWR_WAKE_TGT, offset 0x0014
def PWR_WAKE_TGT_DI : Fld := ⟨1, 0x290, 16, 0⟩
def PWR_WAKE_TGT_SRC : Fld := ⟨1, 0x280, 7, 0⟩
-- PWR_WAKE_SRC, offset 0x0018
def PWR_WAKE_SRC_DI : Fld := ⟨1, 0x310, 16, 0⟩
def PWR_WAKE_SRC_SRC : Fld := ⟨1, 0x300, 7, 0⟩
-- PWR_WAKE_AT_LO, offset 0x0020
def PWR_WAKE_AT_LO : Fld := ⟨1, 0x400, 32, 0⟩
-- PWR_WAKE_AT_HI, offset 0x0024
def PWR_WAKE_AT_HI : Fld := ⟨1, 0x480, 32, 0⟩
-- PWR_THERM, offset 0x0028
def PWR_THERM_T_GOV : Fld := ⟨1, 0x518, 8, 0x73⟩
def PWR_THERM_T_STOP : Fld := ⟨1, 0x510, 8, 0x8C⟩
def PWR_THERM_T_OFF : Fld := ⟨1, 0x508, 8, 0x96⟩
def PWR_THERM_HYST : Fld := ⟨1, 0x500, 8, 5⟩
-- PWR_SUPPLY, offset 0x002C
def PWR_SUPPLY_LOGIC : Fld := ⟨1, 0x590, 16, 0⟩
def PWR_SUPPLY_OUTPUT : Fld := ⟨1, 0x580, 16, 0⟩
-- PWR_CNT_WAKE, offset 0x0080
def PWR_CNT_WAKE : Fld := ⟨1, 0x1000, 32, 0⟩
-- PWR_CNT_SUPPLY_WARN, offset 0x0084
def PWR_CNT_SUPPLY_WARN : Fld := ⟨1, 0x1080, 32, 0⟩
-- PWR_CNT_GOV_STEP, offset 0x0088
def PWR_CNT_GOV_STEP : Fld := ⟨1, 0x1100, 32, 0⟩
-- PWR_CNT_THERM_STOP, offset 0x008C
def PWR_CNT_THERM_STOP : Fld := ⟨1, 0x1180, 32, 0⟩
-- PWR_CNT_CMD_REFUSED, offset 0x0090
def PWR_CNT_CMD_REFUSED : Fld := ⟨1, 0x1200, 32, 0⟩
-- PWR_CFG_REFUSED, offset 0x0FF0
def PWR_CFG_REFUSED_LAST_OFFSET : Fld := ⟨1, 0x1FE10, 16, 0⟩
def PWR_CFG_REFUSED_COUNT : Fld := ⟨1, 0x1FE00, 16, 0⟩

/-! ### EVT (offset base 0x02, chapter file [18]) -/
-- EVT_CTRL, offset 0x0000
def EVT_CTRL_DF_RESET : Fld := ⟨2, 0x18, 8, 0⟩
def EVT_CTRL_PAGE_MS : Fld := ⟨2, 0x10, 8, 0xA⟩
def EVT_CTRL_PROG_FLUME : Fld := ⟨2, 0x8, 7, 0⟩
def EVT_CTRL_PROG_EN : Fld := ⟨2, 0x1, 1, 0⟩
def EVT_CTRL_EN : Fld := ⟨2, 0x0, 1, 1⟩
-- EVT_STATUS, offset 0x0004
def EVT_STATUS_ALARMS : Fld := ⟨2, 0x93, 13, 0⟩
def EVT_STATUS_STAGED : Fld := ⟨2, 0x80, 13, 0⟩
-- EVT_CREDIT, offset 0x0008
def EVT_CREDIT_ALARM_RES : Fld := ⟨2, 0x116, 10, 0x100⟩
def EVT_CREDIT_LOG_LIM : Fld := ⟨2, 0x10B, 11, 0x300⟩
def EVT_CREDIT_TRACE_LIM : Fld := ⟨2, 0x100, 11, 0x200⟩
-- EVT_CMD, offset 0x000C
def EVT_CMD_BLOCK : Fld := ⟨2, 0x188, 5, 0⟩
def EVT_CMD_CMD : Fld := ⟨2, 0x180, 4, 0⟩
-- EVT_CMD_RES, offset 0x0010
def EVT_CMD_RES_ERROR : Fld := ⟨2, 0x210, 16, 0⟩
def EVT_CMD_RES_CMD : Fld := ⟨2, 0x204, 4, 0⟩
def EVT_CMD_RES_STATUS : Fld := ⟨2, 0x200, 3, 0⟩
-- EVT_WDOG, offset 0x0014
def EVT_WDOG_KICK : Fld := ⟨2, 0x280, 16, 0⟩
-- EVT_SW, offset 0x0018
def EVT_SW_RAISE : Fld := ⟨2, 0x301, 7, 0⟩
-- EVT_SEQ_LO, offset 0x0020
def EVT_SEQ_LO : Fld := ⟨2, 0x400, 32, 0⟩
-- EVT_SEQ_HI, offset 0x0024
def EVT_SEQ_HI : Fld := ⟨2, 0x480, 32, 0⟩
-- EVT_DFAULT, offset 0x0028
def EVT_DFAULT_DFAULT : Fld := ⟨2, 0x51F, 1, 0⟩
def EVT_DFAULT_HANDLING : Fld := ⟨2, 0x51E, 1, 0⟩
def EVT_DFAULT_CAUSE : Fld := ⟨2, 0x500, 16, 0⟩
-- EVT_PEND, offset 0x0040 + 0x4 * n (n < 8)
def EVT_PEND (n : Nat) : Fld := ⟨2, 0x800 + 0x80 * n, 32, 0⟩
-- EVT_CNT_ALARM, offset 0x0080
def EVT_CNT_ALARM : Fld := ⟨2, 0x1000, 32, 0⟩
-- EVT_CNT_LOG, offset 0x0084
def EVT_CNT_LOG : Fld := ⟨2, 0x1080, 32, 0⟩
-- EVT_CNT_TRACE, offset 0x0088
def EVT_CNT_TRACE : Fld := ⟨2, 0x1100, 32, 0⟩
-- EVT_CNT_LOG_COALESCED, offset 0x008C
def EVT_CNT_LOG_COALESCED : Fld := ⟨2, 0x1180, 32, 0⟩
-- EVT_CNT_TRACE_DROP, offset 0x0090
def EVT_CNT_TRACE_DROP : Fld := ⟨2, 0x1200, 32, 0⟩
-- EVT_CNT_ALARM_MERGED, offset 0x0094
def EVT_CNT_ALARM_MERGED : Fld := ⟨2, 0x1280, 32, 0⟩
-- EVT_CNT_PROG_BAD, offset 0x0098
def EVT_CNT_PROG_BAD : Fld := ⟨2, 0x1300, 32, 0⟩
-- EVT_CNT_PAGES, offset 0x009C
def EVT_CNT_PAGES : Fld := ⟨2, 0x1380, 32, 0⟩
-- EVT_CFG_REFUSED, offset 0x0FF0
def EVT_CFG_REFUSED_LAST_OFFSET : Fld := ⟨2, 0x1FE10, 16, 0⟩
def EVT_CFG_REFUSED_COUNT : Fld := ⟨2, 0x1FE00, 16, 0⟩
-- EVT_ROUTE, offset 0x1000 + 0x4 * n (n < 256)
def EVT_ROUTE_STW (n : Nat) : Fld := ⟨2, 0x2001F + 0x80 * n, 1, 0⟩
def EVT_ROUTE_CLASS (n : Nat) : Fld := ⟨2, 0x20000 + 0x80 * n, 2, 0⟩
-- EVT_COUNT, offset 0x1400 + 0x4 * n (n < 256)
def EVT_COUNT (n : Nat) : Fld := ⟨2, 0x28000 + 0x80 * n, 32, 0⟩
-- EVT_ERR, offset 0x2000 + 0x20 * n (n < 31) + 0x4 * m (m < 8)
def EVT_ERR (n m : Nat) : Fld := ⟨2, 0x40000 + 0x400 * n + 0x80 * m, 32, 0⟩

/-! ### MRC (offset base 0x03, chapter file [09]) -/
-- MRC_CTRL, offset 0x0000
def MRC_CTRL_WAIT_LIM : Fld := ⟨3, 0x18, 8, 0xA⟩
def MRC_CTRL_AFF_WIN : Fld := ⟨3, 0x10, 8, 0x14⟩
def MRC_CTRL_EN : Fld := ⟨3, 0x0, 1, 0⟩
-- MRC_STATUS, offset 0x0004
def MRC_STATUS_STATE : Fld := ⟨3, 0x9E, 2, 0⟩
def MRC_STATUS_INBOXES : Fld := ⟨3, 0x91, 13, 0⟩
def MRC_STATUS_ITEMS : Fld := ⟨3, 0x80, 17, 0⟩
-- MRC_INBOX, offset 0x0008
def MRC_INBOX_ADDR : Fld := ⟨3, 0x114, 12, 0⟩
-- MRC_CMD, offset 0x000C
def MRC_CMD_ARG : Fld := ⟨3, 0x190, 12, 0⟩
def MRC_CMD_CMD : Fld := ⟨3, 0x180, 4, 0⟩
-- MRC_CMD_RES, offset 0x0010
def MRC_CMD_RES_ERROR : Fld := ⟨3, 0x210, 16, 0⟩
def MRC_CMD_RES_CMD : Fld := ⟨3, 0x204, 4, 0⟩
def MRC_CMD_RES_STATUS : Fld := ⟨3, 0x200, 3, 0⟩
-- MRC_RESERVE, offset 0x0018
def MRC_RESERVE_RESERVE : Fld := ⟨3, 0x300, 16, 0x400⟩
-- MRC_GRAPH_EN, offset 0x0020 + 0x4 * n (n < 2)
def MRC_GRAPH_EN (n : Nat) : Fld := ⟨3, 0x400 + 0x80 * n, 32, 0⟩
-- MRC_READY, offset 0x0030 + 0x4 * n (n < 2)
def MRC_READY (n : Nat) : Fld := ⟨3, 0x600 + 0x80 * n, 32, 0⟩
-- MRC_LAT, offset 0x0038
def MRC_LAT_MAX : Fld := ⟨3, 0x710, 16, 0⟩
def MRC_LAT_CLEAR : Fld := ⟨3, 0x700, 1, 0⟩
-- MRC_CNT_POSTED, offset 0x0080
def MRC_CNT_POSTED : Fld := ⟨3, 0x1000, 32, 0⟩
-- MRC_CNT_DISPATCHED, offset 0x0084
def MRC_CNT_DISPATCHED : Fld := ⟨3, 0x1080, 32, 0⟩
-- MRC_CNT_DONE, offset 0x0088
def MRC_CNT_DONE : Fld := ⟨3, 0x1100, 32, 0⟩
-- MRC_CNT_FAILED, offset 0x008C
def MRC_CNT_FAILED : Fld := ⟨3, 0x1180, 32, 0⟩
-- MRC_CNT_CANCELLED, offset 0x0090
def MRC_CNT_CANCELLED : Fld := ⟨3, 0x1200, 32, 0⟩
-- MRC_CNT_ABANDONED, offset 0x0094
def MRC_CNT_ABANDONED : Fld := ⟨3, 0x1280, 32, 0⟩
-- MRC_CNT_POST_REFUSED, offset 0x0098
def MRC_CNT_POST_REFUSED : Fld := ⟨3, 0x1300, 32, 0⟩
-- MRC_CNT_TRIG_DROP, offset 0x009C
def MRC_CNT_TRIG_DROP : Fld := ⟨3, 0x1380, 32, 0⟩
-- MRC_CNT_CHAIN_DROP, offset 0x00A0
def MRC_CNT_CHAIN_DROP : Fld := ⟨3, 0x1400, 32, 0⟩
-- MRC_CNT_CREC_DROP, offset 0x00A4
def MRC_CNT_CREC_DROP : Fld := ⟨3, 0x1480, 32, 0⟩
-- MRC_CNT_COALESCED, offset 0x00A8
def MRC_CNT_COALESCED : Fld := ⟨3, 0x1500, 32, 0⟩
-- MRC_CNT_AFF_HOLD, offset 0x00AC
def MRC_CNT_AFF_HOLD : Fld := ⟨3, 0x1580, 32, 0⟩
-- MRC_CNT_WAIT_LONG, offset 0x00B0
def MRC_CNT_WAIT_LONG : Fld := ⟨3, 0x1600, 32, 0⟩
-- MRC_CFG_REFUSED, offset 0x0FF0
def MRC_CFG_REFUSED_LAST_OFFSET : Fld := ⟨3, 0x1FE10, 16, 0⟩
def MRC_CFG_REFUSED_COUNT : Fld := ⟨3, 0x1FE00, 16, 0⟩
-- MRC_TMR_CTRL, offset 0x1000 + 0x10 * n (n < 64)
def MRC_TMR_CTRL_EN (n : Nat) : Fld := ⟨3, 0x2001F + 0x200 * n, 1, 0⟩
def MRC_TMR_CTRL_FLOW (n : Nat) : Fld := ⟨3, 0x20010 + 0x200 * n, 12, 0⟩
def MRC_TMR_CTRL_OP (n : Nat) : Fld := ⟨3, 0x20000 + 0x200 * n, 10, 0⟩
-- MRC_TMR_AT_LO, offset 0x1004 + 0x10 * n (n < 64)
def MRC_TMR_AT_LO (n : Nat) : Fld := ⟨3, 0x20080 + 0x200 * n, 32, 0⟩
-- MRC_TMR_AT_HI, offset 0x1008 + 0x10 * n (n < 64)
def MRC_TMR_AT_HI (n : Nat) : Fld := ⟨3, 0x20100 + 0x200 * n, 32, 0⟩
-- MRC_TMR_PER, offset 0x100C + 0x10 * n (n < 64)
def MRC_TMR_PER (n : Nat) : Fld := ⟨3, 0x20180 + 0x200 * n, 32, 0⟩
-- MRC_EVT, offset 0x2000 + 0x4 * n (n < 256)
def MRC_EVT_EN (n : Nat) : Fld := ⟨3, 0x4001F + 0x80 * n, 1, 0⟩
def MRC_EVT_FLOW (n : Nat) : Fld := ⟨3, 0x40010 + 0x80 * n, 12, 0⟩
def MRC_EVT_OP (n : Nat) : Fld := ⟨3, 0x40000 + 0x80 * n, 10, 0⟩
-- MRC_DESC, offset 0x8000 + 0x20 * n (n < 1024) + 0x4 * m (m < 8)
def MRC_DESC (n m : Nat) : Fld := ⟨3, 0x100000 + 0x400 * n + 0x80 * m, 32, 0⟩

/-! ### FLM (offset base 0x04, chapter file [10]) -/
-- FLM_CTRL, offset 0x0000
def FLM_CTRL_EN : Fld := ⟨4, 0x0, 1, 0⟩
-- FLM_POOL, offset 0x0004
def FLM_POOL_ADDR : Fld := ⟨4, 0x94, 12, 0⟩
def FLM_POOL_MIB : Fld := ⟨4, 0x80, 4, 0⟩
-- FLM_STATUS, offset 0x0008
def FLM_STATUS_ENABLED : Fld := ⟨4, 0x110, 8, 0⟩
def FLM_STATUS_HIGH : Fld := ⟨4, 0x108, 8, 0⟩
-- FLM_CMD, offset 0x000C
def FLM_CMD_FLUME : Fld := ⟨4, 0x188, 7, 0⟩
def FLM_CMD_CMD : Fld := ⟨4, 0x180, 4, 0⟩
-- FLM_CMD_RES, offset 0x0010
def FLM_CMD_RES_ERROR : Fld := ⟨4, 0x210, 16, 0⟩
def FLM_CMD_RES_CMD : Fld := ⟨4, 0x204, 4, 0⟩
def FLM_CMD_RES_STATUS : Fld := ⟨4, 0x200, 3, 0⟩
-- FLM_HIGH, offset 0x0020 + 0x4 * n (n < 4)
def FLM_HIGH (n : Nat) : Fld := ⟨4, 0x400 + 0x80 * n, 32, 0⟩
-- FLM_FLOWPIN, offset 0x0030 + 0x4 * n (n < 4)
def FLM_FLOWPIN_ASSERTED (n : Nat) : Fld := ⟨4, 0x60F + 0x80 * n, 1, 0⟩
def FLM_FLOWPIN_FLUME (n : Nat) : Fld := ⟨4, 0x608 + 0x80 * n, 7, 0⟩
def FLM_FLOWPIN_POL (n : Nat) : Fld := ⟨4, 0x602 + 0x80 * n, 1, 0⟩
def FLM_FLOWPIN_MODE (n : Nat) : Fld := ⟨4, 0x600 + 0x80 * n, 2, 0⟩
-- FLM_CNT_DROP, offset 0x0080
def FLM_CNT_DROP : Fld := ⟨4, 0x1000, 32, 0⟩
-- FLM_CNT_MARK, offset 0x0084
def FLM_CNT_MARK : Fld := ⟨4, 0x1080, 32, 0⟩
-- FLM_CNT_ECC, offset 0x0088
def FLM_CNT_ECC : Fld := ⟨4, 0x1100, 32, 0⟩
-- FLM_CNT_FLUSH, offset 0x008C
def FLM_CNT_FLUSH : Fld := ⟨4, 0x1180, 32, 0⟩
-- FLM_CFG_REFUSED, offset 0x0FF0
def FLM_CFG_REFUSED_LAST_OFFSET : Fld := ⟨4, 0x1FE10, 16, 0⟩
def FLM_CFG_REFUSED_COUNT : Fld := ⟨4, 0x1FE00, 16, 0⟩
-- FLM_CFG, offset 0x1000 + 0x20 * n (n < 128)
def FLM_CFG_EN (n : Nat) : Fld := ⟨4, 0x2001F + 0x400 * n, 1, 0⟩
def FLM_CFG_LOG2 (n : Nat) : Fld := ⟨4, 0x20008 + 0x400 * n, 5, 4⟩
def FLM_CFG_RECOVER (n : Nat) : Fld := ⟨4, 0x20004 + 0x400 * n, 1, 0⟩
def FLM_CFG_PROG (n : Nat) : Fld := ⟨4, 0x20002 + 0x400 * n, 2, 0⟩
def FLM_CFG_MRC (n : Nat) : Fld := ⟨4, 0x20001 + 0x400 * n, 1, 0⟩
-- FLM_BASE, offset 0x1004 + 0x20 * n (n < 128)
def FLM_BASE_ADDR (n : Nat) : Fld := ⟨4, 0x20083 + 0x400 * n, 29, 0⟩
-- FLM_WM, offset 0x1008 + 0x20 * n (n < 128)
def FLM_WM_HIGH (n : Nat) : Fld := ⟨4, 0x20110 + 0x400 * n, 16, 0⟩
def FLM_WM_LOW (n : Nat) : Fld := ⟨4, 0x20100 + 0x400 * n, 16, 0⟩
-- FLM_FILL, offset 0x100C + 0x20 * n (n < 128)
def FLM_FILL_HIGH (n : Nat) : Fld := ⟨4, 0x2019F + 0x400 * n, 1, 0⟩
def FLM_FILL_HELD (n : Nat) : Fld := ⟨4, 0x2019E + 0x400 * n, 1, 0⟩
def FLM_FILL_DROPPING (n : Nat) : Fld := ⟨4, 0x2019D + 0x400 * n, 1, 0⟩
def FLM_FILL_WORDS (n : Nat) : Fld := ⟨4, 0x20180 + 0x400 * n, 21, 0⟩
-- FLM_RECS, offset 0x1010 + 0x20 * n (n < 128)
def FLM_RECS_PUSHED (n : Nat) : Fld := ⟨4, 0x20210 + 0x400 * n, 16, 0⟩
def FLM_RECS_POPPED (n : Nat) : Fld := ⟨4, 0x20200 + 0x400 * n, 16, 0⟩
-- FLM_CNT_DROP_N, offset 0x1014 + 0x20 * n (n < 128)
def FLM_CNT_DROP_N (n : Nat) : Fld := ⟨4, 0x20280 + 0x400 * n, 32, 0⟩
-- FLM_CNT_MARK_N, offset 0x1018 + 0x20 * n (n < 128)
def FLM_CNT_MARK_N (n : Nat) : Fld := ⟨4, 0x20300 + 0x400 * n, 32, 0⟩

/-! ### MEM (offset base 0x05, chapter file [10]) -/
-- MEM_CTRL, offset 0x0000
def MEM_CTRL_PERIOD : Fld := ⟨5, 0x1, 11, 0x40⟩
def MEM_CTRL_SCRUB_EN : Fld := ⟨5, 0x0, 1, 1⟩
-- MEM_STATUS, offset 0x0004
def MEM_STATUS_PASSES : Fld := ⟨5, 0x90, 16, 0⟩
def MEM_STATUS_POS : Fld := ⟨5, 0x80, 16, 0⟩
-- MEM_CMD, offset 0x0008
def MEM_CMD_CMD : Fld := ⟨5, 0x100, 4, 0⟩
-- MEM_CMD_RES, offset 0x000C
def MEM_CMD_RES_ERROR : Fld := ⟨5, 0x190, 16, 0⟩
def MEM_CMD_RES_CMD : Fld := ⟨5, 0x184, 4, 0⟩
def MEM_CMD_RES_STATUS : Fld := ⟨5, 0x180, 3, 0⟩
-- MEM_INJECT, offset 0x0010
def MEM_INJECT_ADDR : Fld := ⟨5, 0x203, 29, 0⟩
def MEM_INJECT_MODE : Fld := ⟨5, 0x200, 2, 0⟩
-- MEM_ERR_P_ADDR, offset 0x0020
def MEM_ERR_P_ADDR : Fld := ⟨5, 0x400, 32, 0⟩
-- MEM_ERR_P_INFO, offset 0x0024
def MEM_ERR_P_INFO_ERROR : Fld := ⟨5, 0x490, 16, 0⟩
def MEM_ERR_P_INFO_SOURCE : Fld := ⟨5, 0x48C, 4, 0⟩
def MEM_ERR_P_INFO_STORE : Fld := ⟨5, 0x488, 4, 0⟩
def MEM_ERR_P_INFO_WHO : Fld := ⟨5, 0x480, 5, 0⟩
-- MEM_ERR_S_ADDR, offset 0x0028
def MEM_ERR_S_ADDR : Fld := ⟨5, 0x500, 32, 0⟩
-- MEM_ERR_S_INFO, offset 0x002C
def MEM_ERR_S_INFO_ERROR : Fld := ⟨5, 0x590, 16, 0⟩
def MEM_ERR_S_INFO_SOURCE : Fld := ⟨5, 0x58C, 4, 0⟩
def MEM_ERR_S_INFO_STORE : Fld := ⟨5, 0x588, 4, 0⟩
def MEM_ERR_S_INFO_WHO : Fld := ⟨5, 0x580, 5, 0⟩
-- MEM_ERR_OVF, offset 0x0030
def MEM_ERR_OVF : Fld := ⟨5, 0x600, 32, 0⟩
-- MEM_CNT_INNER, offset 0x0080
def MEM_CNT_INNER : Fld := ⟨5, 0x1000, 32, 0⟩
-- MEM_CNT_OUTER, offset 0x0084
def MEM_CNT_OUTER : Fld := ⟨5, 0x1080, 32, 0⟩
-- MEM_CNT_UNCORR, offset 0x0088
def MEM_CNT_UNCORR : Fld := ⟨5, 0x1100, 32, 0⟩
-- MEM_CNT_POISON, offset 0x008C
def MEM_CNT_POISON : Fld := ⟨5, 0x1180, 32, 0⟩
-- MEM_CNT_HARD, offset 0x0090
def MEM_CNT_HARD : Fld := ⟨5, 0x1200, 32, 0⟩
-- MEM_CNT_SCRUB_DEFER, offset 0x0094
def MEM_CNT_SCRUB_DEFER : Fld := ⟨5, 0x1280, 32, 0⟩
-- MEM_CFG_REFUSED, offset 0x0FF0
def MEM_CFG_REFUSED_LAST_OFFSET : Fld := ⟨5, 0x1FE10, 16, 0⟩
def MEM_CFG_REFUSED_COUNT : Fld := ⟨5, 0x1FE00, 16, 0⟩

/-! ### REF (offset base 0x06, chapter file [02]) -/
-- REF_CTRL, offset 0x0000
def REF_CTRL_CN0_MASK : Fld := ⟨6, 0x10, 8, 0x78⟩
def REF_CTRL_ELEV_MASK : Fld := ⟨6, 0xB, 5, 0xA⟩
def REF_CTRL_BIAS2_EN : Fld := ⟨6, 0xA, 1, 1⟩
def REF_CTRL_BIAS1_EN : Fld := ⟨6, 0x9, 1, 1⟩
def REF_CTRL_TIME_MASTER : Fld := ⟨6, 0x8, 1, 1⟩
def REF_CTRL_POS_MODE : Fld := ⟨6, 0x6, 2, 0⟩
def REF_CTRL_MP_APPLY : Fld := ⟨6, 0x5, 1, 1⟩
def REF_CTRL_MP_LEARN : Fld := ⟨6, 0x4, 1, 1⟩
def REF_CTRL_MON_EN : Fld := ⟨6, 0x3, 1, 0⟩
def REF_CTRL_AUTO_SWAP : Fld := ⟨6, 0x2, 1, 1⟩
def REF_CTRL_REF_ANT : Fld := ⟨6, 0x1, 1, 0⟩
def REF_CTRL_EN : Fld := ⟨6, 0x0, 1, 0⟩
-- REF_CMD, offset 0x0004
def REF_CMD_CMD : Fld := ⟨6, 0x80, 4, 0⟩
-- REF_STATUS, offset 0x0008
def REF_STATUS_SATS : Fld := ⟨6, 0x118, 8, 0⟩
def REF_STATUS_TRACKED : Fld := ⟨6, 0x110, 8, 0⟩
def REF_STATUS_MP_DIRTY : Fld := ⟨6, 0x10F, 1, 0⟩
def REF_STATUS_MON : Fld := ⟨6, 0x10D, 2, 0⟩
def REF_STATUS_ANT_IN_USE : Fld := ⟨6, 0x10C, 1, 0⟩
def REF_STATUS_BIAS2 : Fld := ⟨6, 0x10A, 2, 0⟩
def REF_STATUS_BIAS1 : Fld := ⟨6, 0x108, 2, 0⟩
def REF_STATUS_TIME_STATE : Fld := ⟨6, 0x104, 4, 0⟩
def REF_STATUS_STATE : Fld := ⟨6, 0x100, 4, 0⟩
-- REF_RAW, offset 0x000C
def REF_RAW_ANT : Fld := ⟨6, 0x183, 2, 0⟩
def REF_RAW_RATE : Fld := ⟨6, 0x180, 3, 0⟩
-- REF_SIG_EN, offset 0x0010
def REF_SIG_EN_SIG : Fld := ⟨6, 0x200, 18, 0x3FFFF⟩
-- REF_POS_X_LO, offset 0x0020
def REF_POS_X_LO : Fld := ⟨6, 0x400, 32, 0⟩
-- REF_POS_X_HI, offset 0x0024
def REF_POS_X_HI : Fld := ⟨6, 0x480, 32, 0⟩
-- REF_POS_Y_LO, offset 0x0028
def REF_POS_Y_LO : Fld := ⟨6, 0x500, 32, 0⟩
-- REF_POS_Y_HI, offset 0x002C
def REF_POS_Y_HI : Fld := ⟨6, 0x580, 32, 0⟩
-- REF_POS_Z_LO, offset 0x0030
def REF_POS_Z_LO : Fld := ⟨6, 0x600, 32, 0⟩
-- REF_POS_Z_HI, offset 0x0034
def REF_POS_Z_HI : Fld := ⟨6, 0x680, 32, 0⟩
-- REF_POS_SERIAL, offset 0x0038
def REF_POS_SERIAL_SERIAL : Fld := ⟨6, 0x700, 16, 0⟩
-- REF_MON_E, offset 0x0040
def REF_MON_E : Fld := ⟨6, 0x800, 32, 0⟩
-- REF_MON_N, offset 0x0044
def REF_MON_N : Fld := ⟨6, 0x880, 32, 0⟩
-- REF_MON_U, offset 0x0048
def REF_MON_U : Fld := ⟨6, 0x900, 32, 0⟩
-- REF_MON_CFG, offset 0x004C
def REF_MON_CFG_EPOCHS : Fld := ⟨6, 0x988, 8, 5⟩
def REF_MON_CFG_LIMIT : Fld := ⟨6, 0x980, 8, 0x14⟩
-- REF_SURVEY, offset 0x0050
def REF_SURVEY_SIGMA : Fld := ⟨6, 0xA10, 16, 0x3E8⟩
def REF_SURVEY_DURATION : Fld := ⟨6, 0xA00, 16, 0x168⟩
-- REF_SURV_STATUS, offset 0x0054
def REF_SURV_STATUS_SIGMA : Fld := ⟨6, 0xA90, 16, 0xFFFF⟩
def REF_SURV_STATUS_ELAPSED : Fld := ⟨6, 0xA80, 16, 0⟩
-- REF_CMD_RES, offset 0x0058
def REF_CMD_RES_ERROR : Fld := ⟨6, 0xB10, 16, 0⟩
def REF_CMD_RES_CMD : Fld := ⟨6, 0xB04, 4, 0⟩
def REF_CMD_RES_STATUS : Fld := ⟨6, 0xB00, 3, 0⟩
-- REF_MPM_BASE, offset 0x0060
def REF_MPM_BASE_ADDR : Fld := ⟨6, 0xC0C, 20, 0⟩
-- REF_MPM_CFG, offset 0x0064
def REF_MPM_CFG_SHADOW_CN0 : Fld := ⟨6, 0xC98, 8, 0x28⟩
def REF_MPM_CFG_MATURE : Fld := ⟨6, 0xC94, 4, 3⟩
def REF_MPM_CFG_N_TAU : Fld := ⟨6, 0xC80, 16, 0x1000⟩
-- REF_MPM_STATUS, offset 0x0068
def REF_MPM_STATUS_SHADOW : Fld := ⟨6, 0xD10, 16, 0⟩
def REF_MPM_STATUS_MATURE : Fld := ⟨6, 0xD00, 16, 0⟩
-- REF_TIME_CFG, offset 0x0070
def REF_TIME_CFG_CONFIRM : Fld := ⟨6, 0xE18, 8, 0x3C⟩
def REF_TIME_CFG_HOLD_LIMIT : Fld := ⟨6, 0xE10, 8, 4⟩
def REF_TIME_CFG_SUSPECT : Fld := ⟨6, 0xE00, 16, 0x3E8⟩
-- REF_TIME_ERR, offset 0x0074
def REF_TIME_ERR : Fld := ⟨6, 0xE80, 32, 0⟩
-- REF_FREQ_ERR, offset 0x0078
def REF_FREQ_ERR : Fld := ⟨6, 0xF00, 32, 0⟩
-- REF_HOLD_TIME, offset 0x007C
def REF_HOLD_TIME : Fld := ⟨6, 0xF80, 32, 0⟩
-- REF_RTCM_CFG, offset 0x0080
def REF_RTCM_CFG_ANT_MSG : Fld := ⟨6, 0x1019, 1, 0⟩
def REF_RTCM_CFG_MP : Fld := ⟨6, 0x1018, 1, 1⟩
def REF_RTCM_CFG_ARP : Fld := ⟨6, 0x1010, 8, 0xA⟩
def REF_RTCM_CFG_RATE : Fld := ⟨6, 0x100D, 3, 1⟩
def REF_RTCM_CFG_MSM : Fld := ⟨6, 0x100C, 1, 0⟩
def REF_RTCM_CFG_STATION : Fld := ⟨6, 0x1000, 12, 0⟩
-- REF_RTCM_AIR, offset 0x0084
def REF_RTCM_AIR_ARP : Fld := ⟨6, 0x1090, 8, 0xA⟩
def REF_RTCM_AIR_RATE : Fld := ⟨6, 0x1087, 3, 1⟩
def REF_RTCM_AIR_MSM : Fld := ⟨6, 0x1086, 1, 0⟩
def REF_RTCM_AIR_CONST : Fld := ⟨6, 0x1080, 6, 5⟩
-- REF_NTRIP_CFG, offset 0x0088
def REF_NTRIP_CFG_PORT : Fld := ⟨6, 0x1110, 16, 0x835⟩
def REF_NTRIP_CFG_MAX : Fld := ⟨6, 0x1102, 7, 0x40⟩
def REF_NTRIP_CFG_TLS : Fld := ⟨6, 0x1101, 1, 0⟩
def REF_NTRIP_CFG_EN : Fld := ⟨6, 0x1100, 1, 0⟩
-- REF_NTRIP_STATUS, offset 0x008C
def REF_NTRIP_STATUS_REFUSED : Fld := ⟨6, 0x1190, 16, 0⟩
def REF_NTRIP_STATUS_CLIENTS : Fld := ⟨6, 0x1180, 8, 0⟩
-- REF_FLUME, offset 0x0090
def REF_FLUME_RAW_FLUME : Fld := ⟨6, 0x1208, 7, 0⟩
def REF_FLUME_SOL_FLUME : Fld := ⟨6, 0x1200, 7, 0⟩
-- REF_CNT_EPOCH_LATE, offset 0x00A0
def REF_CNT_EPOCH_LATE : Fld := ⟨6, 0x1400, 32, 0⟩
-- REF_CNT_ANT_FAULT, offset 0x00A4
def REF_CNT_ANT_FAULT : Fld := ⟨6, 0x1480, 32, 0⟩
-- REF_CNT_SWAP, offset 0x00A8
def REF_CNT_SWAP : Fld := ⟨6, 0x1500, 32, 0⟩
-- REF_CNT_MON_ALARM, offset 0x00AC
def REF_CNT_MON_ALARM : Fld := ⟨6, 0x1580, 32, 0⟩
-- REF_CNT_TIME_SUSPECT, offset 0x00B0
def REF_CNT_TIME_SUSPECT : Fld := ⟨6, 0x1600, 32, 0⟩
-- REF_CNT_NTRIP_DROP, offset 0x00B4
def REF_CNT_NTRIP_DROP : Fld := ⟨6, 0x1680, 32, 0⟩
-- REF_CFG_REFUSED, offset 0x0FF0
def REF_CFG_REFUSED_LAST_OFFSET : Fld := ⟨6, 0x1FE10, 16, 0⟩
def REF_CFG_REFUSED_COUNT : Fld := ⟨6, 0x1FE00, 16, 0⟩

/-! ### SOL (offset base 0x07, chapter file [03]) -/
-- SOL_CTRL, offset 0x0000
def SOL_CTRL_CN0_MIN : Fld := ⟨7, 0x10, 8, 0x68⟩
def SOL_CTRL_ELEV_MASK : Fld := ⟨7, 0xB, 5, 0xF⟩
def SOL_CTRL_SHADOW_DW : Fld := ⟨7, 0x1, 1, 1⟩
def SOL_CTRL_EN : Fld := ⟨7, 0x0, 1, 0⟩
-- SOL_STATUS, offset 0x0004
def SOL_STATUS_ACTIVE : Fld := ⟨7, 0x97, 9, 0⟩
def SOL_STATUS_FIXED : Fld := ⟨7, 0x8E, 9, 0⟩
def SOL_STATUS_MARKED : Fld := ⟨7, 0x85, 9, 0⟩
def SOL_STATUS_STATE : Fld := ⟨7, 0x80, 2, 0⟩
-- SOL_FIX_CFG, offset 0x0008
def SOL_FIX_CFG_RATIO_MIN : Fld := ⟨7, 0x118, 8, 0x1E⟩
def SOL_FIX_CFG_CONFIRM : Fld := ⟨7, 0x114, 4, 2⟩
def SOL_FIX_CFG_PF_EXP : Fld := ⟨7, 0x110, 4, 6⟩
def SOL_FIX_CFG_FIX_MIN : Fld := ⟨7, 0x108, 8, 6⟩
-- SOL_PL_CFG, offset 0x000C
def SOL_PL_CFG_K_H : Fld := ⟨7, 0x198, 8, 0x3C⟩
def SOL_PL_CFG_K_V : Fld := ⟨7, 0x190, 8, 0x3C⟩
def SOL_PL_CFG_CHI_P : Fld := ⟨7, 0x18C, 4, 5⟩
-- SOL_FDE_CFG, offset 0x0010
def SOL_FDE_CFG_FAIL_RESET : Fld := ⟨7, 0x208, 4, 3⟩
def SOL_FDE_CFG_DEPTH : Fld := ⟨7, 0x204, 4, 1⟩
def SOL_FDE_CFG_EXCL_MAX : Fld := ⟨7, 0x200, 4, 6⟩
-- SOL_MARK_CFG, offset 0x0014
def SOL_MARK_CFG_MARK_AGE : Fld := ⟨7, 0x298, 8, 0x14⟩
def SOL_MARK_CFG_DR_MAX : Fld := ⟨7, 0x290, 8, 0x14⟩
def SOL_MARK_CFG_GATE : Fld := ⟨7, 0x288, 8, 0x32⟩
-- SOL_FLUME, offset 0x0018
def SOL_FLUME_REF_IN : Fld := ⟨7, 0x310, 7, 0⟩
def SOL_FLUME_REPORT : Fld := ⟨7, 0x308, 7, 0⟩
def SOL_FLUME_SOLN : Fld := ⟨7, 0x300, 7, 0⟩
-- SOL_MACH_CMD, offset 0x0020
def SOL_MACH_CMD_CMD : Fld := ⟨7, 0x408, 4, 0⟩
def SOL_MACH_CMD_FLEET : Fld := ⟨7, 0x400, 8, 0⟩
-- SOL_CMD_RES, offset 0x0024
def SOL_CMD_RES_ERROR : Fld := ⟨7, 0x490, 16, 0⟩
def SOL_CMD_RES_FLEET : Fld := ⟨7, 0x488, 8, 0⟩
def SOL_CMD_RES_CMD : Fld := ⟨7, 0x484, 4, 0⟩
def SOL_CMD_RES_STATUS : Fld := ⟨7, 0x480, 3, 0⟩
-- SOL_LOAD, offset 0x0028
def SOL_LOAD_RESOLVES : Fld := ⟨7, 0x510, 16, 0⟩
def SOL_LOAD_LOAD : Fld := ⟨7, 0x500, 10, 0⟩
-- SOL_LAT, offset 0x002C
def SOL_LAT_MAX : Fld := ⟨7, 0x590, 16, 0⟩
def SOL_LAT_CLEAR : Fld := ⟨7, 0x580, 1, 0⟩
-- SOL_FIXCHG, offset 0x0040 + 0x4 * n (n < 8)
def SOL_FIXCHG (n : Nat) : Fld := ⟨7, 0x800 + 0x80 * n, 32, 0⟩
-- SOL_CNT_MISSING, offset 0x0080
def SOL_CNT_MISSING : Fld := ⟨7, 0x1000, 32, 0⟩
-- SOL_CNT_BAD, offset 0x0084
def SOL_CNT_BAD : Fld := ⟨7, 0x1080, 32, 0⟩
-- SOL_CNT_FDE, offset 0x0088
def SOL_CNT_FDE : Fld := ⟨7, 0x1100, 32, 0⟩
-- SOL_CNT_FDE_FAIL, offset 0x008C
def SOL_CNT_FDE_FAIL : Fld := ⟨7, 0x1180, 32, 0⟩
-- SOL_CNT_AMB_RESET, offset 0x0090
def SOL_CNT_AMB_RESET : Fld := ⟨7, 0x1200, 32, 0⟩
-- SOL_CNT_DEADLINE, offset 0x0094
def SOL_CNT_DEADLINE : Fld := ⟨7, 0x1280, 32, 0⟩
-- SOL_CNT_MARK_REJECT, offset 0x0098
def SOL_CNT_MARK_REJECT : Fld := ⟨7, 0x1300, 32, 0⟩
-- SOL_CNT_UNPAIRED, offset 0x009C
def SOL_CNT_UNPAIRED : Fld := ⟨7, 0x1380, 32, 0⟩
-- SOL_CFG_REFUSED, offset 0x0FF0
def SOL_CFG_REFUSED_LAST_OFFSET : Fld := ⟨7, 0x1FE10, 16, 0⟩
def SOL_CFG_REFUSED_COUNT : Fld := ⟨7, 0x1FE00, 16, 0⟩

/-! ### CLM (offset base 0x08, chapter file [04]) -/
-- CLM_CTRL, offset 0x0000
def CLM_CTRL_MODE : Fld := ⟨8, 0x2, 2, 0⟩
def CLM_CTRL_FOLLOW : Fld := ⟨8, 0x1, 1, 1⟩
def CLM_CTRL_EN : Fld := ⟨8, 0x0, 1, 0⟩
-- CLM_STATUS, offset 0x0004
def CLM_STATUS_STATE : Fld := ⟨8, 0x9C, 4, 0⟩
def CLM_STATUS_STRANDED : Fld := ⟨8, 0x90, 12, 0⟩
def CLM_STATUS_BLOCKED : Fld := ⟨8, 0x80, 16, 0⟩
-- CLM_CMD, offset 0x0008
def CLM_CMD_CMD : Fld := ⟨8, 0x100, 4, 0⟩
-- CLM_CMD_RES, offset 0x000C
def CLM_CMD_RES_ERROR : Fld := ⟨8, 0x190, 16, 0⟩
def CLM_CMD_RES_CMD : Fld := ⟨8, 0x184, 4, 0⟩
def CLM_CMD_RES_STATUS : Fld := ⟨8, 0x180, 3, 0⟩
-- CLM_CFG, offset 0x0010
def CLM_CFG_MARGIN : Fld := ⟨8, 0x210, 16, 0xC8⟩
def CLM_CFG_HEADWAY : Fld := ⟨8, 0x200, 16, 0x1F4⟩
-- CLM_HORIZON, offset 0x0014
def CLM_HORIZON_HORIZON : Fld := ⟨8, 0x280, 10, 0x258⟩
-- CLM_FLUME, offset 0x0018
def CLM_FLUME_NOTE : Fld := ⟨8, 0x310, 7, 0⟩
def CLM_FLUME_RES : Fld := ⟨8, 0x308, 7, 0⟩
def CLM_FLUME_REQ : Fld := ⟨8, 0x300, 7, 0⟩
-- CLM_MAP_SERIAL, offset 0x001C
def CLM_MAP_SERIAL_SERIAL : Fld := ⟨8, 0x380, 32, 0⟩
-- CLM_MAP_ERR, offset 0x0020
def CLM_MAP_ERR_KIND : Fld := ⟨8, 0x41F, 1, 0⟩
def CLM_MAP_ERR_CHECK : Fld := ⟨8, 0x410, 4, 0⟩
def CLM_MAP_ERR_ID : Fld := ⟨8, 0x400, 13, 0⟩
-- CLM_HELD, offset 0x0024
def CLM_HELD_HELD : Fld := ⟨8, 0x480, 18, 0⟩
-- CLM_LAT, offset 0x0028
def CLM_LAT_MAX : Fld := ⟨8, 0x510, 16, 0⟩
def CLM_LAT_CLEAR : Fld := ⟨8, 0x500, 1, 0⟩
-- CLM_CNT_REQ, offset 0x0080
def CLM_CNT_REQ : Fld := ⟨8, 0x1000, 32, 0⟩
-- CLM_CNT_GRANT, offset 0x0084
def CLM_CNT_GRANT : Fld := ⟨8, 0x1080, 32, 0⟩
-- CLM_CNT_CONFLICT, offset 0x0088
def CLM_CNT_CONFLICT : Fld := ⟨8, 0x1100, 32, 0⟩
-- CLM_CNT_INVALID, offset 0x008C
def CLM_CNT_INVALID : Fld := ⟨8, 0x1180, 32, 0⟩
-- CLM_CNT_OVERDUE, offset 0x0090
def CLM_CNT_OVERDUE : Fld := ⟨8, 0x1200, 32, 0⟩
-- CLM_CNT_BLOCKED, offset 0x0094
def CLM_CNT_BLOCKED : Fld := ⟨8, 0x1280, 32, 0⟩
-- CLM_CNT_STRANDED, offset 0x0098
def CLM_CNT_STRANDED : Fld := ⟨8, 0x1300, 32, 0⟩
-- CLM_CNT_FORCE, offset 0x009C
def CLM_CNT_FORCE : Fld := ⟨8, 0x1380, 32, 0⟩
-- CLM_CNT_NOTE_DROP, offset 0x00A0
def CLM_CNT_NOTE_DROP : Fld := ⟨8, 0x1400, 32, 0⟩
-- CLM_CNT_STORE_REFUSED, offset 0x00A4
def CLM_CNT_STORE_REFUSED : Fld := ⟨8, 0x1480, 32, 0⟩
-- CLM_CFG_REFUSED, offset 0x0FF0
def CLM_CFG_REFUSED_LAST_OFFSET : Fld := ⟨8, 0x1FE10, 16, 0⟩
def CLM_CFG_REFUSED_COUNT : Fld := ⟨8, 0x1FE00, 16, 0⟩

/-! ### PRO (offset base 0x09, chapter file [05]) -/
-- PRO_CTRL, offset 0x0000
def PRO_CTRL_COAST_EN : Fld := ⟨9, 0x1, 1, 1⟩
def PRO_CTRL_EN : Fld := ⟨9, 0x0, 1, 0⟩
-- PRO_STATUS, offset 0x0004
def PRO_STATUS_OPEN : Fld := ⟨9, 0x8F, 9, 0⟩
def PRO_STATUS_MOVING : Fld := ⟨9, 0x86, 9, 0⟩
def PRO_STATUS_STATE : Fld := ⟨9, 0x80, 2, 0⟩
-- PRO_FLUME, offset 0x0008
def PRO_FLUME_RES : Fld := ⟨9, 0x108, 7, 0⟩
def PRO_FLUME_LOAD : Fld := ⟨9, 0x100, 7, 0⟩
-- PRO_GEOM_BASE, offset 0x000C
def PRO_GEOM_BASE_ADDR : Fld := ⟨9, 0x190, 16, 0⟩
-- PRO_TRACK, offset 0x0010
def PRO_TRACK_SPEED_TOL : Fld := ⟨9, 0x210, 16, 0x64⟩
def PRO_TRACK_TRACK_TOL : Fld := ⟨9, 0x200, 16, 0x32⟩
-- PRO_QUEUE, offset 0x0014
def PRO_QUEUE_LOW : Fld := ⟨9, 0x280, 5, 2⟩
-- PRO_GEOM_SIZE, offset 0x0018
def PRO_GEOM_SIZE_VERTS : Fld := ⟨9, 0x300, 19, 0⟩
-- PRO_LATE, offset 0x0040 + 0x4 * n (n < 9)
def PRO_LATE (n : Nat) : Fld := ⟨9, 0x800 + 0x80 * n, 32, 0⟩
-- PRO_CNT_LOAD, offset 0x0080
def PRO_CNT_LOAD : Fld := ⟨9, 0x1000, 32, 0⟩
-- PRO_CNT_LOAD_REFUSED, offset 0x0084
def PRO_CNT_LOAD_REFUSED : Fld := ⟨9, 0x1080, 32, 0⟩
-- PRO_CNT_REANCHOR, offset 0x0088
def PRO_CNT_REANCHOR : Fld := ⟨9, 0x1100, 32, 0⟩
-- PRO_CNT_LATE, offset 0x008C
def PRO_CNT_LATE : Fld := ⟨9, 0x1180, 32, 0⟩
-- PRO_CNT_BREACH, offset 0x0090
def PRO_CNT_BREACH : Fld := ⟨9, 0x1200, 32, 0⟩
-- PRO_CNT_DEFER, offset 0x0094
def PRO_CNT_DEFER : Fld := ⟨9, 0x1280, 32, 0⟩
-- PRO_CNT_GEOM, offset 0x0098
def PRO_CNT_GEOM : Fld := ⟨9, 0x1300, 32, 0⟩
-- PRO_CNT_RES_DROP, offset 0x009C
def PRO_CNT_RES_DROP : Fld := ⟨9, 0x1380, 32, 0⟩
-- PRO_CFG_REFUSED, offset 0x0FF0
def PRO_CFG_REFUSED_LAST_OFFSET : Fld := ⟨9, 0x1FE10, 16, 0⟩
def PRO_CFG_REFUSED_COUNT : Fld := ⟨9, 0x1FE00, 16, 0⟩
-- PRO_CH_SPEED, offset 0x1000 + 0x20 * n (n < 264)
def PRO_CH_SPEED_V_MAX (n : Nat) : Fld := ⟨9, 0x20010 + 0x400 * n, 16, 0x3E8⟩
def PRO_CH_SPEED_V_CAP (n : Nat) : Fld := ⟨9, 0x20000 + 0x400 * n, 16, 0xFFFF⟩
-- PRO_CH_ACC, offset 0x1004 + 0x20 * n (n < 264)
def PRO_CH_ACC_A_MAX (n : Nat) : Fld := ⟨9, 0x20090 + 0x400 * n, 16, 0x12C⟩
def PRO_CH_ACC_D_MAX (n : Nat) : Fld := ⟨9, 0x20080 + 0x400 * n, 16, 0x1F4⟩
-- PRO_CH_JERK, offset 0x1008 + 0x20 * n (n < 264)
def PRO_CH_JERK_J_MAX (n : Nat) : Fld := ⟨9, 0x20110 + 0x400 * n, 16, 0x3E8⟩
-- PRO_CH_STOP, offset 0x100C + 0x20 * n (n < 264)
def PRO_CH_STOP_J_STOP (n : Nat) : Fld := ⟨9, 0x20190 + 0x400 * n, 16, 0x7D0⟩
def PRO_CH_STOP_D_STOP (n : Nat) : Fld := ⟨9, 0x20180 + 0x400 * n, 16, 0x3E8⟩
-- PRO_CH_STATUS, offset 0x1010 + 0x20 * n (n < 264)
def PRO_CH_STATUS_OPEN (n : Nat) : Fld := ⟨9, 0x2021F + 0x400 * n, 1, 0⟩
def PRO_CH_STATUS_LATE (n : Nat) : Fld := ⟨9, 0x2021E + 0x400 * n, 1, 0⟩
def PRO_CH_STATUS_DEFER (n : Nat) : Fld := ⟨9, 0x2021D + 0x400 * n, 1, 0⟩
def PRO_CH_STATUS_LIMIT_KIND (n : Nat) : Fld := ⟨9, 0x2021A + 0x400 * n, 3, 0⟩
def PRO_CH_STATUS_QUEUED (n : Nat) : Fld := ⟨9, 0x20215 + 0x400 * n, 5, 0⟩
def PRO_CH_STATUS_PHASE (n : Nat) : Fld := ⟨9, 0x20212 + 0x400 * n, 3, 0⟩
def PRO_CH_STATUS_MODE (n : Nat) : Fld := ⟨9, 0x20210 + 0x400 * n, 2, 0⟩
-- PRO_CH_LIMIT, offset 0x1014 + 0x20 * n (n < 264)
def PRO_CH_LIMIT (n : Nat) : Fld := ⟨9, 0x20280 + 0x400 * n, 32, 0⟩
-- PRO_CH_POS, offset 0x1018 + 0x20 * n (n < 264)
def PRO_CH_POS (n : Nat) : Fld := ⟨9, 0x20300 + 0x400 * n, 32, 0⟩
-- PRO_CH_VEL, offset 0x101C + 0x20 * n (n < 264)
def PRO_CH_VEL (n : Nat) : Fld := ⟨9, 0x20380 + 0x400 * n, 32, 0⟩
-- PRO_FENCE_CTRL, offset 0x4000 + 0x10 * n (n < 64)
def PRO_FENCE_CTRL_EN (n : Nat) : Fld := ⟨9, 0x8001F + 0x200 * n, 1, 0⟩
def PRO_FENCE_CTRL_REACH (n : Nat) : Fld := ⟨9, 0x80000 + 0x200 * n, 13, 0⟩
-- PRO_FENCE_FROM, offset 0x4004 + 0x10 * n (n < 64)
def PRO_FENCE_FROM (n : Nat) : Fld := ⟨9, 0x80080 + 0x200 * n, 32, 0⟩
-- PRO_FENCE_TO, offset 0x4008 + 0x10 * n (n < 64)
def PRO_FENCE_TO (n : Nat) : Fld := ⟨9, 0x80100 + 0x200 * n, 32, 0⟩

/-! ### AIR (offset base 0x0A, chapter file [06]) -/
-- AIR_CTRL, offset 0x0000
def AIR_CTRL_GMEMBER : Fld := ⟨10, 0xA, 3, 0⟩
def AIR_CTRL_GROUP : Fld := ⟨10, 0x8, 2, 0⟩
def AIR_CTRL_PLAN : Fld := ⟨10, 0x7, 1, 0⟩
def AIR_CTRL_PJOIN_EN : Fld := ⟨10, 0x4, 1, 1⟩
def AIR_CTRL_JOIN_EN : Fld := ⟨10, 0x3, 1, 1⟩
def AIR_CTRL_TX_EN : Fld := ⟨10, 0x2, 1, 0⟩
def AIR_CTRL_RX_EN : Fld := ⟨10, 0x1, 1, 0⟩
def AIR_CTRL_EN : Fld := ⟨10, 0x0, 1, 0⟩
-- AIR_STATUS, offset 0x0004
def AIR_STATUS_MEMBERS : Fld := ⟨10, 0x97, 9, 0⟩
def AIR_STATUS_PERMIT : Fld := ⟨10, 0x87, 1, 0⟩
def AIR_STATUS_STATE : Fld := ⟨10, 0x80, 4, 0⟩
-- AIR_SITE, offset 0x0008
def AIR_SITE_EDITION : Fld := ⟨10, 0x115, 3, 0⟩
def AIR_SITE_SITE_ID : Fld := ⟨10, 0x100, 16, 0⟩
-- AIR_TXPWR, offset 0x000C
def AIR_TXPWR_GOV : Fld := ⟨10, 0x198, 8, 0⟩
def AIR_TXPWR_ANT_GAIN : Fld := ⟨10, 0x190, 8, 0xC⟩
def AIR_TXPWR_CARRIER : Fld := ⟨10, 0x188, 8, 0x24⟩
-- AIR_DWELL, offset 0x0010
def AIR_DWELL_RESERVE : Fld := ⟨10, 0x210, 16, 0x28⟩
def AIR_DWELL_LIMIT : Fld := ⟨10, 0x200, 16, 0x190⟩
-- AIR_DWELL_PEAK, offset 0x0014
def AIR_DWELL_PEAK_CH : Fld := ⟨10, 0x29B, 5, 0⟩
def AIR_DWELL_PEAK_USED : Fld := ⟨10, 0x280, 16, 0⟩
-- AIR_FLUME, offset 0x0018
def AIR_FLUME_DONE : Fld := ⟨10, 0x310, 7, 0⟩
def AIR_FLUME_ORD : Fld := ⟨10, 0x308, 7, 0⟩
def AIR_FLUME_RX : Fld := ⟨10, 0x300, 7, 0⟩
-- AIR_CMD, offset 0x001C
def AIR_CMD_INDEX : Fld := ⟨10, 0x388, 8, 0⟩
def AIR_CMD_CMD : Fld := ⟨10, 0x380, 4, 0⟩
-- AIR_CMD_RES, offset 0x0020
def AIR_CMD_RES_ERROR : Fld := ⟨10, 0x410, 16, 0⟩
def AIR_CMD_RES_INDEX : Fld := ⟨10, 0x408, 8, 0⟩
def AIR_CMD_RES_CMD : Fld := ⟨10, 0x404, 4, 0⟩
def AIR_CMD_RES_STATUS : Fld := ⟨10, 0x400, 3, 0⟩
-- AIR_CNT_RX_OK, offset 0x0080
def AIR_CNT_RX_OK : Fld := ⟨10, 0x1000, 32, 0⟩
-- AIR_CNT_RX_MIC, offset 0x0084
def AIR_CNT_RX_MIC : Fld := ⟨10, 0x1080, 32, 0⟩
-- AIR_CNT_RX_DUP, offset 0x0088
def AIR_CNT_RX_DUP : Fld := ⟨10, 0x1100, 32, 0⟩
-- AIR_CNT_RX_STALE, offset 0x008C
def AIR_CNT_RX_STALE : Fld := ⟨10, 0x1180, 32, 0⟩
-- AIR_CNT_RX_TIMING, offset 0x0090
def AIR_CNT_RX_TIMING : Fld := ⟨10, 0x1200, 32, 0⟩
-- AIR_CNT_JOIN_IGNORED, offset 0x0094
def AIR_CNT_JOIN_IGNORED : Fld := ⟨10, 0x1280, 32, 0⟩
-- AIR_CNT_JOIN_REFUSED, offset 0x0098
def AIR_CNT_JOIN_REFUSED : Fld := ⟨10, 0x1300, 32, 0⟩
-- AIR_CNT_GRANT_LAPSED, offset 0x009C
def AIR_CNT_GRANT_LAPSED : Fld := ⟨10, 0x1380, 32, 0⟩
-- AIR_CNT_TX_ABANDONED, offset 0x00A0
def AIR_CNT_TX_ABANDONED : Fld := ⟨10, 0x1400, 32, 0⟩
-- AIR_CNT_HOP_SKIP, offset 0x00A4
def AIR_CNT_HOP_SKIP : Fld := ⟨10, 0x1480, 32, 0⟩
-- AIR_CNT_ITEM_DEFER, offset 0x00A8
def AIR_CNT_ITEM_DEFER : Fld := ⟨10, 0x1500, 32, 0⟩
-- AIR_CNT_ORDER_FAILED, offset 0x00AC
def AIR_CNT_ORDER_FAILED : Fld := ⟨10, 0x1580, 32, 0⟩
-- AIR_CNT_LBT_BUSY, offset 0x00B0
def AIR_CNT_LBT_BUSY : Fld := ⟨10, 0x1600, 32, 0⟩
-- AIR_CNT_RX_DROP, offset 0x00B4
def AIR_CNT_RX_DROP : Fld := ⟨10, 0x1680, 32, 0⟩
-- AIR_CNT_RX_UNKNOWN, offset 0x00B8
def AIR_CNT_RX_UNKNOWN : Fld := ⟨10, 0x1700, 32, 0⟩
-- AIR_CNT_TX_WITHHELD, offset 0x00BC
def AIR_CNT_TX_WITHHELD : Fld := ⟨10, 0x1780, 32, 0⟩
-- AIR_IDX_STATE, offset 0x0100 + 0x4 * n (n < 32)
def AIR_IDX_STATE (n : Nat) : Fld := ⟨10, 0x2000 + 0x80 * n, 32, 0⟩
-- AIR_CFG_REFUSED, offset 0x0FF0
def AIR_CFG_REFUSED_LAST_OFFSET : Fld := ⟨10, 0x1FE10, 16, 0⟩
def AIR_CFG_REFUSED_COUNT : Fld := ⟨10, 0x1FE00, 16, 0⟩

/-! ### WKR (offset base 0x0B, chapter file [06]) -/
-- WKR_CTRL, offset 0x0000
def WKR_CTRL_RDV_EN : Fld := ⟨11, 0x3, 1, 0⟩
def WKR_CTRL_TX_EN : Fld := ⟨11, 0x2, 1, 0⟩
def WKR_CTRL_RX_EN : Fld := ⟨11, 0x1, 1, 1⟩
def WKR_CTRL_EN : Fld := ⟨11, 0x0, 1, 1⟩
-- WKR_ADDR, offset 0x0004
def WKR_ADDR_ALERT_BASE : Fld := ⟨11, 0x90, 16, 0⟩
def WKR_ADDR_OWN : Fld := ⟨11, 0x80, 16, 0⟩
-- WKR_PBASE, offset 0x0008
def WKR_PBASE_PARTNER_BASE : Fld := ⟨11, 0x100, 16, 0⟩
-- WKR_TX, offset 0x000C
def WKR_TX_PWR : Fld := ⟨11, 0x180, 8, 0xFC⟩
-- WKR_RDV, offset 0x0010
def WKR_RDV_MISS_LIMIT : Fld := ⟨11, 0x21C, 4, 1⟩
def WKR_RDV_RESCUE_LIMIT : Fld := ⟨11, 0x218, 4, 3⟩
def WKR_RDV_LANES : Fld := ⟨11, 0x210, 8, 0xC⟩
def WKR_RDV_G_MIN : Fld := ⟨11, 0x200, 16, 0x1F4⟩
-- WKR_RDV2, offset 0x0014
def WKR_RDV2_G_MAX : Fld := ⟨11, 0x290, 16, 0x4E20⟩
def WKR_RDV2_TEMP : Fld := ⟨11, 0x288, 8, 5⟩
def WKR_RDV2_SD_INIT : Fld := ⟨11, 0x280, 8, 0x32⟩
-- WKR_TABLE, offset 0x0018
def WKR_TABLE_ADDR : Fld := ⟨11, 0x30E, 18, 0⟩
-- WKR_STATUS, offset 0x001C
def WKR_STATUS_MEMBER : Fld := ⟨11, 0x396, 10, 0⟩
def WKR_STATUS_RESCUE : Fld := ⟨11, 0x38C, 10, 0⟩
def WKR_STATUS_LOST : Fld := ⟨11, 0x382, 10, 0⟩
def WKR_STATUS_STATE : Fld := ⟨11, 0x380, 2, 0⟩
-- WKR_CMD, offset 0x0020
def WKR_CMD_PARTNER : Fld := ⟨11, 0x408, 9, 0⟩
def WKR_CMD_CMD : Fld := ⟨11, 0x400, 4, 0⟩
-- WKR_CMD_RES, offset 0x0024
def WKR_CMD_RES_ERROR : Fld := ⟨11, 0x490, 16, 0⟩
def WKR_CMD_RES_PARTNER_LO : Fld := ⟨11, 0x488, 8, 0⟩
def WKR_CMD_RES_CMD : Fld := ⟨11, 0x484, 4, 0⟩
def WKR_CMD_RES_PARTNER_HI : Fld := ⟨11, 0x483, 1, 0⟩
def WKR_CMD_RES_STATUS : Fld := ⟨11, 0x480, 3, 0⟩
-- WKR_CNT_WAKE_TX, offset 0x0080
def WKR_CNT_WAKE_TX : Fld := ⟨11, 0x1000, 32, 0⟩
-- WKR_CNT_WAKE_RX, offset 0x0084
def WKR_CNT_WAKE_RX : Fld := ⟨11, 0x1080, 32, 0⟩
-- WKR_CNT_ALERT, offset 0x0088
def WKR_CNT_ALERT : Fld := ⟨11, 0x1100, 32, 0⟩
-- WKR_CNT_RDV_OK, offset 0x008C
def WKR_CNT_RDV_OK : Fld := ⟨11, 0x1180, 32, 0⟩
-- WKR_CNT_MISS, offset 0x0090
def WKR_CNT_MISS : Fld := ⟨11, 0x1200, 32, 0⟩
-- WKR_CNT_RESCUE, offset 0x0094
def WKR_CNT_RESCUE : Fld := ⟨11, 0x1280, 32, 0⟩
-- WKR_CNT_LOST, offset 0x0098
def WKR_CNT_LOST : Fld := ⟨11, 0x1300, 32, 0⟩
-- WKR_CNT_SCHED_FULL, offset 0x009C
def WKR_CNT_SCHED_FULL : Fld := ⟨11, 0x1380, 32, 0⟩
-- WKR_CNT_CRC_BAD, offset 0x00A0
def WKR_CNT_CRC_BAD : Fld := ⟨11, 0x1400, 32, 0⟩
-- WKR_PSTATE, offset 0x0100 + 0x4 * n (n < 64)
def WKR_PSTATE (n : Nat) : Fld := ⟨11, 0x2000 + 0x80 * n, 32, 0⟩
-- WKR_CFG_REFUSED, offset 0x0FF0
def WKR_CFG_REFUSED_LAST_OFFSET : Fld := ⟨11, 0x1FE10, 16, 0⟩
def WKR_CFG_REFUSED_COUNT : Fld := ⟨11, 0x1FE00, 16, 0⟩

/-! ### STP (offset base 0x0C, chapter file [07]) -/
-- STP_CTRL, offset 0x0000
def STP_CTRL_CAN_EN : Fld := ⟨12, 0x8, 2, 3⟩
def STP_CTRL_ETH_EN : Fld := ⟨12, 0x4, 4, 0xF⟩
def STP_CTRL_CASCADE_OUT : Fld := ⟨12, 0x3, 1, 1⟩
def STP_CTRL_REST_REQ : Fld := ⟨12, 0x2, 1, 1⟩
def STP_CTRL_TIME_STOP : Fld := ⟨12, 0x1, 1, 0⟩
-- STP_STATUS, offset 0x0004
def STP_STATUS_STATE : Fld := ⟨12, 0x9D, 3, 0⟩
def STP_STATUS_PERMIT : Fld := ⟨12, 0x9C, 1, 0⟩
def STP_STATUS_FAULT : Fld := ⟨12, 0x9A, 2, 0⟩
def STP_STATUS_INA : Fld := ⟨12, 0x99, 1, 0⟩
def STP_STATUS_INB : Fld := ⟨12, 0x98, 1, 0⟩
def STP_STATUS_STAT1 : Fld := ⟨12, 0x97, 1, 0⟩
def STP_STATUS_STAT0 : Fld := ⟨12, 0x96, 1, 0⟩
def STP_STATUS_ACTIVE : Fld := ⟨12, 0x88, 8, 0⟩
def STP_STATUS_LATCHED : Fld := ⟨12, 0x80, 8, 0⟩
-- STP_CMD, offset 0x0008
def STP_CMD_CMD : Fld := ⟨12, 0x100, 4, 0⟩
-- STP_CMD_RES, offset 0x000C
def STP_CMD_RES_ERROR : Fld := ⟨12, 0x190, 16, 0⟩
def STP_CMD_RES_CMD : Fld := ⟨12, 0x184, 4, 0⟩
def STP_CMD_RES_STATUS : Fld := ⟨12, 0x180, 3, 0⟩
-- STP_INPUT, offset 0x0010
def STP_INPUT_DISC : Fld := ⟨12, 0x210, 16, 0x64⟩
def STP_INPUT_FILTER : Fld := ⟨12, 0x200, 16, 0x5DC⟩
-- STP_BURST, offset 0x0014
def STP_BURST_REPEAT : Fld := ⟨12, 0x280, 4, 2⟩
-- STP_EPOCH_LO, offset 0x0020
def STP_EPOCH_LO : Fld := ⟨12, 0x400, 32, 0⟩
-- STP_EPOCH_HI, offset 0x0024
def STP_EPOCH_HI : Fld := ⟨12, 0x480, 32, 0⟩
-- STP_EPOCH_CYC, offset 0x0028
def STP_EPOCH_CYC : Fld := ⟨12, 0x500, 32, 0⟩
-- STP_SERIAL, offset 0x002C
def STP_SERIAL_FIRST : Fld := ⟨12, 0x598, 8, 0⟩
def STP_SERIAL_SERIAL : Fld := ⟨12, 0x580, 16, 0⟩
-- STP_LAT, offset 0x0030
def STP_LAT_MAX : Fld := ⟨12, 0x610, 16, 0⟩
def STP_LAT_CLEAR : Fld := ⟨12, 0x600, 1, 0⟩
-- STP_ETH_DA_LO, offset 0x0040
def STP_ETH_DA_LO : Fld := ⟨12, 0x800, 32, 0x554F0003⟩
-- STP_ETH_DA_HI, offset 0x0044
def STP_ETH_DA_HI : Fld := ⟨12, 0x880, 16, 0x100⟩
-- STP_ETH_VLAN, offset 0x0048
def STP_ETH_VLAN_TAG : Fld := ⟨12, 0x910, 1, 0⟩
def STP_ETH_VLAN_PCP : Fld := ⟨12, 0x90D, 3, 7⟩
def STP_ETH_VLAN_DEI : Fld := ⟨12, 0x90C, 1, 0⟩
def STP_ETH_VLAN_VID : Fld := ⟨12, 0x900, 12, 0⟩
-- STP_CAN_CFG, offset 0x004C
def STP_CAN_CFG_IDE : Fld := ⟨12, 0x99F, 1, 0⟩
def STP_CAN_CFG_ID : Fld := ⟨12, 0x980, 29, 0x10⟩
-- STP_STAT_OUT, offset 0x0050
def STP_STAT_OUT_SEL1 : Fld := ⟨12, 0xA04, 4, 2⟩
def STP_STAT_OUT_SEL0 : Fld := ⟨12, 0xA00, 4, 0⟩
-- STP_CNT_EPOCH, offset 0x0080
def STP_CNT_EPOCH : Fld := ⟨12, 0x1000, 32, 0⟩
-- STP_CNT_DISC, offset 0x0084
def STP_CNT_DISC : Fld := ⟨12, 0x1080, 32, 0⟩
-- STP_CNT_DWELL_SKIP, offset 0x0088
def STP_CNT_DWELL_SKIP : Fld := ⟨12, 0x1100, 32, 0⟩
-- STP_CNT_RELEASE_REFUSED, offset 0x008C
def STP_CNT_RELEASE_REFUSED : Fld := ⟨12, 0x1180, 32, 0⟩
-- STP_CNT_LBT_DELAY, offset 0x0090
def STP_CNT_LBT_DELAY : Fld := ⟨12, 0x1200, 32, 0⟩
-- STP_CNT_WD_TRIP, offset 0x0094
def STP_CNT_WD_TRIP : Fld := ⟨12, 0x1280, 32, 0⟩
-- STP_CNT_STAT_FAULT, offset 0x0098
def STP_CNT_STAT_FAULT : Fld := ⟨12, 0x1300, 32, 0⟩
-- STP_CFG_REFUSED, offset 0x0FF0
def STP_CFG_REFUSED_LAST_OFFSET : Fld := ⟨12, 0x1FE10, 16, 0⟩
def STP_CFG_REFUSED_COUNT : Fld := ⟨12, 0x1FE00, 16, 0⟩

/-! ### ETH (offset base 0x0D, chapter file [11]) -/
-- ETH_CTRL, offset 0x0000
def ETH_CTRL_ALL_MC (p : Nat) : Fld := ⟨13, 0xF + 0x200000 * p, 1, 0⟩
def ETH_CTRL_PROMISC (p : Nat) : Fld := ⟨13, 0xE + 0x200000 * p, 1, 0⟩
def ETH_CTRL_SPEED (p : Nat) : Fld := ⟨13, 0xC + 0x200000 * p, 2, 0⟩
def ETH_CTRL_DEFAULT_PCP (p : Nat) : Fld := ⟨13, 0x9 + 0x200000 * p, 3, 0⟩
def ETH_CTRL_PLCA_EN (p : Nat) : Fld := ⟨13, 0x3 + 0x200000 * p, 1, 0⟩
def ETH_CTRL_TX_EN (p : Nat) : Fld := ⟨13, 0x2 + 0x200000 * p, 1, 0⟩
def ETH_CTRL_RX_EN (p : Nat) : Fld := ⟨13, 0x1 + 0x200000 * p, 1, 0⟩
def ETH_CTRL_EN (p : Nat) : Fld := ⟨13, 0x0 + 0x200000 * p, 1, 0⟩
-- ETH_STATUS, offset 0x0004
def ETH_STATUS_LINK (p : Nat) : Fld := ⟨13, 0x9F + 0x200000 * p, 1, 0⟩
def ETH_STATUS_SPEED (p : Nat) : Fld := ⟨13, 0x9D + 0x200000 * p, 2, 0⟩
def ETH_STATUS_VERIFY (p : Nat) : Fld := ⟨13, 0x9A + 0x200000 * p, 3, 0⟩
def ETH_STATUS_PREEMPT (p : Nat) : Fld := ⟨13, 0x99 + 0x200000 * p, 1, 0⟩
def ETH_STATUS_PLCA (p : Nat) : Fld := ⟨13, 0x97 + 0x200000 * p, 2, 0⟩
-- ETH_MAC_LO, offset 0x0008
def ETH_MAC_LO (p : Nat) : Fld := ⟨13, 0x100 + 0x200000 * p, 32, 0⟩
-- ETH_MAC_HI, offset 0x000C
def ETH_MAC_HI (p : Nat) : Fld := ⟨13, 0x180 + 0x200000 * p, 16, 0⟩
-- ETH_PHY_ADJ, offset 0x0010
def ETH_PHY_ADJ_TX_ADJ (p : Nat) : Fld := ⟨13, 0x210 + 0x200000 * p, 16, 0⟩
def ETH_PHY_ADJ_RX_ADJ (p : Nat) : Fld := ⟨13, 0x200 + 0x200000 * p, 16, 0⟩
-- ETH_PREEMPT, offset 0x0014
def ETH_PREEMPT_VERIFY_TIME (p : Nat) : Fld := ⟨13, 0x290 + 0x200000 * p, 8, 0xA⟩
def ETH_PREEMPT_QMASK (p : Nat) : Fld := ⟨13, 0x288 + 0x200000 * p, 8, 0x3F⟩
def ETH_PREEMPT_ADD_FRAG (p : Nat) : Fld := ⟨13, 0x282 + 0x200000 * p, 2, 0⟩
def ETH_PREEMPT_VERIFY_DIS (p : Nat) : Fld := ⟨13, 0x281 + 0x200000 * p, 1, 0⟩
def ETH_PREEMPT_EN (p : Nat) : Fld := ⟨13, 0x280 + 0x200000 * p, 1, 1⟩
-- ETH_PLCA, offset 0x0018
def ETH_PLCA_BURST_TMR (p : Nat) : Fld := ⟨13, 0x318 + 0x200000 * p, 8, 0x80⟩
def ETH_PLCA_TO_TIMER (p : Nat) : Fld := ⟨13, 0x310 + 0x200000 * p, 8, 0x20⟩
def ETH_PLCA_NODE_COUNT (p : Nat) : Fld := ⟨13, 0x308 + 0x200000 * p, 8, 8⟩
def ETH_PLCA_NODE_ID (p : Nat) : Fld := ⟨13, 0x304 + 0x200000 * p, 4, 0⟩
def ETH_PLCA_BURST_CNT (p : Nat) : Fld := ⟨13, 0x300 + 0x200000 * p, 4, 0⟩
-- ETH_RX_MAP, offset 0x001C
def ETH_RX_MAP_RING (p : Nat) : Fld := ⟨13, 0x380 + 0x200000 * p, 16, 0⟩
-- ETH_MC_HASH_LO, offset 0x0020
def ETH_MC_HASH_LO (p : Nat) : Fld := ⟨13, 0x400 + 0x200000 * p, 32, 0⟩
-- ETH_MC_HASH_HI, offset 0x0024
def ETH_MC_HASH_HI (p : Nat) : Fld := ⟨13, 0x480 + 0x200000 * p, 32, 0⟩
-- ETH_CMD, offset 0x0028
def ETH_CMD_QUEUE (p : Nat) : Fld := ⟨13, 0x508 + 0x200000 * p, 3, 0⟩
def ETH_CMD_CMD (p : Nat) : Fld := ⟨13, 0x500 + 0x200000 * p, 4, 0⟩
-- ETH_CMD_RES, offset 0x002C
def ETH_CMD_RES_ERROR (p : Nat) : Fld := ⟨13, 0x590 + 0x200000 * p, 16, 0⟩
def ETH_CMD_RES_CMD (p : Nat) : Fld := ⟨13, 0x584 + 0x200000 * p, 4, 0⟩
def ETH_CMD_RES_STATUS (p : Nat) : Fld := ⟨13, 0x580 + 0x200000 * p, 3, 0⟩
-- ETH_POOL, offset 0x0030
def ETH_POOL_ADDR (p : Nat) : Fld := ⟨13, 0x614 + 0x200000 * p, 12, 0⟩
def ETH_POOL_MIB (p : Nat) : Fld := ⟨13, 0x600 + 0x200000 * p, 3, 0⟩
-- ETH_POOL_STATUS, offset 0x0034
def ETH_POOL_STATUS_FREE (p : Nat) : Fld := ⟨13, 0x680 + 0x200000 * p, 15, 0⟩
-- ETH_RING_BASE, offset 0x0040 + 0x10 * n (n < 4)
def ETH_RING_BASE_ADDR (p n : Nat) : Fld := ⟨13, 0x805 + 0x200000 * p + 0x200 * n, 27, 0⟩
-- ETH_RING_CTRL, offset 0x0044 + 0x10 * n (n < 4)
def ETH_RING_CTRL_EN (p n : Nat) : Fld := ⟨13, 0x89F + 0x200000 * p + 0x200 * n, 1, 0⟩
def ETH_RING_CTRL_LOG2 (p n : Nat) : Fld := ⟨13, 0x890 + 0x200000 * p + 0x200 * n, 4, 2⟩
def ETH_RING_CTRL_NOTE_EN (p n : Nat) : Fld := ⟨13, 0x88F + 0x200000 * p + 0x200 * n, 1, 0⟩
def ETH_RING_CTRL_FLUME (p n : Nat) : Fld := ⟨13, 0x888 + 0x200000 * p + 0x200 * n, 7, 0⟩
-- ETH_RING_RETURN, offset 0x0048 + 0x10 * n (n < 4)
def ETH_RING_RETURN (p n : Nat) : Fld := ⟨13, 0x900 + 0x200000 * p + 0x200 * n, 11, 0⟩
-- ETH_RING_STATUS, offset 0x004C + 0x10 * n (n < 4)
def ETH_RING_STATUS_HEAD (p n : Nat) : Fld := ⟨13, 0x990 + 0x200000 * p + 0x200 * n, 10, 0⟩
def ETH_RING_STATUS_READY (p n : Nat) : Fld := ⟨13, 0x980 + 0x200000 * p + 0x200 * n, 11, 0⟩
-- ETH_TXQ_BASE, offset 0x0080 + 0x10 * n (n < 8)
def ETH_TXQ_BASE_ADDR (p n : Nat) : Fld := ⟨13, 0x1004 + 0x200000 * p + 0x200 * n, 28, 0⟩
-- ETH_TXQ_CTRL, offset 0x0084 + 0x10 * n (n < 8)
def ETH_TXQ_CTRL_EN (p n : Nat) : Fld := ⟨13, 0x109F + 0x200000 * p + 0x200 * n, 1, 0⟩
def ETH_TXQ_CTRL_KICK (p n : Nat) : Fld := ⟨13, 0x109E + 0x200000 * p + 0x200 * n, 1, 0⟩
def ETH_TXQ_CTRL_LOG2 (p n : Nat) : Fld := ⟨13, 0x1090 + 0x200000 * p + 0x200 * n, 4, 2⟩
def ETH_TXQ_CTRL_NOTE_EN (p n : Nat) : Fld := ⟨13, 0x108F + 0x200000 * p + 0x200 * n, 1, 0⟩
def ETH_TXQ_CTRL_FLUME (p n : Nat) : Fld := ⟨13, 0x1088 + 0x200000 * p + 0x200 * n, 7, 0⟩
-- ETH_TXQ_STATUS, offset 0x0088 + 0x10 * n (n < 8)
def ETH_TXQ_STATUS_HEAD (p n : Nat) : Fld := ⟨13, 0x1110 + 0x200000 * p + 0x200 * n, 10, 0⟩
def ETH_TXQ_STATUS_PENDING (p n : Nat) : Fld := ⟨13, 0x1100 + 0x200000 * p + 0x200 * n, 11, 0⟩
-- ETH_GCL_CTRL, offset 0x0100
def ETH_GCL_CTRL_EN (p : Nat) : Fld := ⟨13, 0x201F + 0x200000 * p, 1, 0⟩
def ETH_GCL_CTRL_TBASE (p : Nat) : Fld := ⟨13, 0x201E + 0x200000 * p, 1, 0⟩
def ETH_GCL_CTRL_PENDING (p : Nat) : Fld := ⟨13, 0x201D + 0x200000 * p, 1, 0⟩
def ETH_GCL_CTRL_OPER (p : Nat) : Fld := ⟨13, 0x201C + 0x200000 * p, 1, 0⟩
def ETH_GCL_CTRL_LEN (p : Nat) : Fld := ⟨13, 0x2000 + 0x200000 * p, 9, 0⟩
-- ETH_GCL_BASE_LO, offset 0x0104
def ETH_GCL_BASE_LO (p : Nat) : Fld := ⟨13, 0x2080 + 0x200000 * p, 32, 0⟩
-- ETH_GCL_BASE_HI, offset 0x0108
def ETH_GCL_BASE_HI (p : Nat) : Fld := ⟨13, 0x2100 + 0x200000 * p, 32, 0⟩
-- ETH_GCL_CYCLE, offset 0x010C
def ETH_GCL_CYCLE (p : Nat) : Fld := ⟨13, 0x2180 + 0x200000 * p, 32, 0⟩
-- ETH_TSQ_0, offset 0x0120
def ETH_TSQ_0_VALID (p : Nat) : Fld := ⟨13, 0x241F + 0x200000 * p, 1, 0⟩
def ETH_TSQ_0_QUEUE (p : Nat) : Fld := ⟨13, 0x2410 + 0x200000 * p, 3, 0⟩
def ETH_TSQ_0_SEQ (p : Nat) : Fld := ⟨13, 0x2400 + 0x200000 * p, 16, 0⟩
-- ETH_TSQ, offset 0x0124 + 0x4 * n (n < 5)
def ETH_TSQ (p n : Nat) : Fld := ⟨13, 0x2480 + 0x200000 * p + 0x80 * n, 32, 0⟩
-- ETH_TSQ_STATUS, offset 0x0138
def ETH_TSQ_STATUS (p : Nat) : Fld := ⟨13, 0x2700 + 0x200000 * p, 7, 0⟩
-- ETH_CNT_RX_OCTETS, offset 0x0200
def ETH_CNT_RX_OCTETS (p : Nat) : Fld := ⟨13, 0x4000 + 0x200000 * p, 32, 0⟩
-- ETH_CNT_RX_FRAMES, offset 0x0204
def ETH_CNT_RX_FRAMES (p : Nat) : Fld := ⟨13, 0x4080 + 0x200000 * p, 32, 0⟩
-- ETH_CNT_RX_UNICAST, offset 0x0208
def ETH_CNT_RX_UNICAST (p : Nat) : Fld := ⟨13, 0x4100 + 0x200000 * p, 32, 0⟩
-- ETH_CNT_RX_MULTICAST, offset 0x020C
def ETH_CNT_RX_MULTICAST (p : Nat) : Fld := ⟨13, 0x4180 + 0x200000 * p, 32, 0⟩
-- ETH_CNT_RX_BROADCAST, offset 0x0210
def ETH_CNT_RX_BROADCAST (p : Nat) : Fld := ⟨13, 0x4200 + 0x200000 * p, 32, 0⟩
-- ETH_CNT_RX_VLAN, offset 0x0214
def ETH_CNT_RX_VLAN (p : Nat) : Fld := ⟨13, 0x4280 + 0x200000 * p, 32, 0⟩
-- ETH_CNT_RX_PTP, offset 0x0218
def ETH_CNT_RX_PTP (p : Nat) : Fld := ⟨13, 0x4300 + 0x200000 * p, 32, 0⟩
-- ETH_CNT_RX_PAUSE, offset 0x021C
def ETH_CNT_RX_PAUSE (p : Nat) : Fld := ⟨13, 0x4380 + 0x200000 * p, 32, 0⟩
-- ETH_CNT_RX_FILTERED, offset 0x0220
def ETH_CNT_RX_FILTERED (p : Nat) : Fld := ⟨13, 0x4400 + 0x200000 * p, 32, 0⟩
-- ETH_CNT_RX_FCS_ERR, offset 0x0224
def ETH_CNT_RX_FCS_ERR (p : Nat) : Fld := ⟨13, 0x4480 + 0x200000 * p, 32, 0⟩
-- ETH_CNT_RX_ALIGN_ERR, offset 0x0228
def ETH_CNT_RX_ALIGN_ERR (p : Nat) : Fld := ⟨13, 0x4500 + 0x200000 * p, 32, 0⟩
-- ETH_CNT_RX_SYMBOL_ERR, offset 0x022C
def ETH_CNT_RX_SYMBOL_ERR (p : Nat) : Fld := ⟨13, 0x4580 + 0x200000 * p, 32, 0⟩
-- ETH_CNT_RX_RUNT, offset 0x0230
def ETH_CNT_RX_RUNT (p : Nat) : Fld := ⟨13, 0x4600 + 0x200000 * p, 32, 0⟩
-- ETH_CNT_RX_OVERSIZE, offset 0x0234
def ETH_CNT_RX_OVERSIZE (p : Nat) : Fld := ⟨13, 0x4680 + 0x200000 * p, 32, 0⟩
-- ETH_CNT_RX_RING_DROP, offset 0x0238
def ETH_CNT_RX_RING_DROP (p : Nat) : Fld := ⟨13, 0x4700 + 0x200000 * p, 32, 0⟩
-- ETH_CNT_RX_POOL_DROP, offset 0x023C
def ETH_CNT_RX_POOL_DROP (p : Nat) : Fld := ⟨13, 0x4780 + 0x200000 * p, 32, 0⟩
-- ETH_CNT_RX_RING0, offset 0x0240
def ETH_CNT_RX_RING0 (p : Nat) : Fld := ⟨13, 0x4800 + 0x200000 * p, 32, 0⟩
-- ETH_CNT_RX_RING1, offset 0x0244
def ETH_CNT_RX_RING1 (p : Nat) : Fld := ⟨13, 0x4880 + 0x200000 * p, 32, 0⟩
-- ETH_CNT_RX_RING2, offset 0x0248
def ETH_CNT_RX_RING2 (p : Nat) : Fld := ⟨13, 0x4900 + 0x200000 * p, 32, 0⟩
-- ETH_CNT_RX_RING3, offset 0x024C
def ETH_CNT_RX_RING3 (p : Nat) : Fld := ⟨13, 0x4980 + 0x200000 * p, 32, 0⟩
-- ETH_CNT_RX_ASSY_OK, offset 0x0250
def ETH_CNT_RX_ASSY_OK (p : Nat) : Fld := ⟨13, 0x4A00 + 0x200000 * p, 32, 0⟩
-- ETH_CNT_RX_ASSY_ERR, offset 0x0254
def ETH_CNT_RX_ASSY_ERR (p : Nat) : Fld := ⟨13, 0x4A80 + 0x200000 * p, 32, 0⟩
-- ETH_CNT_RX_SMD_ERR, offset 0x0258
def ETH_CNT_RX_SMD_ERR (p : Nat) : Fld := ⟨13, 0x4B00 + 0x200000 * p, 32, 0⟩
-- ETH_CNT_RX_FRAG, offset 0x025C
def ETH_CNT_RX_FRAG (p : Nat) : Fld := ⟨13, 0x4B80 + 0x200000 * p, 32, 0⟩
-- ETH_CNT_TX_OCTETS, offset 0x0260
def ETH_CNT_TX_OCTETS (p : Nat) : Fld := ⟨13, 0x4C00 + 0x200000 * p, 32, 0⟩
-- ETH_CNT_TX_FRAMES, offset 0x0264
def ETH_CNT_TX_FRAMES (p : Nat) : Fld := ⟨13, 0x4C80 + 0x200000 * p, 32, 0⟩
-- ETH_CNT_TX_UNICAST, offset 0x0268
def ETH_CNT_TX_UNICAST (p : Nat) : Fld := ⟨13, 0x4D00 + 0x200000 * p, 32, 0⟩
-- ETH_CNT_TX_MULTICAST, offset 0x026C
def ETH_CNT_TX_MULTICAST (p : Nat) : Fld := ⟨13, 0x4D80 + 0x200000 * p, 32, 0⟩
-- ETH_CNT_TX_BROADCAST, offset 0x0270
def ETH_CNT_TX_BROADCAST (p : Nat) : Fld := ⟨13, 0x4E00 + 0x200000 * p, 32, 0⟩
-- ETH_CNT_TX_STOP, offset 0x0274
def ETH_CNT_TX_STOP (p : Nat) : Fld := ⟨13, 0x4E80 + 0x200000 * p, 32, 0⟩
-- ETH_CNT_TX_PREEMPTED, offset 0x0278
def ETH_CNT_TX_PREEMPTED (p : Nat) : Fld := ⟨13, 0x4F00 + 0x200000 * p, 32, 0⟩
-- ETH_CNT_TX_FRAG, offset 0x027C
def ETH_CNT_TX_FRAG (p : Nat) : Fld := ⟨13, 0x4F80 + 0x200000 * p, 32, 0⟩
-- ETH_CNT_TX_VERIFY_OK, offset 0x0280
def ETH_CNT_TX_VERIFY_OK (p : Nat) : Fld := ⟨13, 0x5000 + 0x200000 * p, 32, 0⟩
-- ETH_CNT_TX_VERIFY_FAIL, offset 0x0284
def ETH_CNT_TX_VERIFY_FAIL (p : Nat) : Fld := ⟨13, 0x5080 + 0x200000 * p, 32, 0⟩
-- ETH_CNT_TX_GATE_HELD, offset 0x0288
def ETH_CNT_TX_GATE_HELD (p : Nat) : Fld := ⟨13, 0x5100 + 0x200000 * p, 32, 0⟩
-- ETH_CNT_TX_UNDERRUN, offset 0x028C
def ETH_CNT_TX_UNDERRUN (p : Nat) : Fld := ⟨13, 0x5180 + 0x200000 * p, 32, 0⟩
-- ETH_CNT_TX_STAMPED, offset 0x0290
def ETH_CNT_TX_STAMPED (p : Nat) : Fld := ⟨13, 0x5200 + 0x200000 * p, 32, 0⟩
-- ETH_CNT_TX_STAMP_LOST, offset 0x0294
def ETH_CNT_TX_STAMP_LOST (p : Nat) : Fld := ⟨13, 0x5280 + 0x200000 * p, 32, 0⟩
-- ETH_CNT_TX_ONE_STEP, offset 0x0298
def ETH_CNT_TX_ONE_STEP (p : Nat) : Fld := ⟨13, 0x5300 + 0x200000 * p, 32, 0⟩
-- ETH_CNT_TX_COLLISION, offset 0x029C
def ETH_CNT_TX_COLLISION (p : Nat) : Fld := ⟨13, 0x5380 + 0x200000 * p, 32, 0⟩
-- ETH_CNT_TX_LATE_COLL, offset 0x02A0
def ETH_CNT_TX_LATE_COLL (p : Nat) : Fld := ⟨13, 0x5400 + 0x200000 * p, 32, 0⟩
-- ETH_CNT_TX_EXCESS_COLL, offset 0x02A4
def ETH_CNT_TX_EXCESS_COLL (p : Nat) : Fld := ⟨13, 0x5480 + 0x200000 * p, 32, 0⟩
-- ETH_CNT_TX_CANCELLED, offset 0x02A8
def ETH_CNT_TX_CANCELLED (p : Nat) : Fld := ⟨13, 0x5500 + 0x200000 * p, 32, 0⟩
-- ETH_CNT_LINK_DOWN, offset 0x02AC
def ETH_CNT_LINK_DOWN (p : Nat) : Fld := ⟨13, 0x5580 + 0x200000 * p, 32, 0⟩
-- ETH_CNT_PLCA_EARLY_BEACON, offset 0x02B0
def ETH_CNT_PLCA_EARLY_BEACON (p : Nat) : Fld := ⟨13, 0x5600 + 0x200000 * p, 32, 0⟩
-- ETH_CNT_PLCA_BEACON_LOST, offset 0x02B4
def ETH_CNT_PLCA_BEACON_LOST (p : Nat) : Fld := ⟨13, 0x5680 + 0x200000 * p, 32, 0⟩
-- ETH_CNT_GCL_SWITCH, offset 0x02B8
def ETH_CNT_GCL_SWITCH (p : Nat) : Fld := ⟨13, 0x5700 + 0x200000 * p, 32, 0⟩
-- ETH_CNT_GCL_RESYNC, offset 0x02BC
def ETH_CNT_GCL_RESYNC (p : Nat) : Fld := ⟨13, 0x5780 + 0x200000 * p, 32, 0⟩
-- ETH_CNT_HALF, offset 0x02C0 + 0x4 * n (n < 2)
def ETH_CNT_HALF (p n : Nat) : Fld := ⟨13, 0x5800 + 0x200000 * p + 0x80 * n, 32, 0⟩
-- ETH_CFG_REFUSED, offset 0x0FF0
def ETH_CFG_REFUSED_LAST_OFFSET (p : Nat) : Fld := ⟨13, 0x1FE10 + 0x200000 * p, 16, 0⟩
def ETH_CFG_REFUSED_COUNT (p : Nat) : Fld := ⟨13, 0x1FE00 + 0x200000 * p, 16, 0⟩
-- ETH_GCL, offset 0x1000 + 0x400 * n (n < 2) + 0x4 * m (m < 256)
def ETH_GCL_GATES (p n m : Nat) : Fld := ⟨13, 0x20018 + 0x200000 * p + 0x8000 * n + 0x80 * m, 8, 0xFF⟩
def ETH_GCL_INTERVAL (p n m : Nat) : Fld := ⟨13, 0x20000 + 0x200000 * p + 0x8000 * n + 0x80 * m, 24, 0⟩

/-! ### PTC (offset base 0x11, chapter file [11, 20]) -/
-- PTC_CTRL, offset 0x0000
def PTC_CTRL_DOMAIN : Fld := ⟨17, 0x18, 8, 0⟩
def PTC_CTRL_PORT_EN : Fld := ⟨17, 0x10, 4, 0⟩
def PTC_CTRL_MASTER_ONLY : Fld := ⟨17, 0xC, 4, 0⟩
def PTC_CTRL_ROLE : Fld := ⟨17, 0x8, 2, 0⟩
def PTC_CTRL_PROFILE : Fld := ⟨17, 0x6, 2, 0⟩
def PTC_CTRL_TRANSPORT : Fld := ⟨17, 0x5, 1, 0⟩
def PTC_CTRL_ONE_STEP : Fld := ⟨17, 0x4, 1, 0⟩
def PTC_CTRL_EN : Fld := ⟨17, 0x0, 1, 0⟩
-- PTC_TIME_CFG, offset 0x0004
def PTC_TIME_CFG_TC : Fld := ⟨17, 0x98, 8, 0x10⟩
def PTC_TIME_CFG_SRC : Fld := ⟨17, 0x8E, 2, 2⟩
def PTC_TIME_CFG_STEP_LIM : Fld := ⟨17, 0x80, 14, 0x3E8⟩
-- PTC_INTERVAL, offset 0x0008
def PTC_INTERVAL_ANN_TIMEOUT : Fld := ⟨17, 0x118, 4, 3⟩
def PTC_INTERVAL_LOG_PDELAY : Fld := ⟨17, 0x114, 4, 0⟩
def PTC_INTERVAL_LOG_DELAY_REQ : Fld := ⟨17, 0x110, 4, 0⟩
def PTC_INTERVAL_LOG_ANNOUNCE : Fld := ⟨17, 0x108, 4, 1⟩
def PTC_INTERVAL_LOG_SYNC : Fld := ⟨17, 0x100, 4, 0xD⟩
-- PTC_DS, offset 0x000C
def PTC_DS_PRIORITY1 : Fld := ⟨17, 0x190, 8, 0x80⟩
def PTC_DS_PRIORITY2 : Fld := ⟨17, 0x188, 8, 0x80⟩
-- PTC_CLOCK, offset 0x0010
def PTC_CLOCK_CLASS : Fld := ⟨17, 0x218, 8, 0xF8⟩
def PTC_CLOCK_ACCURACY : Fld := ⟨17, 0x210, 8, 0xFE⟩
def PTC_CLOCK_SOURCE : Fld := ⟨17, 0x208, 8, 0xA0⟩
def PTC_CLOCK_UTC_OFFSET : Fld := ⟨17, 0x200, 8, 0⟩
-- PTC_STATUS, offset 0x0014
def PTC_STATUS_APART : Fld := ⟨17, 0x29F, 1, 0⟩
def PTC_STATUS_HOLDOVER : Fld := ⟨17, 0x29E, 1, 0⟩
def PTC_STATUS_UTC_VALID : Fld := ⟨17, 0x29D, 1, 0⟩
def PTC_STATUS_SITE_SRC : Fld := ⟨17, 0x29B, 2, 3⟩
def PTC_STATUS_SLAVE_PORT : Fld := ⟨17, 0x298, 3, 7⟩
def PTC_STATUS_PORT_STATE : Fld := ⟨17, 0x280, 16, 0⟩
-- PTC_GM_ID_LO, offset 0x0018
def PTC_GM_ID_LO : Fld := ⟨17, 0x300, 32, 0⟩
-- PTC_GM_ID_HI, offset 0x001C
def PTC_GM_ID_HI : Fld := ⟨17, 0x380, 32, 0⟩
-- PTC_OFFSET, offset 0x0020
def PTC_OFFSET : Fld := ⟨17, 0x400, 32, 0⟩
-- PTC_DELAY, offset 0x0024
def PTC_DELAY : Fld := ⟨17, 0x480, 32, 0⟩
-- PTC_DIFF_LO, offset 0x0028
def PTC_DIFF_LO : Fld := ⟨17, 0x500, 32, 0⟩
-- PTC_DIFF_HI, offset 0x002C
def PTC_DIFF_HI : Fld := ⟨17, 0x580, 32, 0⟩
-- PTC_FRC_LO, offset 0x0030
def PTC_FRC_LO : Fld := ⟨17, 0x600, 32, 0⟩
-- PTC_FRC_HI, offset 0x0034
def PTC_FRC_HI : Fld := ⟨17, 0x680, 32, 0⟩
-- PTC_INC_SITE, offset 0x0038
def PTC_INC_SITE : Fld := ⟨17, 0x700, 32, 0⟩
-- PTC_INC_PORT, offset 0x003C
def PTC_INC_PORT : Fld := ⟨17, 0x780, 32, 0⟩
-- PTC_STEP_LO, offset 0x0040
def PTC_STEP_LO : Fld := ⟨17, 0x800, 32, 0⟩
-- PTC_STEP_HI, offset 0x0044
def PTC_STEP_HI : Fld := ⟨17, 0x880, 32, 0⟩
-- PTC_CMD, offset 0x0048
def PTC_CMD_CMD : Fld := ⟨17, 0x900, 4, 0⟩
-- PTC_CMD_RES, offset 0x004C
def PTC_CMD_RES_ERROR : Fld := ⟨17, 0x990, 16, 0⟩
def PTC_CMD_RES_CMD : Fld := ⟨17, 0x984, 4, 0⟩
def PTC_CMD_RES_STATUS : Fld := ⟨17, 0x980, 3, 0⟩
-- PTC_PPSIN_LO, offset 0x0050
def PTC_PPSIN_LO : Fld := ⟨17, 0xA00, 32, 0⟩
-- PTC_PPSIN_HI, offset 0x0054
def PTC_PPSIN_HI : Fld := ⟨17, 0xA80, 32, 0⟩
-- PTC_PPSIN_CNT, offset 0x0058
def PTC_PPSIN_CNT : Fld := ⟨17, 0xB00, 32, 0⟩
-- PTC_CNT_SYNC_TX, offset 0x0080
def PTC_CNT_SYNC_TX : Fld := ⟨17, 0x1000, 32, 0⟩
-- PTC_CNT_SYNC_RX, offset 0x0084
def PTC_CNT_SYNC_RX : Fld := ⟨17, 0x1080, 32, 0⟩
-- PTC_CNT_ANNOUNCE_RX, offset 0x0088
def PTC_CNT_ANNOUNCE_RX : Fld := ⟨17, 0x1100, 32, 0⟩
-- PTC_CNT_DELAY_RX, offset 0x008C
def PTC_CNT_DELAY_RX : Fld := ⟨17, 0x1180, 32, 0⟩
-- PTC_CNT_MSG_BAD, offset 0x0090
def PTC_CNT_MSG_BAD : Fld := ⟨17, 0x1200, 32, 0⟩
-- PTC_CNT_MGMT_DROP, offset 0x0094
def PTC_CNT_MGMT_DROP : Fld := ⟨17, 0x1280, 32, 0⟩
-- PTC_CNT_PORT_STEP, offset 0x0098
def PTC_CNT_PORT_STEP : Fld := ⟨17, 0x1300, 32, 0⟩
-- PTC_CNT_MASTER_LOST, offset 0x009C
def PTC_CNT_MASTER_LOST : Fld := ⟨17, 0x1380, 32, 0⟩
-- PTC_CNT_APART, offset 0x00A0
def PTC_CNT_APART : Fld := ⟨17, 0x1400, 32, 0⟩
-- PTC_CFG_REFUSED, offset 0x0FF0
def PTC_CFG_REFUSED_LAST_OFFSET : Fld := ⟨17, 0x1FE10, 16, 0⟩
def PTC_CFG_REFUSED_COUNT : Fld := ⟨17, 0x1FE00, 16, 0⟩

/-! ### CAN (offset base 0x12, chapter file [13]) -/
-- CAN_CTRL, offset 0x0000
def CAN_CTRL_DWELL (p : Nat) : Fld := ⟨18, 0x18 + 0x200000 * p, 8, 0xC8⟩
def CAN_CTRL_WAKE_MODE (p : Nat) : Fld := ⟨18, 0x8 + 0x200000 * p, 2, 1⟩
def CAN_CTRL_AUTO_RECOVER (p : Nat) : Fld := ⟨18, 0x7 + 0x200000 * p, 1, 1⟩
def CAN_CTRL_AUTO_JOIN (p : Nat) : Fld := ⟨18, 0x6 + 0x200000 * p, 1, 0⟩
def CAN_CTRL_FD_EN (p : Nat) : Fld := ⟨18, 0x5 + 0x200000 * p, 1, 1⟩
def CAN_CTRL_SLEEP (p : Nat) : Fld := ⟨18, 0x4 + 0x200000 * p, 1, 0⟩
def CAN_CTRL_REQ_MODE (p : Nat) : Fld := ⟨18, 0x2 + 0x200000 * p, 2, 0⟩
def CAN_CTRL_TERM (p : Nat) : Fld := ⟨18, 0x1 + 0x200000 * p, 1, 0⟩
def CAN_CTRL_EN (p : Nat) : Fld := ⟨18, 0x0 + 0x200000 * p, 1, 0⟩
-- CAN_STATUS, offset 0x0004
def CAN_STATUS_MODE (p : Nat) : Fld := ⟨18, 0x9D + 0x200000 * p, 3, 0⟩
def CAN_STATUS_ERR_STATE (p : Nat) : Fld := ⟨18, 0x9B + 0x200000 * p, 2, 0⟩
def CAN_STATUS_RATE (p : Nat) : Fld := ⟨18, 0x98 + 0x200000 * p, 3, 0⟩
def CAN_STATUS_REC (p : Nat) : Fld := ⟨18, 0x90 + 0x200000 * p, 8, 0⟩
def CAN_STATUS_TEC (p : Nat) : Fld := ⟨18, 0x88 + 0x200000 * p, 8, 0⟩
def CAN_STATUS_RATE_LOCKED (p : Nat) : Fld := ⟨18, 0x87 + 0x200000 * p, 1, 0⟩
def CAN_STATUS_PENDING (p : Nat) : Fld := ⟨18, 0x80 + 0x200000 * p, 7, 0⟩
-- CAN_NBT, offset 0x0008
def CAN_NBT_BRP (p : Nat) : Fld := ⟨18, 0x118 + 0x200000 * p, 8, 9⟩
def CAN_NBT_TSEG1 (p : Nat) : Fld := ⟨18, 0x110 + 0x200000 * p, 8, 0x1A⟩
def CAN_NBT_TSEG2 (p : Nat) : Fld := ⟨18, 0x108 + 0x200000 * p, 8, 3⟩
def CAN_NBT_SJW (p : Nat) : Fld := ⟨18, 0x101 + 0x200000 * p, 7, 3⟩
-- CAN_DBT, offset 0x000C
def CAN_DBT_BRP (p : Nat) : Fld := ⟨18, 0x198 + 0x200000 * p, 8, 0⟩
def CAN_DBT_TSEG1 (p : Nat) : Fld := ⟨18, 0x190 + 0x200000 * p, 8, 0x1E⟩
def CAN_DBT_TSEG2 (p : Nat) : Fld := ⟨18, 0x188 + 0x200000 * p, 8, 7⟩
def CAN_DBT_SJW (p : Nat) : Fld := ⟨18, 0x181 + 0x200000 * p, 7, 7⟩
def CAN_DBT_TDC_EN (p : Nat) : Fld := ⟨18, 0x180 + 0x200000 * p, 1, 1⟩
-- CAN_CMD, offset 0x0010
def CAN_CMD_CMD (p : Nat) : Fld := ⟨18, 0x200 + 0x200000 * p, 4, 0⟩
-- CAN_CMD_RES, offset 0x0014
def CAN_CMD_RES_ERROR (p : Nat) : Fld := ⟨18, 0x290 + 0x200000 * p, 16, 0⟩
def CAN_CMD_RES_CMD (p : Nat) : Fld := ⟨18, 0x284 + 0x200000 * p, 4, 0⟩
def CAN_CMD_RES_STATUS (p : Nat) : Fld := ⟨18, 0x280 + 0x200000 * p, 3, 0⟩
-- CAN_FLUME, offset 0x0018
def CAN_FLUME_DONE (p : Nat) : Fld := ⟨18, 0x310 + 0x200000 * p, 7, 0⟩
def CAN_FLUME_RXB (p : Nat) : Fld := ⟨18, 0x308 + 0x200000 * p, 7, 0⟩
def CAN_FLUME_RXA (p : Nat) : Fld := ⟨18, 0x300 + 0x200000 * p, 7, 0⟩
-- CAN_WAKE_ID, offset 0x0020
def CAN_WAKE_ID (p : Nat) : Fld := ⟨18, 0x400 + 0x200000 * p, 32, 0⟩
-- CAN_WAKE_MASK, offset 0x0024
def CAN_WAKE_MASK (p : Nat) : Fld := ⟨18, 0x480 + 0x200000 * p, 32, 0⟩
-- CAN_WAKE_DATA, offset 0x0028
def CAN_WAKE_DATA (p : Nat) : Fld := ⟨18, 0x500 + 0x200000 * p, 32, 0⟩
-- CAN_CNT_RX_OK, offset 0x0080
def CAN_CNT_RX_OK (p : Nat) : Fld := ⟨18, 0x1000 + 0x200000 * p, 32, 0⟩
-- CAN_CNT_RX_UNMATCHED, offset 0x0084
def CAN_CNT_RX_UNMATCHED (p : Nat) : Fld := ⟨18, 0x1080 + 0x200000 * p, 32, 0⟩
-- CAN_CNT_RX_DROP, offset 0x0088
def CAN_CNT_RX_DROP (p : Nat) : Fld := ⟨18, 0x1100 + 0x200000 * p, 32, 0⟩
-- CAN_CNT_RX_RTR, offset 0x008C
def CAN_CNT_RX_RTR (p : Nat) : Fld := ⟨18, 0x1180 + 0x200000 * p, 32, 0⟩
-- CAN_CNT_TX_OK, offset 0x0090
def CAN_CNT_TX_OK (p : Nat) : Fld := ⟨18, 0x1200 + 0x200000 * p, 32, 0⟩
-- CAN_CNT_ARB_LOST, offset 0x0094
def CAN_CNT_ARB_LOST (p : Nat) : Fld := ⟨18, 0x1280 + 0x200000 * p, 32, 0⟩
-- CAN_CNT_ERR_FRAME, offset 0x0098
def CAN_CNT_ERR_FRAME (p : Nat) : Fld := ⟨18, 0x1300 + 0x200000 * p, 32, 0⟩
-- CAN_CNT_BUS_OFF, offset 0x009C
def CAN_CNT_BUS_OFF (p : Nat) : Fld := ⟨18, 0x1380 + 0x200000 * p, 32, 0⟩
-- CAN_CNT_RATE_MISS, offset 0x00A0
def CAN_CNT_RATE_MISS (p : Nat) : Fld := ⟨18, 0x1400 + 0x200000 * p, 32, 0⟩
-- CAN_CNT_STOP_SENT, offset 0x00A4
def CAN_CNT_STOP_SENT (p : Nat) : Fld := ⟨18, 0x1480 + 0x200000 * p, 32, 0⟩
-- CAN_CNT_STOP_SUPPRESSED, offset 0x00A8
def CAN_CNT_STOP_SUPPRESSED (p : Nat) : Fld := ⟨18, 0x1500 + 0x200000 * p, 32, 0⟩
-- CAN_CNT_WAKE_ERR, offset 0x00AC
def CAN_CNT_WAKE_ERR (p : Nat) : Fld := ⟨18, 0x1580 + 0x200000 * p, 32, 0⟩
-- CAN_CFG_REFUSED, offset 0x0FF0
def CAN_CFG_REFUSED_LAST_OFFSET (p : Nat) : Fld := ⟨18, 0x1FE10 + 0x200000 * p, 16, 0⟩
def CAN_CFG_REFUSED_COUNT (p : Nat) : Fld := ⟨18, 0x1FE00 + 0x200000 * p, 16, 0⟩
-- CAN_MB_ID, offset 0x1000 + 0x50 * n (n < 64)
def CAN_MB_ID_RTR (p n : Nat) : Fld := ⟨18, 0x2001E + 0x200000 * p + 0xA00 * n, 1, 0⟩
def CAN_MB_ID_IDE (p n : Nat) : Fld := ⟨18, 0x2001D + 0x200000 * p + 0xA00 * n, 1, 0⟩
def CAN_MB_ID_ID (p n : Nat) : Fld := ⟨18, 0x20000 + 0x200000 * p + 0xA00 * n, 29, 0⟩
-- CAN_MB_CTRL, offset 0x1004 + 0x50 * n (n < 64)
def CAN_MB_CTRL_PEND (p n : Nat) : Fld := ⟨18, 0x2009F + 0x200000 * p + 0xA00 * n, 1, 0⟩
def CAN_MB_CTRL_ABORT (p n : Nat) : Fld := ⟨18, 0x2009E + 0x200000 * p + 0xA00 * n, 1, 0⟩
def CAN_MB_CTRL_STATUS (p n : Nat) : Fld := ⟨18, 0x2009B + 0x200000 * p + 0xA00 * n, 3, 0⟩
def CAN_MB_CTRL_BRS (p n : Nat) : Fld := ⟨18, 0x20085 + 0x200000 * p + 0xA00 * n, 1, 0⟩
def CAN_MB_CTRL_FDF (p n : Nat) : Fld := ⟨18, 0x20084 + 0x200000 * p + 0xA00 * n, 1, 0⟩
def CAN_MB_CTRL_DLC (p n : Nat) : Fld := ⟨18, 0x20080 + 0x200000 * p + 0xA00 * n, 4, 0⟩
-- CAN_MB_TAG, offset 0x1008 + 0x50 * n (n < 64)
def CAN_MB_TAG (p n : Nat) : Fld := ⟨18, 0x20100 + 0x200000 * p + 0xA00 * n, 32, 0⟩
-- CAN_MB_DATA, offset 0x1010 + 0x50 * n (n < 64) + 0x4 * m (m < 16)
def CAN_MB_DATA (p n m : Nat) : Fld := ⟨18, 0x20200 + 0x200000 * p + 0xA00 * n + 0x80 * m, 32, 0⟩
-- CAN_FLT_ID, offset 0x3000 + 0x10 * n (n < 128)
def CAN_FLT_ID (p n : Nat) : Fld := ⟨18, 0x60000 + 0x200000 * p + 0x200 * n, 32, 0⟩
-- CAN_FLT_MASK, offset 0x3004 + 0x10 * n (n < 128)
def CAN_FLT_MASK (p n : Nat) : Fld := ⟨18, 0x60080 + 0x200000 * p + 0x200 * n, 32, 0⟩
-- CAN_FLT_CTRL, offset 0x3008 + 0x10 * n (n < 128)
def CAN_FLT_CTRL_EN (p n : Nat) : Fld := ⟨18, 0x6011F + 0x200000 * p + 0x200 * n, 1, 0⟩
def CAN_FLT_CTRL_ACTION (p n : Nat) : Fld := ⟨18, 0x60100 + 0x200000 * p + 0x200 * n, 2, 0⟩

/-! ### SER (offset base 0x14, chapter file [13]) -/
-- SER_CTRL, offset 0x0000
def SER_CTRL_PARITY (p : Nat) : Fld := ⟨20, 0x6 + 0x200000 * p, 2, 1⟩
def SER_CTRL_STOP2 (p : Nat) : Fld := ⟨20, 0x5 + 0x200000 * p, 1, 0⟩
def SER_CTRL_TERM (p : Nat) : Fld := ⟨20, 0x4 + 0x200000 * p, 1, 0⟩
def SER_CTRL_CRC (p : Nat) : Fld := ⟨20, 0x3 + 0x200000 * p, 1, 0⟩
def SER_CTRL_TX_EN (p : Nat) : Fld := ⟨20, 0x2 + 0x200000 * p, 1, 0⟩
def SER_CTRL_RX_EN (p : Nat) : Fld := ⟨20, 0x1 + 0x200000 * p, 1, 0⟩
def SER_CTRL_EN (p : Nat) : Fld := ⟨20, 0x0 + 0x200000 * p, 1, 0⟩
-- SER_FRAME, offset 0x0004
def SER_FRAME_MODE (p : Nat) : Fld := ⟨20, 0x9E + 0x200000 * p, 2, 0⟩
def SER_FRAME_MAX_LEN (p : Nat) : Fld := ⟨20, 0x94 + 0x200000 * p, 10, 0x100⟩
def SER_FRAME_LEN_OFS (p : Nat) : Fld := ⟨20, 0x90 + 0x200000 * p, 4, 0⟩
def SER_FRAME_GAP_DELIM_ADDR (p : Nat) : Fld := ⟨20, 0x88 + 0x200000 * p, 8, 0x26⟩
def SER_FRAME_TURN (p : Nat) : Fld := ⟨20, 0x80 + 0x200000 * p, 8, 0x26⟩
-- SER_DE, offset 0x0008
def SER_DE_DE_LEAD (p : Nat) : Fld := ⟨20, 0x108 + 0x200000 * p, 8, 1⟩
def SER_DE_DE_LAG (p : Nat) : Fld := ⟨20, 0x100 + 0x200000 * p, 8, 1⟩
-- SER_FLUME, offset 0x000C
def SER_FLUME_DONE (p : Nat) : Fld := ⟨20, 0x190 + 0x200000 * p, 7, 0⟩
def SER_FLUME_TX (p : Nat) : Fld := ⟨20, 0x188 + 0x200000 * p, 7, 0⟩
def SER_FLUME_RX (p : Nat) : Fld := ⟨20, 0x180 + 0x200000 * p, 7, 0⟩
-- SER_BAUD, offset 0x0010
def SER_BAUD_BAUD (p : Nat) : Fld := ⟨20, 0x200 + 0x200000 * p, 25, 0x4B00⟩
-- SER_CNT_RX_OK, offset 0x0080
def SER_CNT_RX_OK (p : Nat) : Fld := ⟨20, 0x1000 + 0x200000 * p, 32, 0⟩
-- SER_CNT_RX_DROP, offset 0x0084
def SER_CNT_RX_DROP (p : Nat) : Fld := ⟨20, 0x1080 + 0x200000 * p, 32, 0⟩
-- SER_CNT_PARITY, offset 0x0088
def SER_CNT_PARITY (p : Nat) : Fld := ⟨20, 0x1100 + 0x200000 * p, 32, 0⟩
-- SER_CNT_FRAMING, offset 0x008C
def SER_CNT_FRAMING (p : Nat) : Fld := ⟨20, 0x1180 + 0x200000 * p, 32, 0⟩
-- SER_CNT_CRC, offset 0x0090
def SER_CNT_CRC (p : Nat) : Fld := ⟨20, 0x1200 + 0x200000 * p, 32, 0⟩
-- SER_CNT_OVERLONG, offset 0x0094
def SER_CNT_OVERLONG (p : Nat) : Fld := ⟨20, 0x1280 + 0x200000 * p, 32, 0⟩
-- SER_CNT_TX_OK, offset 0x0098
def SER_CNT_TX_OK (p : Nat) : Fld := ⟨20, 0x1300 + 0x200000 * p, 32, 0⟩
-- SER_CFG_REFUSED, offset 0x0FF0
def SER_CFG_REFUSED_LAST_OFFSET (p : Nat) : Fld := ⟨20, 0x1FE10 + 0x200000 * p, 16, 0⟩
def SER_CFG_REFUSED_COUNT (p : Nat) : Fld := ⟨20, 0x1FE00 + 0x200000 * p, 16, 0⟩

/-! ### AXS (offset base 0x16, chapter file [14]) -/
-- AXS_CTRL, offset 0x0000
def AXS_CTRL_EN : Fld := ⟨22, 0x0, 1, 0⟩
-- AXS_STATUS, offset 0x0004
def AXS_STATUS_STATE : Fld := ⟨22, 0x80, 32, 0⟩
-- AXS_INPUTS, offset 0x0008
def AXS_INPUTS_HOME : Fld := ⟨22, 0x110, 8, 0⟩
def AXS_INPUTS_LIMIT : Fld := ⟨22, 0x100, 16, 0⟩
-- AXS_CMD, offset 0x000C
def AXS_CMD_AXIS : Fld := ⟨22, 0x188, 3, 0⟩
def AXS_CMD_CMD : Fld := ⟨22, 0x180, 4, 0⟩
-- AXS_CMD_RES, offset 0x0010
def AXS_CMD_RES_ERROR : Fld := ⟨22, 0x210, 16, 0⟩
def AXS_CMD_RES_AXIS : Fld := ⟨22, 0x208, 3, 0⟩
def AXS_CMD_RES_CMD : Fld := ⟨22, 0x204, 4, 0⟩
def AXS_CMD_RES_STATUS : Fld := ⟨22, 0x200, 3, 0⟩
-- AXS_CHAT, offset 0x0014
def AXS_CHAT_CHAT_WIN : Fld := ⟨22, 0x290, 16, 0x64⟩
def AXS_CHAT_CHAT_MAX : Fld := ⟨22, 0x280, 8, 0xA⟩
-- AXS_CNT_TRIP, offset 0x0080
def AXS_CNT_TRIP : Fld := ⟨22, 0x1000, 32, 0⟩
-- AXS_CNT_CHATTER, offset 0x0084
def AXS_CNT_CHATTER : Fld := ⟨22, 0x1080, 32, 0⟩
-- AXS_CNT_HOME_DONE, offset 0x0088
def AXS_CNT_HOME_DONE : Fld := ⟨22, 0x1100, 32, 0⟩
-- AXS_CNT_HOME_FAIL, offset 0x008C
def AXS_CNT_HOME_FAIL : Fld := ⟨22, 0x1180, 32, 0⟩
-- AXS_CNT_FAULT, offset 0x0090
def AXS_CNT_FAULT : Fld := ⟨22, 0x1200, 32, 0⟩
-- AXS_CFG_REFUSED, offset 0x0FF0
def AXS_CFG_REFUSED_LAST_OFFSET : Fld := ⟨22, 0x1FE10, 16, 0⟩
def AXS_CFG_REFUSED_COUNT : Fld := ⟨22, 0x1FE00, 16, 0⟩
-- AXS_CFG, offset 0x1000 + 0x40 * n (n < 8)
def AXS_CFG_EN (n : Nat) : Fld := ⟨22, 0x2001F + 0x800 * n, 1, 0⟩
def AXS_CFG_SCALE (n : Nat) : Fld := ⟨22, 0x20018 + 0x800 * n, 3, 0⟩
def AXS_CFG_DIR_INV (n : Nat) : Fld := ⟨22, 0x20017 + 0x800 * n, 1, 0⟩
def AXS_CFG_LIM_POL (n : Nat) : Fld := ⟨22, 0x20016 + 0x800 * n, 1, 0⟩
def AXS_CFG_HOME_POL (n : Nat) : Fld := ⟨22, 0x20015 + 0x800 * n, 1, 0⟩
def AXS_CFG_SOFT_EN (n : Nat) : Fld := ⟨22, 0x20014 + 0x800 * n, 1, 0⟩
def AXS_CFG_HOME_MODE (n : Nat) : Fld := ⟨22, 0x20010 + 0x800 * n, 4, 0⟩
def AXS_CFG_HOME_DIR (n : Nat) : Fld := ⟨22, 0x2000F + 0x800 * n, 1, 0⟩
def AXS_CFG_QUAL (n : Nat) : Fld := ⟨22, 0x20000 + 0x800 * n, 9, 0x14⟩
-- AXS_TIMING, offset 0x1004 + 0x40 * n (n < 8)
def AXS_TIMING_PULSE (n : Nat) : Fld := ⟨22, 0x20098 + 0x800 * n, 8, 0xC⟩
def AXS_TIMING_DIR_SETUP (n : Nat) : Fld := ⟨22, 0x20090 + 0x800 * n, 8, 0xA⟩
def AXS_TIMING_DIR_HOLD (n : Nat) : Fld := ⟨22, 0x20088 + 0x800 * n, 8, 0xA⟩
-- AXS_SOFT_LO, offset 0x1008 + 0x40 * n (n < 8)
def AXS_SOFT_LO (n : Nat) : Fld := ⟨22, 0x20100 + 0x800 * n, 32, 0⟩
-- AXS_SOFT_HI, offset 0x100C + 0x40 * n (n < 8)
def AXS_SOFT_HI (n : Nat) : Fld := ⟨22, 0x20180 + 0x800 * n, 32, 0⟩
-- AXS_HOME_OFS, offset 0x1010 + 0x40 * n (n < 8)
def AXS_HOME_OFS (n : Nat) : Fld := ⟨22, 0x20200 + 0x800 * n, 32, 0⟩
-- AXS_HOME, offset 0x1014 + 0x40 * n (n < 8)
def AXS_HOME_HOME_FAST (n : Nat) : Fld := ⟨22, 0x20290 + 0x800 * n, 16, 0x64⟩
def AXS_HOME_HOME_SLOW (n : Nat) : Fld := ⟨22, 0x20280 + 0x800 * n, 16, 0xA⟩
-- AXS_HOME2, offset 0x1018 + 0x40 * n (n < 8)
def AXS_HOME2_HOME_DEC (n : Nat) : Fld := ⟨22, 0x20310 + 0x800 * n, 16, 0x3E8⟩
def AXS_HOME2_CLEAR (n : Nat) : Fld := ⟨22, 0x20300 + 0x800 * n, 16, 0x10⟩
-- AXS_HOME_RANGE, offset 0x101C + 0x40 * n (n < 8)
def AXS_HOME_RANGE_RANGE (n : Nat) : Fld := ⟨22, 0x20380 + 0x800 * n, 32, 0x100000⟩
-- AXS_POS, offset 0x1020 + 0x40 * n (n < 8)
def AXS_POS (n : Nat) : Fld := ⟨22, 0x20400 + 0x800 * n, 32, 0⟩
-- AXS_TRIP, offset 0x1024 + 0x40 * n (n < 8)
def AXS_TRIP (n : Nat) : Fld := ⟨22, 0x20480 + 0x800 * n, 32, 0⟩
-- AXS_STAT, offset 0x1028 + 0x40 * n (n < 8)
def AXS_STAT_STATE (n : Nat) : Fld := ⟨22, 0x2051C + 0x800 * n, 4, 0⟩
def AXS_STAT_HOMED (n : Nat) : Fld := ⟨22, 0x2051B + 0x800 * n, 1, 0⟩
def AXS_STAT_LATCH_A (n : Nat) : Fld := ⟨22, 0x2051A + 0x800 * n, 1, 0⟩
def AXS_STAT_LATCH_B (n : Nat) : Fld := ⟨22, 0x20519 + 0x800 * n, 1, 0⟩
def AXS_STAT_CAUSE (n : Nat) : Fld := ⟨22, 0x20510 + 0x800 * n, 8, 0⟩
def AXS_STAT_TRANS (n : Nat) : Fld := ⟨22, 0x20500 + 0x800 * n, 16, 0⟩

/-! ### DIO (offset base 0x17, chapter file [14]) -/
-- DIO_CTRL, offset 0x0000
def DIO_CTRL_OUT_EN : Fld := ⟨23, 0x1, 1, 0⟩
def DIO_CTRL_EN : Fld := ⟨23, 0x0, 1, 0⟩
-- DIO_IN, offset 0x0004
def DIO_IN_RAW : Fld := ⟨23, 0x90, 16, 0⟩
def DIO_IN_FILT : Fld := ⟨23, 0x80, 16, 0⟩
-- DIO_EDGE, offset 0x0008
def DIO_EDGE_FALL : Fld := ⟨23, 0x110, 16, 0⟩
def DIO_EDGE_RISE : Fld := ⟨23, 0x100, 16, 0⟩
-- DIO_EDGE_EN, offset 0x000C
def DIO_EDGE_EN_FALL : Fld := ⟨23, 0x190, 16, 0⟩
def DIO_EDGE_EN_RISE : Fld := ⟨23, 0x180, 16, 0⟩
-- DIO_FILTER, offset 0x0010 + 0x4 * n (n < 4)
def DIO_FILTER (n : Nat) : Fld := ⟨23, 0x200 + 0x80 * n, 32, 0xA0A0A0A⟩
-- DIO_OUT, offset 0x0020
def DIO_OUT_OUT : Fld := ⟨23, 0x400, 8, 0⟩
-- DIO_OUT_STAT, offset 0x0024
def DIO_OUT_STAT_SUPPLY_LOW : Fld := ⟨23, 0x49F, 1, 0⟩
def DIO_OUT_STAT_OPEN : Fld := ⟨23, 0x490, 8, 0⟩
def DIO_OUT_STAT_OVERCURRENT : Fld := ⟨23, 0x488, 8, 0⟩
def DIO_OUT_STAT_READBACK : Fld := ⟨23, 0x480, 8, 0⟩
-- DIO_OUT_CFG, offset 0x0040 + 0x4 * n (n < 8)
def DIO_OUT_CFG_STOP_STATE (n : Nat) : Fld := ⟨23, 0x81E + 0x80 * n, 2, 0⟩
def DIO_OUT_CFG_MODE (n : Nat) : Fld := ⟨23, 0x81C + 0x80 * n, 2, 0⟩
def DIO_OUT_CFG_PULSE (n : Nat) : Fld := ⟨23, 0x800 + 0x80 * n, 16, 0x64⟩
-- DIO_CNT_OVERCURRENT, offset 0x0080
def DIO_CNT_OVERCURRENT : Fld := ⟨23, 0x1000, 32, 0⟩
-- DIO_CNT_OPEN, offset 0x0084
def DIO_CNT_OPEN : Fld := ⟨23, 0x1080, 32, 0⟩
-- DIO_CNT_STOP_REFUSED, offset 0x0088
def DIO_CNT_STOP_REFUSED : Fld := ⟨23, 0x1100, 32, 0⟩
-- DIO_CNT_SUPPLY_LOW, offset 0x008C
def DIO_CNT_SUPPLY_LOW : Fld := ⟨23, 0x1180, 32, 0⟩
-- DIO_CFG_REFUSED, offset 0x0FF0
def DIO_CFG_REFUSED_LAST_OFFSET : Fld := ⟨23, 0x1FE10, 16, 0⟩
def DIO_CFG_REFUSED_COUNT : Fld := ⟨23, 0x1FE00, 16, 0⟩

/-! ### TWN (offset base 0x18, chapter file [15]) -/
-- TWN_CTRL, offset 0x0000
def TWN_CTRL_IO_HOME : Fld := ⟨24, 0xB, 1, 0⟩
def TWN_CTRL_IO_EN : Fld := ⟨24, 0xA, 1, 0⟩
def TWN_CTRL_PORT : Fld := ⟨24, 0x8, 2, 1⟩
def TWN_CTRL_EN : Fld := ⟨24, 0x0, 1, 0⟩
-- TWN_STATUS, offset 0x0004
def TWN_STATUS_ROLE : Fld := ⟨24, 0x9D, 3, 0⟩
def TWN_STATUS_LINK : Fld := ⟨24, 0x9C, 1, 0⟩
def TWN_STATUS_PARTNER_FIT : Fld := ⟨24, 0x9B, 1, 0⟩
def TWN_STATUS_TERM : Fld := ⟨24, 0x80, 16, 0⟩
-- TWN_HEALTH, offset 0x0008
def TWN_HEALTH_FIT : Fld := ⟨24, 0x108, 1, 0⟩
def TWN_HEALTH_TESTS : Fld := ⟨24, 0x100, 8, 0⟩
-- TWN_TIMING, offset 0x000C
def TWN_TIMING_LEASE : Fld := ⟨24, 0x198, 8, 0xA⟩
def TWN_TIMING_FENCE_WAIT : Fld := ⟨24, 0x190, 8, 0x14⟩
def TWN_TIMING_AGREE_CYC : Fld := ⟨24, 0x188, 8, 0x14⟩
def TWN_TIMING_AIR_MIN : Fld := ⟨24, 0x180, 8, 0xAB⟩
-- TWN_MIRROR_BASE, offset 0x0010
def TWN_MIRROR_BASE : Fld := ⟨24, 0x20C, 20, 0⟩
-- TWN_MIRROR_SIZE, offset 0x0014
def TWN_MIRROR_SIZE : Fld := ⟨24, 0x28C, 20, 0⟩
-- TWN_SEQ, offset 0x0018
def TWN_SEQ : Fld := ⟨24, 0x300, 32, 0⟩
-- TWN_LAG, offset 0x001C
def TWN_LAG : Fld := ⟨24, 0x380, 32, 0⟩
-- TWN_CMD, offset 0x0020
def TWN_CMD_CMD : Fld := ⟨24, 0x400, 4, 0⟩
-- TWN_CMD_RES, offset 0x0024
def TWN_CMD_RES_ERROR : Fld := ⟨24, 0x490, 16, 0⟩
def TWN_CMD_RES_CMD : Fld := ⟨24, 0x484, 4, 0⟩
def TWN_CMD_RES_STATUS : Fld := ⟨24, 0x480, 3, 0⟩
-- TWN_PARTNER_LO, offset 0x0028
def TWN_PARTNER_LO : Fld := ⟨24, 0x500, 32, 0⟩
-- TWN_PARTNER_HI, offset 0x002C
def TWN_PARTNER_HI : Fld := ⟨24, 0x580, 32, 0⟩
-- TWN_CNT_TAKEOVER, offset 0x0080
def TWN_CNT_TAKEOVER : Fld := ⟨24, 0x1000, 32, 0⟩
-- TWN_CNT_YIELD, offset 0x0084
def TWN_CNT_YIELD : Fld := ⟨24, 0x1080, 32, 0⟩
-- TWN_CNT_STALE, offset 0x0088
def TWN_CNT_STALE : Fld := ⟨24, 0x1100, 32, 0⟩
-- TWN_CNT_FENCE_TIMEOUT, offset 0x008C
def TWN_CNT_FENCE_TIMEOUT : Fld := ⟨24, 0x1180, 32, 0⟩
-- TWN_CNT_LINK_BAD, offset 0x0090
def TWN_CNT_LINK_BAD : Fld := ⟨24, 0x1200, 32, 0⟩
-- TWN_CNT_IO_LOST, offset 0x0094
def TWN_CNT_IO_LOST : Fld := ⟨24, 0x1280, 32, 0⟩
-- TWN_CNT_UNFIT, offset 0x0098
def TWN_CNT_UNFIT : Fld := ⟨24, 0x1300, 32, 0⟩
-- TWN_CFG_REFUSED, offset 0x0FF0
def TWN_CFG_REFUSED_LAST_OFFSET : Fld := ⟨24, 0x1FE10, 16, 0⟩
def TWN_CFG_REFUSED_COUNT : Fld := ⟨24, 0x1FE00, 16, 0⟩

/-! ### CAS (offset base 0x19, chapter file [15]) -/
-- CAS_CTRL, offset 0x0000
def CAS_CTRL_MEMBER : Fld := ⟨25, 0x15, 3, 0⟩
def CAS_CTRL_GROUP_ID : Fld := ⟨25, 0x12, 3, 0⟩
def CAS_CTRL_PORT : Fld := ⟨25, 0x10, 2, 0⟩
def CAS_CTRL_ROLE : Fld := ⟨25, 0x1, 2, 0⟩
def CAS_CTRL_EN : Fld := ⟨25, 0x0, 1, 0⟩
-- CAS_STATUS, offset 0x0004
def CAS_STATUS_STATE : Fld := ⟨25, 0x9C, 4, 0⟩
def CAS_STATUS_PRESENT : Fld := ⟨25, 0x94, 8, 0⟩
def CAS_STATUS_UNREACH : Fld := ⟨25, 0x8C, 8, 0⟩
-- CAS_TIMING, offset 0x0008
def CAS_TIMING_HW_LEASE : Fld := ⟨25, 0x118, 8, 0xF⟩
def CAS_TIMING_ALIGN_LIM : Fld := ⟨25, 0x110, 8, 0x14⟩
def CAS_TIMING_LAT_LIM : Fld := ⟨25, 0x100, 16, 0xFA⟩
-- CAS_ALIGN, offset 0x000C
def CAS_ALIGN : Fld := ⟨25, 0x180, 32, 0⟩
-- CAS_LAT, offset 0x0010
def CAS_LAT : Fld := ⟨25, 0x200, 32, 0⟩
-- CAS_CMD, offset 0x0020
def CAS_CMD_TARGET : Fld := ⟨25, 0x408, 3, 0⟩
def CAS_CMD_CMD : Fld := ⟨25, 0x400, 4, 0⟩
-- CAS_CMD_RES, offset 0x0024
def CAS_CMD_RES_ERROR : Fld := ⟨25, 0x490, 16, 0⟩
def CAS_CMD_RES_CMD : Fld := ⟨25, 0x484, 4, 0⟩
def CAS_CMD_RES_STATUS : Fld := ⟨25, 0x480, 3, 0⟩
-- CAS_HEAD_LO, offset 0x0028
def CAS_HEAD_LO : Fld := ⟨25, 0x500, 32, 0⟩
-- CAS_HEAD_HI, offset 0x002C
def CAS_HEAD_HI : Fld := ⟨25, 0x580, 32, 0⟩
-- CAS_CNT_ISOLATED, offset 0x0080
def CAS_CNT_ISOLATED : Fld := ⟨25, 0x1000, 32, 0⟩
-- CAS_CNT_RECONCILED, offset 0x0084
def CAS_CNT_RECONCILED : Fld := ⟨25, 0x1080, 32, 0⟩
-- CAS_CNT_ORPHAN_RELEASED, offset 0x0088
def CAS_CNT_ORPHAN_RELEASED : Fld := ⟨25, 0x1100, 32, 0⟩
-- CAS_CNT_ALIGN_LOST, offset 0x008C
def CAS_CNT_ALIGN_LOST : Fld := ⟨25, 0x1180, 32, 0⟩
-- CAS_CNT_LAT_HIGH, offset 0x0090
def CAS_CNT_LAT_HIGH : Fld := ⟨25, 0x1200, 32, 0⟩
-- CAS_CFG_REFUSED, offset 0x0FF0
def CAS_CFG_REFUSED_LAST_OFFSET : Fld := ⟨25, 0x1FE10, 16, 0⟩
def CAS_CFG_REFUSED_COUNT : Fld := ⟨25, 0x1FE00, 16, 0⟩

/-! ### KEY (offset base 0x1A, chapter file [16]) -/
-- KEY_CTRL, offset 0x0000
def KEY_CTRL_STOP_SLOT : Fld := ⟨26, 0x10, 9, 0⟩
def KEY_CTRL_BK_PERIOD : Fld := ⟨26, 0x8, 8, 0x18⟩
def KEY_CTRL_EN : Fld := ⟨26, 0x0, 1, 0⟩
-- KEY_STATUS, offset 0x0004
def KEY_STATUS_LIFECYCLE : Fld := ⟨26, 0x9E, 2, 0⟩
def KEY_STATUS_TEST_ROOT : Fld := ⟨26, 0x9D, 1, 0⟩
def KEY_STATUS_DEBUG : Fld := ⟨26, 0x9C, 1, 0⟩
def KEY_STATUS_DRBG_OK : Fld := ⟨26, 0x9B, 1, 0⟩
def KEY_STATUS_EPOCH : Fld := ⟨26, 0x90, 8, 0⟩
def KEY_STATUS_BKEY_ID : Fld := ⟨26, 0x88, 8, 0⟩
def KEY_STATUS_PREV_ID : Fld := ⟨26, 0x80, 8, 0⟩
-- KEY_PRESENCE, offset 0x0008
def KEY_PRESENCE_OPEN : Fld := ⟨26, 0x11F, 1, 0⟩
def KEY_PRESENCE_STUCK : Fld := ⟨26, 0x11E, 1, 0⟩
def KEY_PRESENCE_FIELD : Fld := ⟨26, 0x11D, 1, 0⟩
def KEY_PRESENCE_REMAIN : Fld := ⟨26, 0x100, 8, 0⟩
-- KEY_CMD, offset 0x000C
def KEY_CMD_CMD : Fld := ⟨26, 0x180, 4, 0⟩
-- KEY_CMD_RES, offset 0x0010
def KEY_CMD_RES_ERROR : Fld := ⟨26, 0x210, 16, 0⟩
def KEY_CMD_RES_CMD : Fld := ⟨26, 0x204, 4, 0⟩
def KEY_CMD_RES_STATUS : Fld := ⟨26, 0x200, 3, 0⟩
-- KEY_SLOT_SEL, offset 0x0014
def KEY_SLOT_SEL_SLOT : Fld := ⟨26, 0x280, 9, 0⟩
-- KEY_SLOT_INFO, offset 0x0018
def KEY_SLOT_INFO_KCV_HI : Fld := ⟨26, 0x318, 8, 0⟩
def KEY_SLOT_INFO_USAGE : Fld := ⟨26, 0x314, 4, 0⟩
def KEY_SLOT_INFO_STATE : Fld := ⟨26, 0x311, 3, 0⟩
def KEY_SLOT_INFO_GEN : Fld := ⟨26, 0x309, 8, 0⟩
def KEY_SLOT_INFO_SLOT : Fld := ⟨26, 0x300, 9, 0⟩
-- KEY_CNT_SWAP, offset 0x0080
def KEY_CNT_SWAP : Fld := ⟨26, 0x1000, 32, 0⟩
-- KEY_CNT_ROLLBACK, offset 0x0084
def KEY_CNT_ROLLBACK : Fld := ⟨26, 0x1080, 32, 0⟩
-- KEY_CNT_KCV_FAIL, offset 0x0088
def KEY_CNT_KCV_FAIL : Fld := ⟨26, 0x1100, 32, 0⟩
-- KEY_CNT_PRESENCE, offset 0x008C
def KEY_CNT_PRESENCE : Fld := ⟨26, 0x1180, 32, 0⟩
-- KEY_CNT_GATE_REFUSED, offset 0x0090
def KEY_CNT_GATE_REFUSED : Fld := ⟨26, 0x1200, 32, 0⟩
-- KEY_CNT_STUCK, offset 0x0094
def KEY_CNT_STUCK : Fld := ⟨26, 0x1280, 32, 0⟩
-- KEY_CNT_DRBG_FAIL, offset 0x0098
def KEY_CNT_DRBG_FAIL : Fld := ⟨26, 0x1300, 32, 0⟩
-- KEY_CFG_REFUSED, offset 0x0FF0
def KEY_CFG_REFUSED_LAST_OFFSET : Fld := ⟨26, 0x1FE10, 16, 0⟩
def KEY_CFG_REFUSED_COUNT : Fld := ⟨26, 0x1FE00, 16, 0⟩

/-! ### UPD (offset base 0x1B, chapter file [17]) -/
-- UPD_CTRL, offset 0x0000
def UPD_CTRL_CONFIRM_HOLD : Fld := ⟨27, 0x10, 10, 0x78⟩
def UPD_CTRL_EN : Fld := ⟨27, 0x0, 1, 1⟩
-- UPD_STATUS, offset 0x0004
def UPD_STATUS_STATE : Fld := ⟨27, 0x9C, 4, 0⟩
def UPD_STATUS_KIND : Fld := ⟨27, 0x9A, 2, 0⟩
def UPD_STATUS_SLOT : Fld := ⟨27, 0x99, 1, 0⟩
def UPD_STATUS_GATHERED : Fld := ⟨27, 0x80, 11, 0⟩
-- UPD_SLOT, offset 0x0010 + 0x4 * n (n < 6)
def UPD_SLOT_STATE (n : Nat) : Fld := ⟨27, 0x21C + 0x80 * n, 4, 0⟩
def UPD_SLOT_CAUSE (n : Nat) : Fld := ⟨27, 0x218 + 0x80 * n, 4, 0⟩
def UPD_SLOT_ROLLBACK (n : Nat) : Fld := ⟨27, 0x210 + 0x80 * n, 7, 0⟩
def UPD_SLOT_VERSION (n : Nat) : Fld := ⟨27, 0x200 + 0x80 * n, 16, 0⟩
-- UPD_BOOT, offset 0x0030
def UPD_BOOT_BOOTS_2 : Fld := ⟨27, 0x613, 2, 0⟩
def UPD_BOOT_TRIAL_SLOT_2 : Fld := ⟨27, 0x612, 1, 0⟩
def UPD_BOOT_TRIAL_2 : Fld := ⟨27, 0x611, 1, 0⟩
def UPD_BOOT_CONF_SLOT_2 : Fld := ⟨27, 0x610, 1, 0⟩
def UPD_BOOT_BOOTS_1 : Fld := ⟨27, 0x60B, 2, 0⟩
def UPD_BOOT_TRIAL_SLOT_1 : Fld := ⟨27, 0x60A, 1, 0⟩
def UPD_BOOT_TRIAL_1 : Fld := ⟨27, 0x609, 1, 0⟩
def UPD_BOOT_CONF_SLOT_1 : Fld := ⟨27, 0x608, 1, 0⟩
def UPD_BOOT_BOOTS_0 : Fld := ⟨27, 0x603, 2, 0⟩
def UPD_BOOT_TRIAL_SLOT_0 : Fld := ⟨27, 0x602, 1, 0⟩
def UPD_BOOT_TRIAL_0 : Fld := ⟨27, 0x601, 1, 0⟩
def UPD_BOOT_CONF_SLOT_0 : Fld := ⟨27, 0x600, 1, 0⟩
-- UPD_TRIAL, offset 0x0034
def UPD_TRIAL_ELAPSED : Fld := ⟨27, 0x690, 16, 0⟩
def UPD_TRIAL_HELD : Fld := ⟨27, 0x680, 16, 0⟩
-- UPD_CMD, offset 0x0038
def UPD_CMD_SLOT : Fld := ⟨27, 0x708, 3, 0⟩
def UPD_CMD_CMD : Fld := ⟨27, 0x700, 4, 0⟩
-- UPD_CMD_RES, offset 0x003C
def UPD_CMD_RES_ERROR : Fld := ⟨27, 0x790, 16, 0⟩
def UPD_CMD_RES_CMD : Fld := ⟨27, 0x784, 4, 0⟩
def UPD_CMD_RES_STATUS : Fld := ⟨27, 0x780, 3, 0⟩
-- UPD_CNT_GATHER_OK, offset 0x0080
def UPD_CNT_GATHER_OK : Fld := ⟨27, 0x1000, 32, 0⟩
-- UPD_CNT_GATHER_BAD, offset 0x0084
def UPD_CNT_GATHER_BAD : Fld := ⟨27, 0x1080, 32, 0⟩
-- UPD_CNT_RECHECK_FAIL, offset 0x0088
def UPD_CNT_RECHECK_FAIL : Fld := ⟨27, 0x1100, 32, 0⟩
-- UPD_CNT_VERIFY_FAIL, offset 0x008C
def UPD_CNT_VERIFY_FAIL : Fld := ⟨27, 0x1180, 32, 0⟩
-- UPD_CNT_ACTIVATE, offset 0x0090
def UPD_CNT_ACTIVATE : Fld := ⟨27, 0x1200, 32, 0⟩
-- UPD_CNT_CONFIRM, offset 0x0094
def UPD_CNT_CONFIRM : Fld := ⟨27, 0x1280, 32, 0⟩
-- UPD_CNT_REVERT, offset 0x0098
def UPD_CNT_REVERT : Fld := ⟨27, 0x1300, 32, 0⟩
-- UPD_CNT_MIGRATE_FAIL, offset 0x009C
def UPD_CNT_MIGRATE_FAIL : Fld := ⟨27, 0x1380, 32, 0⟩
-- UPD_CFG_REFUSED, offset 0x0FF0
def UPD_CFG_REFUSED_LAST_OFFSET : Fld := ⟨27, 0x1FE10, 16, 0⟩
def UPD_CFG_REFUSED_COUNT : Fld := ⟨27, 0x1FE00, 16, 0⟩

/-! ### OTP (offset base 0x1C, chapter file [17]) -/
-- OTP_STATUS, offset 0x0000
def OTP_STATUS_CURRENT : Fld := ⟨28, 0x1C, 4, 0⟩
def OTP_STATUS_WRITTEN : Fld := ⟨28, 0x10, 5, 0⟩
def OTP_STATUS_SPOILED : Fld := ⟨28, 0x8, 5, 0⟩
def OTP_STATUS_BUSY : Fld := ⟨28, 0x0, 1, 0⟩
-- OTP_CTR, offset 0x0004
def OTP_CTR_STEPS : Fld := ⟨28, 0x80, 32, 0⟩
-- OTP_READ_SEL, offset 0x0008
def OTP_READ_SEL_BLOCK : Fld := ⟨28, 0x108, 3, 0⟩
def OTP_READ_SEL_WORD : Fld := ⟨28, 0x100, 8, 0⟩
-- OTP_READ_DATA, offset 0x000C
def OTP_READ_DATA : Fld := ⟨28, 0x180, 32, 0⟩
-- OTP_CMD, offset 0x0010
def OTP_CMD_STEP : Fld := ⟨28, 0x208, 7, 0⟩
def OTP_CMD_CTR : Fld := ⟨28, 0x204, 2, 0⟩
def OTP_CMD_CMD : Fld := ⟨28, 0x200, 4, 0⟩
-- OTP_CMD_RES, offset 0x0014
def OTP_CMD_RES_ERROR : Fld := ⟨28, 0x290, 16, 0⟩
def OTP_CMD_RES_CMD : Fld := ⟨28, 0x284, 4, 0⟩
def OTP_CMD_RES_STATUS : Fld := ⟨28, 0x280, 3, 0⟩
-- OTP_CNT_SPOILED, offset 0x0080
def OTP_CNT_SPOILED : Fld := ⟨28, 0x1000, 32, 0⟩
-- OTP_CFG_REFUSED, offset 0x0FF0
def OTP_CFG_REFUSED_LAST_OFFSET : Fld := ⟨28, 0x1FE10, 16, 0⟩
def OTP_CFG_REFUSED_COUNT : Fld := ⟨28, 0x1FE00, 16, 0⟩

/-! ### FSH (offset base 0x1D, chapter file [17]) -/
-- FSH_CTRL, offset 0x0000
def FSH_CTRL_SPARE_LOW : Fld := ⟨29, 0x18, 8, 0x14⟩
def FSH_CTRL_REFRESH_LIM : Fld := ⟨29, 0x8, 8, 6⟩
def FSH_CTRL_WEAR_EN : Fld := ⟨29, 0x1, 1, 1⟩
def FSH_CTRL_EN : Fld := ⟨29, 0x0, 1, 1⟩
-- FSH_STATUS, offset 0x0004
def FSH_STATUS_SPARES : Fld := ⟨29, 0x98, 8, 0⟩
def FSH_STATUS_RO_REGIONS : Fld := ⟨29, 0x80, 16, 0⟩
-- FSH_REGION, offset 0x0040 + 0x4 * n (n < 10)
def FSH_REGION_RO (n : Nat) : Fld := ⟨29, 0x81F + 0x80 * n, 1, 0⟩
def FSH_REGION_MEAN (n : Nat) : Fld := ⟨29, 0x810 + 0x80 * n, 15, 0⟩
def FSH_REGION_BLOCKS (n : Nat) : Fld := ⟨29, 0x800 + 0x80 * n, 13, 0⟩
-- FSH_CNT_CORRECTED, offset 0x0080
def FSH_CNT_CORRECTED : Fld := ⟨29, 0x1000, 32, 0⟩
-- FSH_CNT_REFRESH, offset 0x0084
def FSH_CNT_REFRESH : Fld := ⟨29, 0x1080, 32, 0⟩
-- FSH_CNT_RETIRED, offset 0x0088
def FSH_CNT_RETIRED : Fld := ⟨29, 0x1100, 32, 0⟩
-- FSH_CNT_PROG_FAIL, offset 0x008C
def FSH_CNT_PROG_FAIL : Fld := ⟨29, 0x1180, 32, 0⟩
-- FSH_CNT_ERASE_FAIL, offset 0x0090
def FSH_CNT_ERASE_FAIL : Fld := ⟨29, 0x1200, 32, 0⟩
-- FSH_CNT_WRITE_REFUSED, offset 0x0094
def FSH_CNT_WRITE_REFUSED : Fld := ⟨29, 0x1280, 32, 0⟩
-- FSH_CNT_WEAR_DEFER, offset 0x0098
def FSH_CNT_WEAR_DEFER : Fld := ⟨29, 0x1300, 32, 0⟩
-- FSH_CFG_REFUSED, offset 0x0FF0
def FSH_CFG_REFUSED_LAST_OFFSET : Fld := ⟨29, 0x1FE10, 16, 0⟩
def FSH_CFG_REFUSED_COUNT : Fld := ⟨29, 0x1FE00, 16, 0⟩

/-! ### CCX (offset base 0x1E, chapter file [08]) -/
-- CCX_CTRL, offset 0x0000
def CCX_CTRL_EN : Fld := ⟨30, 0x0, 16, 0⟩
-- CCX_STATUS, offset 0x0004
def CCX_STATUS_HALTED : Fld := ⟨30, 0x90, 16, 0⟩
def CCX_STATUS_BUSY : Fld := ⟨30, 0x80, 16, 0⟩
-- CCX_VBASE, offset 0x0008
def CCX_VBASE_ADDR : Fld := ⟨30, 0x106, 26, 0⟩
def CCX_VBASE_HEN : Fld := ⟨30, 0x100, 1, 0⟩
-- CCX_CNT_EXC, offset 0x0080
def CCX_CNT_EXC : Fld := ⟨30, 0x1000, 32, 0⟩
-- CCX_CNT_NESTED, offset 0x0084
def CCX_CNT_NESTED : Fld := ⟨30, 0x1080, 32, 0⟩
-- CCX_CNT_ECC, offset 0x0088
def CCX_CNT_ECC : Fld := ⟨30, 0x1100, 32, 0⟩
-- CCX_CNT_BUDGET, offset 0x008C
def CCX_CNT_BUDGET : Fld := ⟨30, 0x1180, 32, 0⟩
-- CCX_CFG_REFUSED, offset 0x0FF0
def CCX_CFG_REFUSED_LAST_OFFSET : Fld := ⟨30, 0x1FE10, 16, 0⟩
def CCX_CFG_REFUSED_COUNT : Fld := ⟨30, 0x1FE00, 16, 0⟩
-- CCX_CORE_CTRL, offset 0x1000 + 0x100 * n (n < 16)
def CCX_CORE_CTRL_RESET (n : Nat) : Fld := ⟨30, 0x20000 + 0x2000 * n, 1, 0⟩
-- CCX_CORE_STATUS, offset 0x1004 + 0x100 * n (n < 16)
def CCX_CORE_STATUS_CAUSE (n : Nat) : Fld := ⟨30, 0x20098 + 0x2000 * n, 8, 0⟩
def CCX_CORE_STATUS_STATE (n : Nat) : Fld := ⟨30, 0x20090 + 0x2000 * n, 3, 0⟩
def CCX_CORE_STATUS_ITEM (n : Nat) : Fld := ⟨30, 0x20080 + 0x2000 * n, 16, 0⟩
-- CCX_CORE_EPC, offset 0x1008 + 0x100 * n (n < 16)
def CCX_CORE_EPC (n : Nat) : Fld := ⟨30, 0x20100 + 0x2000 * n, 32, 0⟩
-- CCX_CORE_EADDR, offset 0x100C + 0x100 * n (n < 16)
def CCX_CORE_EADDR (n : Nat) : Fld := ⟨30, 0x20180 + 0x2000 * n, 32, 0⟩
-- CCX_RGN_BASE, offset 0x1040 + 0x100 * n (n < 16) + 0x8 * m (m < 16)
def CCX_RGN_BASE_BASE (n m : Nat) : Fld := ⟨30, 0x2080C + 0x2000 * n + 0x100 * m, 20, 0⟩
def CCX_RGN_BASE_X (n m : Nat) : Fld := ⟨30, 0x20803 + 0x2000 * n + 0x100 * m, 1, 0⟩
def CCX_RGN_BASE_W (n m : Nat) : Fld := ⟨30, 0x20802 + 0x2000 * n + 0x100 * m, 1, 0⟩
def CCX_RGN_BASE_R (n m : Nat) : Fld := ⟨30, 0x20801 + 0x2000 * n + 0x100 * m, 1, 0⟩
def CCX_RGN_BASE_EN (n m : Nat) : Fld := ⟨30, 0x20800 + 0x2000 * n + 0x100 * m, 1, 0⟩
-- CCX_RGN_LIMIT, offset 0x1044 + 0x100 * n (n < 16) + 0x8 * m (m < 16)
def CCX_RGN_LIMIT_LIMIT (n m : Nat) : Fld := ⟨30, 0x2088C + 0x2000 * n + 0x100 * m, 20, 0⟩

/-- The registers of STW in ascending offset. -/
def regsSTW : List Reg :=
  [ ⟨0x0, [], [⟨0, 32, .ro, .none, 0⟩]⟩,
    ⟨0x4, [], [⟨0, 32, .ro, .none, 0⟩]⟩,
    ⟨0x8, [], [⟨0, 32, .ro, .none, 0⟩]⟩,
    ⟨0xC, [], [⟨28, 4, .ro, .none, 0⟩, ⟨25, 3, .ro, .none, 0⟩, ⟨24, 1, .ro, .none, 0⟩, ⟨16, 8, .ro, .none, 0⟩, ⟨0, 16, .ro, .none, 0⟩]⟩,
    ⟨0x10, [], [⟨0, 32, .ro, .none, 0⟩]⟩,
    ⟨0xFF0, [], [⟨16, 16, .ro, .none, 0⟩, ⟨0, 16, .ro, .none, 0⟩]⟩ ]

/-- The registers of PWR in ascending offset. -/
def regsPWR : List Reg :=
  [ ⟨0x0, [], [⟨1, 1, .rw, .shadowed, 1⟩, ⟨0, 1, .rw, .live, 0⟩]⟩,
    ⟨0x4, [], [⟨30, 2, .ro, .none, 1⟩, ⟨27, 3, .ro, .none, 0⟩, ⟨26, 1, .ro, .none, 0⟩, ⟨25, 1, .ro, .none, 0⟩, ⟨23, 2, .ro, .none, 0⟩, ⟨22, 1, .ro, .none, 0⟩, ⟨8, 8, .ro, .none, 0⟩]⟩,
    ⟨0x8, [], [⟨0, 4, .wo, .live, 0⟩]⟩,
    ⟨0xC, [], [⟨16, 16, .ro, .none, 0⟩, ⟨4, 4, .ro, .none, 0⟩, ⟨0, 3, .ro, .none, 0⟩]⟩,
    ⟨0x10, [], [⟨16, 16, .rw, .live, 0⟩, ⟨0, 7, .rw, .live, 0x3F⟩]⟩,
    ⟨0x14, [], [⟨16, 16, .rw, .live, 0⟩, ⟨0, 7, .rw, .live, 0⟩]⟩,
    ⟨0x18, [], [⟨16, 16, .w1c, .live, 0⟩, ⟨0, 7, .w1c, .live, 0⟩]⟩,
    ⟨0x20, [], [⟨0, 32, .rw, .live, 0⟩]⟩,
    ⟨0x24, [], [⟨0, 32, .rw, .live, 0⟩]⟩,
    ⟨0x28, [], [⟨24, 8, .rw, .shadowed, 0x73⟩, ⟨16, 8, .rw, .shadowed, 0x8C⟩, ⟨8, 8, .rw, .shadowed, 0x96⟩, ⟨0, 8, .rw, .shadowed, 5⟩]⟩,
    ⟨0x2C, [], [⟨16, 16, .ro, .none, 0⟩, ⟨0, 16, .ro, .none, 0⟩]⟩,
    ⟨0x80, [], [⟨0, 32, .ro, .none, 0⟩]⟩,
    ⟨0x84, [], [⟨0, 32, .ro, .none, 0⟩]⟩,
    ⟨0x88, [], [⟨0, 32, .ro, .none, 0⟩]⟩,
    ⟨0x8C, [], [⟨0, 32, .ro, .none, 0⟩]⟩,
    ⟨0x90, [], [⟨0, 32, .ro, .none, 0⟩]⟩,
    ⟨0xFF0, [], [⟨16, 16, .ro, .none, 0⟩, ⟨0, 16, .ro, .none, 0⟩]⟩ ]

/-- The registers of EVT in ascending offset. -/
def regsEVT : List Reg :=
  [ ⟨0x0, [], [⟨24, 8, .rw, .held, 0⟩, ⟨16, 8, .rw, .shadowed, 0xA⟩, ⟨8, 7, .rw, .held, 0⟩, ⟨1, 1, .rw, .live, 0⟩, ⟨0, 1, .rw, .live, 1⟩]⟩,
    ⟨0x4, [], [⟨19, 13, .ro, .none, 0⟩, ⟨0, 13, .ro, .none, 0⟩]⟩,
    ⟨0x8, [], [⟨22, 10, .rw, .shadowed, 0x100⟩, ⟨11, 11, .rw, .shadowed, 0x300⟩, ⟨0, 11, .rw, .shadowed, 0x200⟩]⟩,
    ⟨0xC, [], [⟨8, 5, .wo, .live, 0⟩, ⟨0, 4, .wo, .live, 0⟩]⟩,
    ⟨0x10, [], [⟨16, 16, .ro, .none, 0⟩, ⟨4, 4, .ro, .none, 0⟩, ⟨0, 3, .ro, .none, 0⟩]⟩,
    ⟨0x14, [], [⟨0, 16, .wo, .live, 0⟩]⟩,
    ⟨0x18, [], [⟨1, 7, .w1s, .live, 0⟩]⟩,
    ⟨0x20, [], [⟨0, 32, .ro, .none, 0⟩]⟩,
    ⟨0x24, [], [⟨0, 32, .ro, .none, 0⟩]⟩,
    ⟨0x28, [], [⟨31, 1, .ro, .none, 0⟩, ⟨30, 1, .ro, .none, 0⟩, ⟨0, 16, .ro, .none, 0⟩]⟩,
    ⟨0x40, [(0x4, 8)], [⟨0, 32, .w1c, .live, 0⟩]⟩,
    ⟨0x80, [], [⟨0, 32, .ro, .none, 0⟩]⟩,
    ⟨0x84, [], [⟨0, 32, .ro, .none, 0⟩]⟩,
    ⟨0x88, [], [⟨0, 32, .ro, .none, 0⟩]⟩,
    ⟨0x8C, [], [⟨0, 32, .ro, .none, 0⟩]⟩,
    ⟨0x90, [], [⟨0, 32, .ro, .none, 0⟩]⟩,
    ⟨0x94, [], [⟨0, 32, .ro, .none, 0⟩]⟩,
    ⟨0x98, [], [⟨0, 32, .ro, .none, 0⟩]⟩,
    ⟨0x9C, [], [⟨0, 32, .ro, .none, 0⟩]⟩,
    ⟨0xFF0, [], [⟨16, 16, .ro, .none, 0⟩, ⟨0, 16, .ro, .none, 0⟩]⟩,
    ⟨0x1000, [(0x4, 256)], [⟨31, 1, .rw, .live, 0⟩, ⟨0, 2, .rw, .live, 0⟩]⟩,
    ⟨0x1400, [(0x4, 256)], [⟨0, 32, .ro, .none, 0⟩]⟩,
    ⟨0x2000, [(0x20, 31), (0x4, 8)], [⟨0, 32, .ro, .none, 0⟩]⟩ ]

/-- The registers of MRC in ascending offset. -/
def regsMRC : List Reg :=
  [ ⟨0x0, [], [⟨24, 8, .rw, .shadowed, 0xA⟩, ⟨16, 8, .rw, .shadowed, 0x14⟩, ⟨0, 1, .rw, .live, 0⟩]⟩,
    ⟨0x4, [], [⟨30, 2, .ro, .none, 0⟩, ⟨17, 13, .ro, .none, 0⟩, ⟨0, 17, .ro, .none, 0⟩]⟩,
    ⟨0x8, [], [⟨20, 12, .rw, .held, 0⟩]⟩,
    ⟨0xC, [], [⟨16, 12, .wo, .live, 0⟩, ⟨0, 4, .wo, .live, 0⟩]⟩,
    ⟨0x10, [], [⟨16, 16, .ro, .none, 0⟩, ⟨4, 4, .ro, .none, 0⟩, ⟨0, 3, .ro, .none, 0⟩]⟩,
    ⟨0x18, [], [⟨0, 16, .rw, .held, 0x400⟩]⟩,
    ⟨0x20, [(0x4, 2)], [⟨0, 32, .rw, .live, 0⟩]⟩,
    ⟨0x30, [(0x4, 2)], [⟨0, 32, .ro, .none, 0⟩]⟩,
    ⟨0x38, [], [⟨16, 16, .ro, .none, 0⟩, ⟨0, 1, .wo, .live, 0⟩]⟩,
    ⟨0x80, [], [⟨0, 32, .ro, .none, 0⟩]⟩,
    ⟨0x84, [], [⟨0, 32, .ro, .none, 0⟩]⟩,
    ⟨0x88, [], [⟨0, 32, .ro, .none, 0⟩]⟩,
    ⟨0x8C, [], [⟨0, 32, .ro, .none, 0⟩]⟩,
    ⟨0x90, [], [⟨0, 32, .ro, .none, 0⟩]⟩,
    ⟨0x94, [], [⟨0, 32, .ro, .none, 0⟩]⟩,
    ⟨0x98, [], [⟨0, 32, .ro, .none, 0⟩]⟩,
    ⟨0x9C, [], [⟨0, 32, .ro, .none, 0⟩]⟩,
    ⟨0xA0, [], [⟨0, 32, .ro, .none, 0⟩]⟩,
    ⟨0xA4, [], [⟨0, 32, .ro, .none, 0⟩]⟩,
    ⟨0xA8, [], [⟨0, 32, .ro, .none, 0⟩]⟩,
    ⟨0xAC, [], [⟨0, 32, .ro, .none, 0⟩]⟩,
    ⟨0xB0, [], [⟨0, 32, .ro, .none, 0⟩]⟩,
    ⟨0xFF0, [], [⟨16, 16, .ro, .none, 0⟩, ⟨0, 16, .ro, .none, 0⟩]⟩,
    ⟨0x1000, [(0x10, 64)], [⟨31, 1, .rw, .live, 0⟩, ⟨16, 12, .rw, .live, 0⟩, ⟨0, 10, .rw, .live, 0⟩]⟩,
    ⟨0x1004, [(0x10, 64)], [⟨0, 32, .rw, .live, 0⟩]⟩,
    ⟨0x1008, [(0x10, 64)], [⟨0, 32, .rw, .live, 0⟩]⟩,
    ⟨0x100C, [(0x10, 64)], [⟨0, 32, .rw, .live, 0⟩]⟩,
    ⟨0x2000, [(0x4, 256)], [⟨31, 1, .rw, .live, 0⟩, ⟨16, 12, .rw, .live, 0⟩, ⟨0, 10, .rw, .live, 0⟩]⟩,
    ⟨0x8000, [(0x20, 1024), (0x4, 8)], [⟨0, 32, .rw, .live, 0⟩]⟩ ]

/-- The registers of FLM in ascending offset. -/
def regsFLM : List Reg :=
  [ ⟨0x0, [], [⟨0, 1, .rw, .live, 0⟩]⟩,
    ⟨0x4, [], [⟨20, 12, .rw, .held, 0⟩, ⟨0, 4, .rw, .held, 0⟩]⟩,
    ⟨0x8, [], [⟨16, 8, .ro, .none, 0⟩, ⟨8, 8, .ro, .none, 0⟩]⟩,
    ⟨0xC, [], [⟨8, 7, .wo, .live, 0⟩, ⟨0, 4, .wo, .live, 0⟩]⟩,
    ⟨0x10, [], [⟨16, 16, .ro, .none, 0⟩, ⟨4, 4, .ro, .none, 0⟩, ⟨0, 3, .ro, .none, 0⟩]⟩,
    ⟨0x20, [(0x4, 4)], [⟨0, 32, .ro, .none, 0⟩]⟩,
    ⟨0x30, [(0x4, 4)], [⟨15, 1, .ro, .none, 0⟩, ⟨8, 7, .rw, .live, 0⟩, ⟨2, 1, .rw, .live, 0⟩, ⟨0, 2, .rw, .live, 0⟩]⟩,
    ⟨0x80, [], [⟨0, 32, .ro, .none, 0⟩]⟩,
    ⟨0x84, [], [⟨0, 32, .ro, .none, 0⟩]⟩,
    ⟨0x88, [], [⟨0, 32, .ro, .none, 0⟩]⟩,
    ⟨0x8C, [], [⟨0, 32, .ro, .none, 0⟩]⟩,
    ⟨0xFF0, [], [⟨16, 16, .ro, .none, 0⟩, ⟨0, 16, .ro, .none, 0⟩]⟩,
    ⟨0x1000, [(0x20, 128)], [⟨31, 1, .rw, .live, 0⟩, ⟨8, 5, .rw, .held, 4⟩, ⟨4, 1, .rw, .held, 0⟩, ⟨2, 2, .rw, .held, 0⟩, ⟨1, 1, .rw, .held, 0⟩]⟩,
    ⟨0x1004, [(0x20, 128)], [⟨3, 29, .rw, .held, 0⟩]⟩,
    ⟨0x1008, [(0x20, 128)], [⟨16, 16, .rw, .shadowed, 0⟩, ⟨0, 16, .rw, .shadowed, 0⟩]⟩,
    ⟨0x100C, [(0x20, 128)], [⟨31, 1, .ro, .none, 0⟩, ⟨30, 1, .ro, .none, 0⟩, ⟨29, 1, .ro, .none, 0⟩, ⟨0, 21, .ro, .none, 0⟩]⟩,
    ⟨0x1010, [(0x20, 128)], [⟨16, 16, .ro, .none, 0⟩, ⟨0, 16, .ro, .none, 0⟩]⟩,
    ⟨0x1014, [(0x20, 128)], [⟨0, 32, .ro, .none, 0⟩]⟩,
    ⟨0x1018, [(0x20, 128)], [⟨0, 32, .ro, .none, 0⟩]⟩ ]

/-- The registers of MEM in ascending offset. -/
def regsMEM : List Reg :=
  [ ⟨0x0, [], [⟨1, 11, .rw, .shadowed, 0x40⟩, ⟨0, 1, .rw, .live, 1⟩]⟩,
    ⟨0x4, [], [⟨16, 16, .ro, .none, 0⟩, ⟨0, 16, .ro, .none, 0⟩]⟩,
    ⟨0x8, [], [⟨0, 4, .wo, .live, 0⟩]⟩,
    ⟨0xC, [], [⟨16, 16, .ro, .none, 0⟩, ⟨4, 4, .ro, .none, 0⟩, ⟨0, 3, .ro, .none, 0⟩]⟩,
    ⟨0x10, [], [⟨3, 29, .rw, .live, 0⟩, ⟨0, 2, .rw, .live, 0⟩]⟩,
    ⟨0x20, [], [⟨0, 32, .ro, .none, 0⟩]⟩,
    ⟨0x24, [], [⟨16, 16, .ro, .none, 0⟩, ⟨12, 4, .ro, .none, 0⟩, ⟨8, 4, .ro, .none, 0⟩, ⟨0, 5, .ro, .none, 0⟩]⟩,
    ⟨0x28, [], [⟨0, 32, .ro, .none, 0⟩]⟩,
    ⟨0x2C, [], [⟨16, 16, .ro, .none, 0⟩, ⟨12, 4, .ro, .none, 0⟩, ⟨8, 4, .ro, .none, 0⟩, ⟨0, 5, .ro, .none, 0⟩]⟩,
    ⟨0x30, [], [⟨0, 32, .ro, .none, 0⟩]⟩,
    ⟨0x80, [], [⟨0, 32, .ro, .none, 0⟩]⟩,
    ⟨0x84, [], [⟨0, 32, .ro, .none, 0⟩]⟩,
    ⟨0x88, [], [⟨0, 32, .ro, .none, 0⟩]⟩,
    ⟨0x8C, [], [⟨0, 32, .ro, .none, 0⟩]⟩,
    ⟨0x90, [], [⟨0, 32, .ro, .none, 0⟩]⟩,
    ⟨0x94, [], [⟨0, 32, .ro, .none, 0⟩]⟩,
    ⟨0xFF0, [], [⟨16, 16, .ro, .none, 0⟩, ⟨0, 16, .ro, .none, 0⟩]⟩ ]

/-- The registers of REF in ascending offset. -/
def regsREF : List Reg :=
  [ ⟨0x0, [], [⟨16, 8, .rw, .shadowed, 0x78⟩, ⟨11, 5, .rw, .shadowed, 0xA⟩, ⟨10, 1, .rw, .live, 1⟩, ⟨9, 1, .rw, .live, 1⟩, ⟨8, 1, .rw, .held, 1⟩, ⟨6, 2, .rw, .held, 0⟩, ⟨5, 1, .rw, .shadowed, 1⟩, ⟨4, 1, .rw, .live, 1⟩, ⟨3, 1, .rw, .held, 0⟩, ⟨2, 1, .rw, .live, 1⟩, ⟨1, 1, .rw, .shadowed, 0⟩, ⟨0, 1, .rw, .live, 0⟩]⟩,
    ⟨0x4, [], [⟨0, 4, .wo, .live, 0⟩]⟩,
    ⟨0x8, [], [⟨24, 8, .ro, .none, 0⟩, ⟨16, 8, .ro, .none, 0⟩, ⟨15, 1, .ro, .none, 0⟩, ⟨13, 2, .ro, .none, 0⟩, ⟨12, 1, .ro, .none, 0⟩, ⟨10, 2, .ro, .none, 0⟩, ⟨8, 2, .ro, .none, 0⟩, ⟨4, 4, .ro, .none, 0⟩, ⟨0, 4, .ro, .none, 0⟩]⟩,
    ⟨0xC, [], [⟨3, 2, .rw, .shadowed, 0⟩, ⟨0, 3, .rw, .shadowed, 0⟩]⟩,
    ⟨0x10, [], [⟨0, 18, .rw, .shadowed, 0x3FFFF⟩]⟩,
    ⟨0x20, [], [⟨0, 32, .rw, .live, 0⟩]⟩,
    ⟨0x24, [], [⟨0, 32, .rw, .live, 0⟩]⟩,
    ⟨0x28, [], [⟨0, 32, .rw, .live, 0⟩]⟩,
    ⟨0x2C, [], [⟨0, 32, .rw, .live, 0⟩]⟩,
    ⟨0x30, [], [⟨0, 32, .rw, .live, 0⟩]⟩,
    ⟨0x34, [], [⟨0, 32, .rw, .live, 0⟩]⟩,
    ⟨0x38, [], [⟨0, 16, .ro, .none, 0⟩]⟩,
    ⟨0x40, [], [⟨0, 32, .rw, .held, 0⟩]⟩,
    ⟨0x44, [], [⟨0, 32, .rw, .held, 0⟩]⟩,
    ⟨0x48, [], [⟨0, 32, .rw, .held, 0⟩]⟩,
    ⟨0x4C, [], [⟨8, 8, .rw, .live, 5⟩, ⟨0, 8, .rw, .live, 0x14⟩]⟩,
    ⟨0x50, [], [⟨16, 16, .rw, .live, 0x3E8⟩, ⟨0, 16, .rw, .live, 0x168⟩]⟩,
    ⟨0x54, [], [⟨16, 16, .ro, .none, 0xFFFF⟩, ⟨0, 16, .ro, .none, 0⟩]⟩,
    ⟨0x58, [], [⟨16, 16, .ro, .none, 0⟩, ⟨4, 4, .ro, .none, 0⟩, ⟨0, 3, .ro, .none, 0⟩]⟩,
    ⟨0x60, [], [⟨12, 20, .rw, .held, 0⟩]⟩,
    ⟨0x64, [], [⟨24, 8, .rw, .live, 0x28⟩, ⟨20, 4, .rw, .live, 3⟩, ⟨0, 16, .rw, .live, 0x1000⟩]⟩,
    ⟨0x68, [], [⟨16, 16, .ro, .none, 0⟩, ⟨0, 16, .ro, .none, 0⟩]⟩,
    ⟨0x70, [], [⟨24, 8, .rw, .live, 0x3C⟩, ⟨16, 8, .rw, .live, 4⟩, ⟨0, 16, .rw, .live, 0x3E8⟩]⟩,
    ⟨0x74, [], [⟨0, 32, .ro, .none, 0⟩]⟩,
    ⟨0x78, [], [⟨0, 32, .ro, .none, 0⟩]⟩,
    ⟨0x7C, [], [⟨0, 32, .ro, .none, 0⟩]⟩,
    ⟨0x80, [], [⟨25, 1, .rw, .shadowed, 0⟩, ⟨24, 1, .rw, .shadowed, 1⟩, ⟨16, 8, .rw, .shadowed, 0xA⟩, ⟨13, 3, .rw, .shadowed, 1⟩, ⟨12, 1, .rw, .shadowed, 0⟩, ⟨0, 12, .rw, .shadowed, 0⟩]⟩,
    ⟨0x84, [], [⟨16, 8, .rw, .shadowed, 0xA⟩, ⟨7, 3, .rw, .shadowed, 1⟩, ⟨6, 1, .rw, .shadowed, 0⟩, ⟨0, 6, .rw, .shadowed, 5⟩]⟩,
    ⟨0x88, [], [⟨16, 16, .rw, .held, 0x835⟩, ⟨2, 7, .rw, .live, 0x40⟩, ⟨1, 1, .rw, .held, 0⟩, ⟨0, 1, .rw, .live, 0⟩]⟩,
    ⟨0x8C, [], [⟨16, 16, .ro, .none, 0⟩, ⟨0, 8, .ro, .none, 0⟩]⟩,
    ⟨0x90, [], [⟨8, 7, .rw, .held, 0⟩, ⟨0, 7, .rw, .held, 0⟩]⟩,
    ⟨0xA0, [], [⟨0, 32, .ro, .none, 0⟩]⟩,
    ⟨0xA4, [], [⟨0, 32, .ro, .none, 0⟩]⟩,
    ⟨0xA8, [], [⟨0, 32, .ro, .none, 0⟩]⟩,
    ⟨0xAC, [], [⟨0, 32, .ro, .none, 0⟩]⟩,
    ⟨0xB0, [], [⟨0, 32, .ro, .none, 0⟩]⟩,
    ⟨0xB4, [], [⟨0, 32, .ro, .none, 0⟩]⟩,
    ⟨0xFF0, [], [⟨16, 16, .ro, .none, 0⟩, ⟨0, 16, .ro, .none, 0⟩]⟩ ]

/-- The registers of SOL in ascending offset. -/
def regsSOL : List Reg :=
  [ ⟨0x0, [], [⟨16, 8, .rw, .shadowed, 0x68⟩, ⟨11, 5, .rw, .shadowed, 0xF⟩, ⟨1, 1, .rw, .shadowed, 1⟩, ⟨0, 1, .rw, .live, 0⟩]⟩,
    ⟨0x4, [], [⟨23, 9, .ro, .none, 0⟩, ⟨14, 9, .ro, .none, 0⟩, ⟨5, 9, .ro, .none, 0⟩, ⟨0, 2, .ro, .none, 0⟩]⟩,
    ⟨0x8, [], [⟨24, 8, .rw, .shadowed, 0x1E⟩, ⟨20, 4, .rw, .shadowed, 2⟩, ⟨16, 4, .rw, .shadowed, 6⟩, ⟨8, 8, .rw, .shadowed, 6⟩]⟩,
    ⟨0xC, [], [⟨24, 8, .rw, .shadowed, 0x3C⟩, ⟨16, 8, .rw, .shadowed, 0x3C⟩, ⟨12, 4, .rw, .shadowed, 5⟩]⟩,
    ⟨0x10, [], [⟨8, 4, .rw, .shadowed, 3⟩, ⟨4, 4, .rw, .shadowed, 1⟩, ⟨0, 4, .rw, .shadowed, 6⟩]⟩,
    ⟨0x14, [], [⟨24, 8, .rw, .shadowed, 0x14⟩, ⟨16, 8, .rw, .shadowed, 0x14⟩, ⟨8, 8, .rw, .shadowed, 0x32⟩]⟩,
    ⟨0x18, [], [⟨16, 7, .rw, .held, 0⟩, ⟨8, 7, .rw, .held, 0⟩, ⟨0, 7, .rw, .held, 0⟩]⟩,
    ⟨0x20, [], [⟨8, 4, .wo, .live, 0⟩, ⟨0, 8, .wo, .live, 0⟩]⟩,
    ⟨0x24, [], [⟨16, 16, .ro, .none, 0⟩, ⟨8, 8, .ro, .none, 0⟩, ⟨4, 4, .ro, .none, 0⟩, ⟨0, 3, .ro, .none, 0⟩]⟩,
    ⟨0x28, [], [⟨16, 16, .ro, .none, 0⟩, ⟨0, 10, .ro, .none, 0⟩]⟩,
    ⟨0x2C, [], [⟨16, 16, .ro, .none, 0⟩, ⟨0, 1, .wo, .live, 0⟩]⟩,
    ⟨0x40, [(0x4, 8)], [⟨0, 32, .w1c, .live, 0⟩]⟩,
    ⟨0x80, [], [⟨0, 32, .ro, .none, 0⟩]⟩,
    ⟨0x84, [], [⟨0, 32, .ro, .none, 0⟩]⟩,
    ⟨0x88, [], [⟨0, 32, .ro, .none, 0⟩]⟩,
    ⟨0x8C, [], [⟨0, 32, .ro, .none, 0⟩]⟩,
    ⟨0x90, [], [⟨0, 32, .ro, .none, 0⟩]⟩,
    ⟨0x94, [], [⟨0, 32, .ro, .none, 0⟩]⟩,
    ⟨0x98, [], [⟨0, 32, .ro, .none, 0⟩]⟩,
    ⟨0x9C, [], [⟨0, 32, .ro, .none, 0⟩]⟩,
    ⟨0xFF0, [], [⟨16, 16, .ro, .none, 0⟩, ⟨0, 16, .ro, .none, 0⟩]⟩ ]

/-- The registers of CLM in ascending offset. -/
def regsCLM : List Reg :=
  [ ⟨0x0, [], [⟨2, 2, .rw, .held, 0⟩, ⟨1, 1, .rw, .shadowed, 1⟩, ⟨0, 1, .rw, .live, 0⟩]⟩,
    ⟨0x4, [], [⟨28, 4, .ro, .none, 0⟩, ⟨16, 12, .ro, .none, 0⟩, ⟨0, 16, .ro, .none, 0⟩]⟩,
    ⟨0x8, [], [⟨0, 4, .wo, .live, 0⟩]⟩,
    ⟨0xC, [], [⟨16, 16, .ro, .none, 0⟩, ⟨4, 4, .ro, .none, 0⟩, ⟨0, 3, .ro, .none, 0⟩]⟩,
    ⟨0x10, [], [⟨16, 16, .rw, .shadowed, 0xC8⟩, ⟨0, 16, .rw, .shadowed, 0x1F4⟩]⟩,
    ⟨0x14, [], [⟨0, 10, .rw, .shadowed, 0x258⟩]⟩,
    ⟨0x18, [], [⟨16, 7, .rw, .held, 0⟩, ⟨8, 7, .rw, .held, 0⟩, ⟨0, 7, .rw, .held, 0⟩]⟩,
    ⟨0x1C, [], [⟨0, 32, .rw, .held, 0⟩]⟩,
    ⟨0x20, [], [⟨31, 1, .ro, .none, 0⟩, ⟨16, 4, .ro, .none, 0⟩, ⟨0, 13, .ro, .none, 0⟩]⟩,
    ⟨0x24, [], [⟨0, 18, .ro, .none, 0⟩]⟩,
    ⟨0x28, [], [⟨16, 16, .ro, .none, 0⟩, ⟨0, 1, .wo, .live, 0⟩]⟩,
    ⟨0x80, [], [⟨0, 32, .ro, .none, 0⟩]⟩,
    ⟨0x84, [], [⟨0, 32, .ro, .none, 0⟩]⟩,
    ⟨0x88, [], [⟨0, 32, .ro, .none, 0⟩]⟩,
    ⟨0x8C, [], [⟨0, 32, .ro, .none, 0⟩]⟩,
    ⟨0x90, [], [⟨0, 32, .ro, .none, 0⟩]⟩,
    ⟨0x94, [], [⟨0, 32, .ro, .none, 0⟩]⟩,
    ⟨0x98, [], [⟨0, 32, .ro, .none, 0⟩]⟩,
    ⟨0x9C, [], [⟨0, 32, .ro, .none, 0⟩]⟩,
    ⟨0xA0, [], [⟨0, 32, .ro, .none, 0⟩]⟩,
    ⟨0xA4, [], [⟨0, 32, .ro, .none, 0⟩]⟩,
    ⟨0xFF0, [], [⟨16, 16, .ro, .none, 0⟩, ⟨0, 16, .ro, .none, 0⟩]⟩ ]

/-- The registers of PRO in ascending offset. -/
def regsPRO : List Reg :=
  [ ⟨0x0, [], [⟨1, 1, .rw, .shadowed, 1⟩, ⟨0, 1, .rw, .live, 0⟩]⟩,
    ⟨0x4, [], [⟨15, 9, .ro, .none, 0⟩, ⟨6, 9, .ro, .none, 0⟩, ⟨0, 2, .ro, .none, 0⟩]⟩,
    ⟨0x8, [], [⟨8, 7, .rw, .held, 0⟩, ⟨0, 7, .rw, .held, 0⟩]⟩,
    ⟨0xC, [], [⟨16, 16, .rw, .held, 0⟩]⟩,
    ⟨0x10, [], [⟨16, 16, .rw, .shadowed, 0x64⟩, ⟨0, 16, .rw, .shadowed, 0x32⟩]⟩,
    ⟨0x14, [], [⟨0, 5, .rw, .live, 2⟩]⟩,
    ⟨0x18, [], [⟨0, 19, .rw, .held, 0⟩]⟩,
    ⟨0x40, [(0x4, 9)], [⟨0, 32, .w1c, .live, 0⟩]⟩,
    ⟨0x80, [], [⟨0, 32, .ro, .none, 0⟩]⟩,
    ⟨0x84, [], [⟨0, 32, .ro, .none, 0⟩]⟩,
    ⟨0x88, [], [⟨0, 32, .ro, .none, 0⟩]⟩,
    ⟨0x8C, [], [⟨0, 32, .ro, .none, 0⟩]⟩,
    ⟨0x90, [], [⟨0, 32, .ro, .none, 0⟩]⟩,
    ⟨0x94, [], [⟨0, 32, .ro, .none, 0⟩]⟩,
    ⟨0x98, [], [⟨0, 32, .ro, .none, 0⟩]⟩,
    ⟨0x9C, [], [⟨0, 32, .ro, .none, 0⟩]⟩,
    ⟨0xFF0, [], [⟨16, 16, .ro, .none, 0⟩, ⟨0, 16, .ro, .none, 0⟩]⟩,
    ⟨0x1000, [(0x20, 264)], [⟨16, 16, .rw, .shadowed, 0x3E8⟩, ⟨0, 16, .rw, .live, 0xFFFF⟩]⟩,
    ⟨0x1004, [(0x20, 264)], [⟨16, 16, .rw, .shadowed, 0x12C⟩, ⟨0, 16, .rw, .shadowed, 0x1F4⟩]⟩,
    ⟨0x1008, [(0x20, 264)], [⟨16, 16, .rw, .shadowed, 0x3E8⟩]⟩,
    ⟨0x100C, [(0x20, 264)], [⟨16, 16, .rw, .shadowed, 0x7D0⟩, ⟨0, 16, .rw, .shadowed, 0x3E8⟩]⟩,
    ⟨0x1010, [(0x20, 264)], [⟨31, 1, .ro, .none, 0⟩, ⟨30, 1, .ro, .none, 0⟩, ⟨29, 1, .ro, .none, 0⟩, ⟨26, 3, .ro, .none, 0⟩, ⟨21, 5, .ro, .none, 0⟩, ⟨18, 3, .ro, .none, 0⟩, ⟨16, 2, .ro, .none, 0⟩]⟩,
    ⟨0x1014, [(0x20, 264)], [⟨0, 32, .ro, .none, 0⟩]⟩,
    ⟨0x1018, [(0x20, 264)], [⟨0, 32, .ro, .none, 0⟩]⟩,
    ⟨0x101C, [(0x20, 264)], [⟨0, 32, .ro, .none, 0⟩]⟩,
    ⟨0x4000, [(0x10, 64)], [⟨31, 1, .rw, .live, 0⟩, ⟨0, 13, .rw, .shadowed, 0⟩]⟩,
    ⟨0x4004, [(0x10, 64)], [⟨0, 32, .rw, .shadowed, 0⟩]⟩,
    ⟨0x4008, [(0x10, 64)], [⟨0, 32, .rw, .shadowed, 0⟩]⟩ ]

/-- The registers of AIR in ascending offset. -/
def regsAIR : List Reg :=
  [ ⟨0x0, [], [⟨10, 3, .rw, .held, 0⟩, ⟨8, 2, .rw, .held, 0⟩, ⟨7, 1, .rw, .held, 0⟩, ⟨4, 1, .rw, .live, 1⟩, ⟨3, 1, .rw, .live, 1⟩, ⟨2, 1, .rw, .live, 0⟩, ⟨1, 1, .rw, .live, 0⟩, ⟨0, 1, .rw, .live, 0⟩]⟩,
    ⟨0x4, [], [⟨23, 9, .ro, .none, 0⟩, ⟨7, 1, .ro, .none, 0⟩, ⟨0, 4, .ro, .none, 0⟩]⟩,
    ⟨0x8, [], [⟨21, 3, .ro, .none, 0⟩, ⟨0, 16, .rw, .held, 0⟩]⟩,
    ⟨0xC, [], [⟨24, 8, .ro, .none, 0⟩, ⟨16, 8, .rw, .held, 0xC⟩, ⟨8, 8, .rw, .shadowed, 0x24⟩]⟩,
    ⟨0x10, [], [⟨16, 16, .rw, .held, 0x28⟩, ⟨0, 16, .ro, .none, 0x190⟩]⟩,
    ⟨0x14, [], [⟨27, 5, .ro, .none, 0⟩, ⟨0, 16, .ro, .none, 0⟩]⟩,
    ⟨0x18, [], [⟨16, 7, .rw, .held, 0⟩, ⟨8, 7, .rw, .held, 0⟩, ⟨0, 7, .rw, .held, 0⟩]⟩,
    ⟨0x1C, [], [⟨8, 8, .wo, .live, 0⟩, ⟨0, 4, .wo, .live, 0⟩]⟩,
    ⟨0x20, [], [⟨16, 16, .ro, .none, 0⟩, ⟨8, 8, .ro, .none, 0⟩, ⟨4, 4, .ro, .none, 0⟩, ⟨0, 3, .ro, .none, 0⟩]⟩,
    ⟨0x80, [], [⟨0, 32, .ro, .none, 0⟩]⟩,
    ⟨0x84, [], [⟨0, 32, .ro, .none, 0⟩]⟩,
    ⟨0x88, [], [⟨0, 32, .ro, .none, 0⟩]⟩,
    ⟨0x8C, [], [⟨0, 32, .ro, .none, 0⟩]⟩,
    ⟨0x90, [], [⟨0, 32, .ro, .none, 0⟩]⟩,
    ⟨0x94, [], [⟨0, 32, .ro, .none, 0⟩]⟩,
    ⟨0x98, [], [⟨0, 32, .ro, .none, 0⟩]⟩,
    ⟨0x9C, [], [⟨0, 32, .ro, .none, 0⟩]⟩,
    ⟨0xA0, [], [⟨0, 32, .ro, .none, 0⟩]⟩,
    ⟨0xA4, [], [⟨0, 32, .ro, .none, 0⟩]⟩,
    ⟨0xA8, [], [⟨0, 32, .ro, .none, 0⟩]⟩,
    ⟨0xAC, [], [⟨0, 32, .ro, .none, 0⟩]⟩,
    ⟨0xB0, [], [⟨0, 32, .ro, .none, 0⟩]⟩,
    ⟨0xB4, [], [⟨0, 32, .ro, .none, 0⟩]⟩,
    ⟨0xB8, [], [⟨0, 32, .ro, .none, 0⟩]⟩,
    ⟨0xBC, [], [⟨0, 32, .ro, .none, 0⟩]⟩,
    ⟨0x100, [(0x4, 32)], [⟨0, 32, .ro, .none, 0⟩]⟩,
    ⟨0xFF0, [], [⟨16, 16, .ro, .none, 0⟩, ⟨0, 16, .ro, .none, 0⟩]⟩ ]

/-- The registers of WKR in ascending offset. -/
def regsWKR : List Reg :=
  [ ⟨0x0, [], [⟨3, 1, .rw, .live, 0⟩, ⟨2, 1, .rw, .live, 0⟩, ⟨1, 1, .rw, .live, 1⟩, ⟨0, 1, .rw, .live, 1⟩]⟩,
    ⟨0x4, [], [⟨16, 16, .rw, .held, 0⟩, ⟨0, 16, .rw, .held, 0⟩]⟩,
    ⟨0x8, [], [⟨0, 16, .rw, .held, 0⟩]⟩,
    ⟨0xC, [], [⟨0, 8, .rw, .shadowed, 0xFC⟩]⟩,
    ⟨0x10, [], [⟨28, 4, .rw, .live, 1⟩, ⟨24, 4, .rw, .live, 3⟩, ⟨16, 8, .rw, .live, 0xC⟩, ⟨0, 16, .rw, .live, 0x1F4⟩]⟩,
    ⟨0x14, [], [⟨16, 16, .rw, .live, 0x4E20⟩, ⟨8, 8, .rw, .live, 5⟩, ⟨0, 8, .rw, .live, 0x32⟩]⟩,
    ⟨0x18, [], [⟨14, 18, .rw, .held, 0⟩]⟩,
    ⟨0x1C, [], [⟨22, 10, .ro, .none, 0⟩, ⟨12, 10, .ro, .none, 0⟩, ⟨2, 10, .ro, .none, 0⟩, ⟨0, 2, .ro, .none, 0⟩]⟩,
    ⟨0x20, [], [⟨8, 9, .wo, .live, 0⟩, ⟨0, 4, .wo, .live, 0⟩]⟩,
    ⟨0x24, [], [⟨16, 16, .ro, .none, 0⟩, ⟨8, 8, .ro, .none, 0⟩, ⟨4, 4, .ro, .none, 0⟩, ⟨3, 1, .ro, .none, 0⟩, ⟨0, 3, .ro, .none, 0⟩]⟩,
    ⟨0x80, [], [⟨0, 32, .ro, .none, 0⟩]⟩,
    ⟨0x84, [], [⟨0, 32, .ro, .none, 0⟩]⟩,
    ⟨0x88, [], [⟨0, 32, .ro, .none, 0⟩]⟩,
    ⟨0x8C, [], [⟨0, 32, .ro, .none, 0⟩]⟩,
    ⟨0x90, [], [⟨0, 32, .ro, .none, 0⟩]⟩,
    ⟨0x94, [], [⟨0, 32, .ro, .none, 0⟩]⟩,
    ⟨0x98, [], [⟨0, 32, .ro, .none, 0⟩]⟩,
    ⟨0x9C, [], [⟨0, 32, .ro, .none, 0⟩]⟩,
    ⟨0xA0, [], [⟨0, 32, .ro, .none, 0⟩]⟩,
    ⟨0x100, [(0x4, 64)], [⟨0, 32, .ro, .none, 0⟩]⟩,
    ⟨0xFF0, [], [⟨16, 16, .ro, .none, 0⟩, ⟨0, 16, .ro, .none, 0⟩]⟩ ]

/-- The registers of STP in ascending offset. -/
def regsSTP : List Reg :=
  [ ⟨0x0, [], [⟨8, 2, .rw, .shadowed, 3⟩, ⟨4, 4, .rw, .shadowed, 0xF⟩, ⟨3, 1, .rw, .shadowed, 1⟩, ⟨2, 1, .rw, .shadowed, 1⟩, ⟨1, 1, .ro, .none, 0⟩]⟩,
    ⟨0x4, [], [⟨29, 3, .ro, .none, 0⟩, ⟨28, 1, .ro, .none, 0⟩, ⟨26, 2, .ro, .none, 0⟩, ⟨25, 1, .ro, .none, 0⟩, ⟨24, 1, .ro, .none, 0⟩, ⟨23, 1, .ro, .none, 0⟩, ⟨22, 1, .ro, .none, 0⟩, ⟨8, 8, .ro, .none, 0⟩, ⟨0, 8, .ro, .none, 0⟩]⟩,
    ⟨0x8, [], [⟨0, 4, .wo, .live, 0⟩]⟩,
    ⟨0xC, [], [⟨16, 16, .ro, .none, 0⟩, ⟨4, 4, .ro, .none, 0⟩, ⟨0, 3, .ro, .none, 0⟩]⟩,
    ⟨0x10, [], [⟨16, 16, .rw, .shadowed, 0x64⟩, ⟨0, 16, .rw, .shadowed, 0x5DC⟩]⟩,
    ⟨0x14, [], [⟨0, 4, .rw, .shadowed, 2⟩]⟩,
    ⟨0x20, [], [⟨0, 32, .ro, .none, 0⟩]⟩,
    ⟨0x24, [], [⟨0, 32, .ro, .none, 0⟩]⟩,
    ⟨0x28, [], [⟨0, 32, .ro, .none, 0⟩]⟩,
    ⟨0x2C, [], [⟨24, 8, .ro, .none, 0⟩, ⟨0, 16, .ro, .none, 0⟩]⟩,
    ⟨0x30, [], [⟨16, 16, .ro, .none, 0⟩, ⟨0, 1, .wo, .live, 0⟩]⟩,
    ⟨0x40, [], [⟨0, 32, .rw, .shadowed, 0x554F0003⟩]⟩,
    ⟨0x44, [], [⟨0, 16, .rw, .shadowed, 0x100⟩]⟩,
    ⟨0x48, [], [⟨16, 1, .rw, .shadowed, 0⟩, ⟨13, 3, .rw, .shadowed, 7⟩, ⟨12, 1, .rw, .shadowed, 0⟩, ⟨0, 12, .rw, .shadowed, 0⟩]⟩,
    ⟨0x4C, [], [⟨31, 1, .rw, .shadowed, 0⟩, ⟨0, 29, .rw, .shadowed, 0x10⟩]⟩,
    ⟨0x50, [], [⟨4, 4, .rw, .shadowed, 2⟩, ⟨0, 4, .rw, .shadowed, 0⟩]⟩,
    ⟨0x80, [], [⟨0, 32, .ro, .none, 0⟩]⟩,
    ⟨0x84, [], [⟨0, 32, .ro, .none, 0⟩]⟩,
    ⟨0x88, [], [⟨0, 32, .ro, .none, 0⟩]⟩,
    ⟨0x8C, [], [⟨0, 32, .ro, .none, 0⟩]⟩,
    ⟨0x90, [], [⟨0, 32, .ro, .none, 0⟩]⟩,
    ⟨0x94, [], [⟨0, 32, .ro, .none, 0⟩]⟩,
    ⟨0x98, [], [⟨0, 32, .ro, .none, 0⟩]⟩,
    ⟨0xFF0, [], [⟨16, 16, .ro, .none, 0⟩, ⟨0, 16, .ro, .none, 0⟩]⟩ ]

/-- The registers of ETH, part 0 in ascending offset. -/
def regsETH0 : List Reg :=
  [ ⟨0x0, [], [⟨15, 1, .rw, .shadowed, 0⟩, ⟨14, 1, .rw, .shadowed, 0⟩, ⟨12, 2, .rw, .held, 0⟩, ⟨9, 3, .rw, .shadowed, 0⟩, ⟨3, 1, .rw, .held, 0⟩, ⟨2, 1, .rw, .live, 0⟩, ⟨1, 1, .rw, .live, 0⟩, ⟨0, 1, .rw, .live, 0⟩]⟩,
    ⟨0x4, [], [⟨31, 1, .ro, .none, 0⟩, ⟨29, 2, .ro, .none, 0⟩, ⟨26, 3, .ro, .none, 0⟩, ⟨25, 1, .ro, .none, 0⟩, ⟨23, 2, .ro, .none, 0⟩]⟩,
    ⟨0x8, [], [⟨0, 32, .rw, .held, 0⟩]⟩,
    ⟨0xC, [], [⟨0, 16, .rw, .held, 0⟩]⟩,
    ⟨0x10, [], [⟨16, 16, .rw, .shadowed, 0⟩, ⟨0, 16, .rw, .shadowed, 0⟩]⟩,
    ⟨0x14, [], [⟨16, 8, .rw, .shadowed, 0xA⟩, ⟨8, 8, .rw, .shadowed, 0x3F⟩, ⟨2, 2, .rw, .shadowed, 0⟩, ⟨1, 1, .rw, .shadowed, 0⟩, ⟨0, 1, .rw, .shadowed, 1⟩]⟩,
    ⟨0x18, [], [⟨24, 8, .rw, .held, 0x80⟩, ⟨16, 8, .rw, .held, 0x20⟩, ⟨8, 8, .rw, .held, 8⟩, ⟨4, 4, .rw, .held, 0⟩, ⟨0, 4, .rw, .held, 0⟩]⟩,
    ⟨0x1C, [], [⟨0, 16, .rw, .shadowed, 0⟩]⟩,
    ⟨0x20, [], [⟨0, 32, .rw, .shadowed, 0⟩]⟩,
    ⟨0x24, [], [⟨0, 32, .rw, .shadowed, 0⟩]⟩,
    ⟨0x28, [], [⟨8, 3, .wo, .live, 0⟩, ⟨0, 4, .wo, .live, 0⟩]⟩,
    ⟨0x2C, [], [⟨16, 16, .ro, .none, 0⟩, ⟨4, 4, .ro, .none, 0⟩, ⟨0, 3, .ro, .none, 0⟩]⟩,
    ⟨0x30, [], [⟨20, 12, .rw, .held, 0⟩, ⟨0, 3, .rw, .held, 0⟩]⟩,
    ⟨0x34, [], [⟨0, 15, .ro, .none, 0⟩]⟩,
    ⟨0x40, [(0x10, 4)], [⟨5, 27, .rw, .held, 0⟩]⟩,
    ⟨0x44, [(0x10, 4)], [⟨31, 1, .rw, .live, 0⟩, ⟨16, 4, .rw, .held, 2⟩, ⟨15, 1, .rw, .held, 0⟩, ⟨8, 7, .rw, .held, 0⟩]⟩,
    ⟨0x48, [(0x10, 4)], [⟨0, 11, .wo, .live, 0⟩]⟩,
    ⟨0x4C, [(0x10, 4)], [⟨16, 10, .ro, .none, 0⟩, ⟨0, 11, .ro, .none, 0⟩]⟩,
    ⟨0x80, [(0x10, 8)], [⟨4, 28, .rw, .held, 0⟩]⟩,
    ⟨0x84, [(0x10, 8)], [⟨31, 1, .rw, .live, 0⟩, ⟨30, 1, .wo, .live, 0⟩, ⟨16, 4, .rw, .held, 2⟩, ⟨15, 1, .rw, .held, 0⟩, ⟨8, 7, .rw, .held, 0⟩]⟩,
    ⟨0x88, [(0x10, 8)], [⟨16, 10, .ro, .none, 0⟩, ⟨0, 11, .ro, .none, 0⟩]⟩,
    ⟨0x100, [], [⟨31, 1, .rw, .live, 0⟩, ⟨30, 1, .rw, .live, 0⟩, ⟨29, 1, .ro, .none, 0⟩, ⟨28, 1, .ro, .none, 0⟩, ⟨0, 9, .rw, .live, 0⟩]⟩,
    ⟨0x104, [], [⟨0, 32, .rw, .live, 0⟩]⟩,
    ⟨0x108, [], [⟨0, 32, .rw, .live, 0⟩]⟩,
    ⟨0x10C, [], [⟨0, 32, .rw, .live, 0⟩]⟩,
    ⟨0x120, [], [⟨31, 1, .ro, .none, 0⟩, ⟨16, 3, .ro, .none, 0⟩, ⟨0, 16, .ro, .none, 0⟩]⟩,
    ⟨0x124, [(0x4, 5)], [⟨0, 32, .ro, .none, 0⟩]⟩,
    ⟨0x138, [], [⟨0, 7, .ro, .none, 0⟩]⟩,
    ⟨0x200, [], [⟨0, 32, .ro, .none, 0⟩]⟩,
    ⟨0x204, [], [⟨0, 32, .ro, .none, 0⟩]⟩,
    ⟨0x208, [], [⟨0, 32, .ro, .none, 0⟩]⟩,
    ⟨0x20C, [], [⟨0, 32, .ro, .none, 0⟩]⟩,
    ⟨0x210, [], [⟨0, 32, .ro, .none, 0⟩]⟩,
    ⟨0x214, [], [⟨0, 32, .ro, .none, 0⟩]⟩,
    ⟨0x218, [], [⟨0, 32, .ro, .none, 0⟩]⟩,
    ⟨0x21C, [], [⟨0, 32, .ro, .none, 0⟩]⟩,
    ⟨0x220, [], [⟨0, 32, .ro, .none, 0⟩]⟩,
    ⟨0x224, [], [⟨0, 32, .ro, .none, 0⟩]⟩,
    ⟨0x228, [], [⟨0, 32, .ro, .none, 0⟩]⟩,
    ⟨0x22C, [], [⟨0, 32, .ro, .none, 0⟩]⟩ ]

/-- The registers of ETH, part 1 in ascending offset. -/
def regsETH1 : List Reg :=
  [ ⟨0x230, [], [⟨0, 32, .ro, .none, 0⟩]⟩,
    ⟨0x234, [], [⟨0, 32, .ro, .none, 0⟩]⟩,
    ⟨0x238, [], [⟨0, 32, .ro, .none, 0⟩]⟩,
    ⟨0x23C, [], [⟨0, 32, .ro, .none, 0⟩]⟩,
    ⟨0x240, [], [⟨0, 32, .ro, .none, 0⟩]⟩,
    ⟨0x244, [], [⟨0, 32, .ro, .none, 0⟩]⟩,
    ⟨0x248, [], [⟨0, 32, .ro, .none, 0⟩]⟩,
    ⟨0x24C, [], [⟨0, 32, .ro, .none, 0⟩]⟩,
    ⟨0x250, [], [⟨0, 32, .ro, .none, 0⟩]⟩,
    ⟨0x254, [], [⟨0, 32, .ro, .none, 0⟩]⟩,
    ⟨0x258, [], [⟨0, 32, .ro, .none, 0⟩]⟩,
    ⟨0x25C, [], [⟨0, 32, .ro, .none, 0⟩]⟩,
    ⟨0x260, [], [⟨0, 32, .ro, .none, 0⟩]⟩,
    ⟨0x264, [], [⟨0, 32, .ro, .none, 0⟩]⟩,
    ⟨0x268, [], [⟨0, 32, .ro, .none, 0⟩]⟩,
    ⟨0x26C, [], [⟨0, 32, .ro, .none, 0⟩]⟩,
    ⟨0x270, [], [⟨0, 32, .ro, .none, 0⟩]⟩,
    ⟨0x274, [], [⟨0, 32, .ro, .none, 0⟩]⟩,
    ⟨0x278, [], [⟨0, 32, .ro, .none, 0⟩]⟩,
    ⟨0x27C, [], [⟨0, 32, .ro, .none, 0⟩]⟩,
    ⟨0x280, [], [⟨0, 32, .ro, .none, 0⟩]⟩,
    ⟨0x284, [], [⟨0, 32, .ro, .none, 0⟩]⟩,
    ⟨0x288, [], [⟨0, 32, .ro, .none, 0⟩]⟩,
    ⟨0x28C, [], [⟨0, 32, .ro, .none, 0⟩]⟩,
    ⟨0x290, [], [⟨0, 32, .ro, .none, 0⟩]⟩,
    ⟨0x294, [], [⟨0, 32, .ro, .none, 0⟩]⟩,
    ⟨0x298, [], [⟨0, 32, .ro, .none, 0⟩]⟩,
    ⟨0x29C, [], [⟨0, 32, .ro, .none, 0⟩]⟩,
    ⟨0x2A0, [], [⟨0, 32, .ro, .none, 0⟩]⟩,
    ⟨0x2A4, [], [⟨0, 32, .ro, .none, 0⟩]⟩,
    ⟨0x2A8, [], [⟨0, 32, .ro, .none, 0⟩]⟩,
    ⟨0x2AC, [], [⟨0, 32, .ro, .none, 0⟩]⟩,
    ⟨0x2B0, [], [⟨0, 32, .ro, .none, 0⟩]⟩,
    ⟨0x2B4, [], [⟨0, 32, .ro, .none, 0⟩]⟩,
    ⟨0x2B8, [], [⟨0, 32, .ro, .none, 0⟩]⟩,
    ⟨0x2BC, [], [⟨0, 32, .ro, .none, 0⟩]⟩,
    ⟨0x2C0, [(0x4, 2)], [⟨0, 32, .w1c, .live, 0⟩]⟩,
    ⟨0xFF0, [], [⟨16, 16, .ro, .none, 0⟩, ⟨0, 16, .ro, .none, 0⟩]⟩,
    ⟨0x1000, [(0x400, 2), (0x4, 256)], [⟨24, 8, .rw, .held, 0xFF⟩, ⟨0, 24, .rw, .held, 0⟩]⟩ ]

/-- The registers of ETH in ascending offset. -/
def regsETH : List Reg := regsETH0 ++ regsETH1

/-- The registers of PTC in ascending offset. -/
def regsPTC : List Reg :=
  [ ⟨0x0, [], [⟨24, 8, .rw, .held, 0⟩, ⟨16, 4, .rw, .held, 0⟩, ⟨12, 4, .rw, .shadowed, 0⟩, ⟨8, 2, .rw, .held, 0⟩, ⟨6, 2, .rw, .held, 0⟩, ⟨5, 1, .rw, .held, 0⟩, ⟨4, 1, .rw, .held, 0⟩, ⟨0, 1, .rw, .live, 0⟩]⟩,
    ⟨0x4, [], [⟨24, 8, .rw, .shadowed, 0x10⟩, ⟨14, 2, .rw, .shadowed, 2⟩, ⟨0, 14, .rw, .shadowed, 0x3E8⟩]⟩,
    ⟨0x8, [], [⟨24, 4, .rw, .shadowed, 3⟩, ⟨20, 4, .rw, .shadowed, 0⟩, ⟨16, 4, .rw, .shadowed, 0⟩, ⟨8, 4, .rw, .shadowed, 1⟩, ⟨0, 4, .rw, .shadowed, 0xD⟩]⟩,
    ⟨0xC, [], [⟨16, 8, .rw, .shadowed, 0x80⟩, ⟨8, 8, .rw, .shadowed, 0x80⟩]⟩,
    ⟨0x10, [], [⟨24, 8, .ro, .none, 0xF8⟩, ⟨16, 8, .ro, .none, 0xFE⟩, ⟨8, 8, .ro, .none, 0xA0⟩, ⟨0, 8, .ro, .none, 0⟩]⟩,
    ⟨0x14, [], [⟨31, 1, .ro, .none, 0⟩, ⟨30, 1, .ro, .none, 0⟩, ⟨29, 1, .ro, .none, 0⟩, ⟨27, 2, .ro, .none, 3⟩, ⟨24, 3, .ro, .none, 7⟩, ⟨0, 16, .ro, .none, 0⟩]⟩,
    ⟨0x18, [], [⟨0, 32, .ro, .none, 0⟩]⟩,
    ⟨0x1C, [], [⟨0, 32, .ro, .none, 0⟩]⟩,
    ⟨0x20, [], [⟨0, 32, .ro, .none, 0⟩]⟩,
    ⟨0x24, [], [⟨0, 32, .ro, .none, 0⟩]⟩,
    ⟨0x28, [], [⟨0, 32, .ro, .none, 0⟩]⟩,
    ⟨0x2C, [], [⟨0, 32, .ro, .none, 0⟩]⟩,
    ⟨0x30, [], [⟨0, 32, .ro, .none, 0⟩]⟩,
    ⟨0x34, [], [⟨0, 32, .ro, .none, 0⟩]⟩,
    ⟨0x38, [], [⟨0, 32, .ro, .none, 0⟩]⟩,
    ⟨0x3C, [], [⟨0, 32, .ro, .none, 0⟩]⟩,
    ⟨0x40, [], [⟨0, 32, .rw, .live, 0⟩]⟩,
    ⟨0x44, [], [⟨0, 32, .rw, .live, 0⟩]⟩,
    ⟨0x48, [], [⟨0, 4, .wo, .live, 0⟩]⟩,
    ⟨0x4C, [], [⟨16, 16, .ro, .none, 0⟩, ⟨4, 4, .ro, .none, 0⟩, ⟨0, 3, .ro, .none, 0⟩]⟩,
    ⟨0x50, [], [⟨0, 32, .ro, .none, 0⟩]⟩,
    ⟨0x54, [], [⟨0, 32, .ro, .none, 0⟩]⟩,
    ⟨0x58, [], [⟨0, 32, .ro, .none, 0⟩]⟩,
    ⟨0x80, [], [⟨0, 32, .ro, .none, 0⟩]⟩,
    ⟨0x84, [], [⟨0, 32, .ro, .none, 0⟩]⟩,
    ⟨0x88, [], [⟨0, 32, .ro, .none, 0⟩]⟩,
    ⟨0x8C, [], [⟨0, 32, .ro, .none, 0⟩]⟩,
    ⟨0x90, [], [⟨0, 32, .ro, .none, 0⟩]⟩,
    ⟨0x94, [], [⟨0, 32, .ro, .none, 0⟩]⟩,
    ⟨0x98, [], [⟨0, 32, .ro, .none, 0⟩]⟩,
    ⟨0x9C, [], [⟨0, 32, .ro, .none, 0⟩]⟩,
    ⟨0xA0, [], [⟨0, 32, .ro, .none, 0⟩]⟩,
    ⟨0xFF0, [], [⟨16, 16, .ro, .none, 0⟩, ⟨0, 16, .ro, .none, 0⟩]⟩ ]

/-- The registers of CAN in ascending offset. -/
def regsCAN : List Reg :=
  [ ⟨0x0, [], [⟨24, 8, .rw, .shadowed, 0xC8⟩, ⟨8, 2, .rw, .shadowed, 1⟩, ⟨7, 1, .rw, .live, 1⟩, ⟨6, 1, .rw, .shadowed, 0⟩, ⟨5, 1, .rw, .held, 1⟩, ⟨4, 1, .rw, .live, 0⟩, ⟨2, 2, .rw, .held, 0⟩, ⟨1, 1, .rw, .held, 0⟩, ⟨0, 1, .rw, .live, 0⟩]⟩,
    ⟨0x4, [], [⟨29, 3, .ro, .none, 0⟩, ⟨27, 2, .ro, .none, 0⟩, ⟨24, 3, .ro, .none, 0⟩, ⟨16, 8, .ro, .none, 0⟩, ⟨8, 8, .ro, .none, 0⟩, ⟨7, 1, .ro, .none, 0⟩, ⟨0, 7, .ro, .none, 0⟩]⟩,
    ⟨0x8, [], [⟨24, 8, .rw, .held, 9⟩, ⟨16, 8, .rw, .held, 0x1A⟩, ⟨8, 8, .rw, .held, 3⟩, ⟨1, 7, .rw, .held, 3⟩]⟩,
    ⟨0xC, [], [⟨24, 8, .rw, .held, 0⟩, ⟨16, 8, .rw, .held, 0x1E⟩, ⟨8, 8, .rw, .held, 7⟩, ⟨1, 7, .rw, .held, 7⟩, ⟨0, 1, .rw, .held, 1⟩]⟩,
    ⟨0x10, [], [⟨0, 4, .wo, .live, 0⟩]⟩,
    ⟨0x14, [], [⟨16, 16, .ro, .none, 0⟩, ⟨4, 4, .ro, .none, 0⟩, ⟨0, 3, .ro, .none, 0⟩]⟩,
    ⟨0x18, [], [⟨16, 7, .rw, .held, 0⟩, ⟨8, 7, .rw, .held, 0⟩, ⟨0, 7, .rw, .held, 0⟩]⟩,
    ⟨0x20, [], [⟨0, 32, .rw, .shadowed, 0⟩]⟩,
    ⟨0x24, [], [⟨0, 32, .rw, .shadowed, 0⟩]⟩,
    ⟨0x28, [], [⟨0, 32, .rw, .shadowed, 0⟩]⟩,
    ⟨0x80, [], [⟨0, 32, .ro, .none, 0⟩]⟩,
    ⟨0x84, [], [⟨0, 32, .ro, .none, 0⟩]⟩,
    ⟨0x88, [], [⟨0, 32, .ro, .none, 0⟩]⟩,
    ⟨0x8C, [], [⟨0, 32, .ro, .none, 0⟩]⟩,
    ⟨0x90, [], [⟨0, 32, .ro, .none, 0⟩]⟩,
    ⟨0x94, [], [⟨0, 32, .ro, .none, 0⟩]⟩,
    ⟨0x98, [], [⟨0, 32, .ro, .none, 0⟩]⟩,
    ⟨0x9C, [], [⟨0, 32, .ro, .none, 0⟩]⟩,
    ⟨0xA0, [], [⟨0, 32, .ro, .none, 0⟩]⟩,
    ⟨0xA4, [], [⟨0, 32, .ro, .none, 0⟩]⟩,
    ⟨0xA8, [], [⟨0, 32, .ro, .none, 0⟩]⟩,
    ⟨0xAC, [], [⟨0, 32, .ro, .none, 0⟩]⟩,
    ⟨0xFF0, [], [⟨16, 16, .ro, .none, 0⟩, ⟨0, 16, .ro, .none, 0⟩]⟩,
    ⟨0x1000, [(0x50, 64)], [⟨30, 1, .rw, .held, 0⟩, ⟨29, 1, .rw, .held, 0⟩, ⟨0, 29, .rw, .held, 0⟩]⟩,
    ⟨0x1004, [(0x50, 64)], [⟨31, 1, .w1s, .live, 0⟩, ⟨30, 1, .w1s, .live, 0⟩, ⟨27, 3, .ro, .none, 0⟩, ⟨5, 1, .rw, .held, 0⟩, ⟨4, 1, .rw, .held, 0⟩, ⟨0, 4, .rw, .held, 0⟩]⟩,
    ⟨0x1008, [(0x50, 64)], [⟨0, 32, .rw, .held, 0⟩]⟩,
    ⟨0x1010, [(0x50, 64), (0x4, 16)], [⟨0, 32, .rw, .held, 0⟩]⟩,
    ⟨0x3000, [(0x10, 128)], [⟨0, 32, .rw, .held, 0⟩]⟩,
    ⟨0x3004, [(0x10, 128)], [⟨0, 32, .rw, .held, 0⟩]⟩,
    ⟨0x3008, [(0x10, 128)], [⟨31, 1, .rw, .live, 0⟩, ⟨0, 2, .rw, .held, 0⟩]⟩ ]

/-- The registers of SER in ascending offset. -/
def regsSER : List Reg :=
  [ ⟨0x0, [], [⟨6, 2, .rw, .held, 1⟩, ⟨5, 1, .rw, .held, 0⟩, ⟨4, 1, .rw, .held, 0⟩, ⟨3, 1, .rw, .shadowed, 0⟩, ⟨2, 1, .rw, .live, 0⟩, ⟨1, 1, .rw, .live, 0⟩, ⟨0, 1, .rw, .live, 0⟩]⟩,
    ⟨0x4, [], [⟨30, 2, .rw, .shadowed, 0⟩, ⟨20, 10, .rw, .shadowed, 0x100⟩, ⟨16, 4, .rw, .shadowed, 0⟩, ⟨8, 8, .rw, .shadowed, 0x26⟩, ⟨0, 8, .rw, .shadowed, 0x26⟩]⟩,
    ⟨0x8, [], [⟨8, 8, .rw, .shadowed, 1⟩, ⟨0, 8, .rw, .shadowed, 1⟩]⟩,
    ⟨0xC, [], [⟨16, 7, .rw, .held, 0⟩, ⟨8, 7, .rw, .held, 0⟩, ⟨0, 7, .rw, .held, 0⟩]⟩,
    ⟨0x10, [], [⟨0, 25, .rw, .held, 0x4B00⟩]⟩,
    ⟨0x80, [], [⟨0, 32, .ro, .none, 0⟩]⟩,
    ⟨0x84, [], [⟨0, 32, .ro, .none, 0⟩]⟩,
    ⟨0x88, [], [⟨0, 32, .ro, .none, 0⟩]⟩,
    ⟨0x8C, [], [⟨0, 32, .ro, .none, 0⟩]⟩,
    ⟨0x90, [], [⟨0, 32, .ro, .none, 0⟩]⟩,
    ⟨0x94, [], [⟨0, 32, .ro, .none, 0⟩]⟩,
    ⟨0x98, [], [⟨0, 32, .ro, .none, 0⟩]⟩,
    ⟨0xFF0, [], [⟨16, 16, .ro, .none, 0⟩, ⟨0, 16, .ro, .none, 0⟩]⟩ ]

/-- The registers of AXS in ascending offset. -/
def regsAXS : List Reg :=
  [ ⟨0x0, [], [⟨0, 1, .rw, .live, 0⟩]⟩,
    ⟨0x4, [], [⟨0, 32, .ro, .none, 0⟩]⟩,
    ⟨0x8, [], [⟨16, 8, .ro, .none, 0⟩, ⟨0, 16, .ro, .none, 0⟩]⟩,
    ⟨0xC, [], [⟨8, 3, .wo, .live, 0⟩, ⟨0, 4, .wo, .live, 0⟩]⟩,
    ⟨0x10, [], [⟨16, 16, .ro, .none, 0⟩, ⟨8, 3, .ro, .none, 0⟩, ⟨4, 4, .ro, .none, 0⟩, ⟨0, 3, .ro, .none, 0⟩]⟩,
    ⟨0x14, [], [⟨16, 16, .rw, .shadowed, 0x64⟩, ⟨0, 8, .rw, .shadowed, 0xA⟩]⟩,
    ⟨0x80, [], [⟨0, 32, .ro, .none, 0⟩]⟩,
    ⟨0x84, [], [⟨0, 32, .ro, .none, 0⟩]⟩,
    ⟨0x88, [], [⟨0, 32, .ro, .none, 0⟩]⟩,
    ⟨0x8C, [], [⟨0, 32, .ro, .none, 0⟩]⟩,
    ⟨0x90, [], [⟨0, 32, .ro, .none, 0⟩]⟩,
    ⟨0xFF0, [], [⟨16, 16, .ro, .none, 0⟩, ⟨0, 16, .ro, .none, 0⟩]⟩,
    ⟨0x1000, [(0x40, 8)], [⟨31, 1, .rw, .live, 0⟩, ⟨24, 3, .rw, .held, 0⟩, ⟨23, 1, .rw, .held, 0⟩, ⟨22, 1, .rw, .held, 0⟩, ⟨21, 1, .rw, .held, 0⟩, ⟨20, 1, .rw, .shadowed, 0⟩, ⟨16, 4, .rw, .shadowed, 0⟩, ⟨15, 1, .rw, .shadowed, 0⟩, ⟨0, 9, .rw, .shadowed, 0x14⟩]⟩,
    ⟨0x1004, [(0x40, 8)], [⟨24, 8, .rw, .held, 0xC⟩, ⟨16, 8, .rw, .held, 0xA⟩, ⟨8, 8, .rw, .held, 0xA⟩]⟩,
    ⟨0x1008, [(0x40, 8)], [⟨0, 32, .rw, .shadowed, 0⟩]⟩,
    ⟨0x100C, [(0x40, 8)], [⟨0, 32, .rw, .shadowed, 0⟩]⟩,
    ⟨0x1010, [(0x40, 8)], [⟨0, 32, .rw, .shadowed, 0⟩]⟩,
    ⟨0x1014, [(0x40, 8)], [⟨16, 16, .rw, .shadowed, 0x64⟩, ⟨0, 16, .rw, .shadowed, 0xA⟩]⟩,
    ⟨0x1018, [(0x40, 8)], [⟨16, 16, .rw, .shadowed, 0x3E8⟩, ⟨0, 16, .rw, .shadowed, 0x10⟩]⟩,
    ⟨0x101C, [(0x40, 8)], [⟨0, 32, .rw, .shadowed, 0x100000⟩]⟩,
    ⟨0x1020, [(0x40, 8)], [⟨0, 32, .ro, .none, 0⟩]⟩,
    ⟨0x1024, [(0x40, 8)], [⟨0, 32, .ro, .none, 0⟩]⟩,
    ⟨0x1028, [(0x40, 8)], [⟨28, 4, .ro, .none, 0⟩, ⟨27, 1, .ro, .none, 0⟩, ⟨26, 1, .ro, .none, 0⟩, ⟨25, 1, .ro, .none, 0⟩, ⟨16, 8, .ro, .none, 0⟩, ⟨0, 16, .ro, .none, 0⟩]⟩ ]

/-- The registers of DIO in ascending offset. -/
def regsDIO : List Reg :=
  [ ⟨0x0, [], [⟨1, 1, .rw, .live, 0⟩, ⟨0, 1, .rw, .live, 0⟩]⟩,
    ⟨0x4, [], [⟨16, 16, .ro, .none, 0⟩, ⟨0, 16, .ro, .none, 0⟩]⟩,
    ⟨0x8, [], [⟨16, 16, .w1c, .live, 0⟩, ⟨0, 16, .w1c, .live, 0⟩]⟩,
    ⟨0xC, [], [⟨16, 16, .rw, .live, 0⟩, ⟨0, 16, .rw, .live, 0⟩]⟩,
    ⟨0x10, [(0x4, 4)], [⟨0, 32, .rw, .shadowed, 0xA0A0A0A⟩]⟩,
    ⟨0x20, [], [⟨0, 8, .rw, .live, 0⟩]⟩,
    ⟨0x24, [], [⟨31, 1, .ro, .none, 0⟩, ⟨16, 8, .ro, .none, 0⟩, ⟨8, 8, .w1c, .live, 0⟩, ⟨0, 8, .ro, .none, 0⟩]⟩,
    ⟨0x40, [(0x4, 8)], [⟨30, 2, .rw, .held, 0⟩, ⟨28, 2, .rw, .shadowed, 0⟩, ⟨0, 16, .rw, .shadowed, 0x64⟩]⟩,
    ⟨0x80, [], [⟨0, 32, .ro, .none, 0⟩]⟩,
    ⟨0x84, [], [⟨0, 32, .ro, .none, 0⟩]⟩,
    ⟨0x88, [], [⟨0, 32, .ro, .none, 0⟩]⟩,
    ⟨0x8C, [], [⟨0, 32, .ro, .none, 0⟩]⟩,
    ⟨0xFF0, [], [⟨16, 16, .ro, .none, 0⟩, ⟨0, 16, .ro, .none, 0⟩]⟩ ]

/-- The registers of TWN in ascending offset. -/
def regsTWN : List Reg :=
  [ ⟨0x0, [], [⟨11, 1, .rw, .held, 0⟩, ⟨10, 1, .rw, .held, 0⟩, ⟨8, 2, .rw, .held, 1⟩, ⟨0, 1, .rw, .live, 0⟩]⟩,
    ⟨0x4, [], [⟨29, 3, .ro, .none, 0⟩, ⟨28, 1, .ro, .none, 0⟩, ⟨27, 1, .ro, .none, 0⟩, ⟨0, 16, .ro, .none, 0⟩]⟩,
    ⟨0x8, [], [⟨8, 1, .ro, .none, 0⟩, ⟨0, 8, .ro, .none, 0⟩]⟩,
    ⟨0xC, [], [⟨24, 8, .rw, .shadowed, 0xA⟩, ⟨16, 8, .rw, .shadowed, 0x14⟩, ⟨8, 8, .rw, .shadowed, 0x14⟩, ⟨0, 8, .rw, .shadowed, 0xAB⟩]⟩,
    ⟨0x10, [], [⟨12, 20, .rw, .held, 0⟩]⟩,
    ⟨0x14, [], [⟨12, 20, .rw, .held, 0⟩]⟩,
    ⟨0x18, [], [⟨0, 32, .ro, .none, 0⟩]⟩,
    ⟨0x1C, [], [⟨0, 32, .ro, .none, 0⟩]⟩,
    ⟨0x20, [], [⟨0, 4, .wo, .live, 0⟩]⟩,
    ⟨0x24, [], [⟨16, 16, .ro, .none, 0⟩, ⟨4, 4, .ro, .none, 0⟩, ⟨0, 3, .ro, .none, 0⟩]⟩,
    ⟨0x28, [], [⟨0, 32, .rw, .held, 0⟩]⟩,
    ⟨0x2C, [], [⟨0, 32, .rw, .held, 0⟩]⟩,
    ⟨0x80, [], [⟨0, 32, .ro, .none, 0⟩]⟩,
    ⟨0x84, [], [⟨0, 32, .ro, .none, 0⟩]⟩,
    ⟨0x88, [], [⟨0, 32, .ro, .none, 0⟩]⟩,
    ⟨0x8C, [], [⟨0, 32, .ro, .none, 0⟩]⟩,
    ⟨0x90, [], [⟨0, 32, .ro, .none, 0⟩]⟩,
    ⟨0x94, [], [⟨0, 32, .ro, .none, 0⟩]⟩,
    ⟨0x98, [], [⟨0, 32, .ro, .none, 0⟩]⟩,
    ⟨0xFF0, [], [⟨16, 16, .ro, .none, 0⟩, ⟨0, 16, .ro, .none, 0⟩]⟩ ]

/-- The registers of CAS in ascending offset. -/
def regsCAS : List Reg :=
  [ ⟨0x0, [], [⟨21, 3, .rw, .held, 0⟩, ⟨18, 3, .rw, .held, 0⟩, ⟨16, 2, .rw, .held, 0⟩, ⟨1, 2, .rw, .held, 0⟩, ⟨0, 1, .rw, .live, 0⟩]⟩,
    ⟨0x4, [], [⟨28, 4, .ro, .none, 0⟩, ⟨20, 8, .ro, .none, 0⟩, ⟨12, 8, .ro, .none, 0⟩]⟩,
    ⟨0x8, [], [⟨24, 8, .rw, .shadowed, 0xF⟩, ⟨16, 8, .rw, .shadowed, 0x14⟩, ⟨0, 16, .rw, .shadowed, 0xFA⟩]⟩,
    ⟨0xC, [], [⟨0, 32, .ro, .none, 0⟩]⟩,
    ⟨0x10, [], [⟨0, 32, .ro, .none, 0⟩]⟩,
    ⟨0x20, [], [⟨8, 3, .wo, .live, 0⟩, ⟨0, 4, .wo, .live, 0⟩]⟩,
    ⟨0x24, [], [⟨16, 16, .ro, .none, 0⟩, ⟨4, 4, .ro, .none, 0⟩, ⟨0, 3, .ro, .none, 0⟩]⟩,
    ⟨0x28, [], [⟨0, 32, .rw, .held, 0⟩]⟩,
    ⟨0x2C, [], [⟨0, 32, .rw, .held, 0⟩]⟩,
    ⟨0x80, [], [⟨0, 32, .ro, .none, 0⟩]⟩,
    ⟨0x84, [], [⟨0, 32, .ro, .none, 0⟩]⟩,
    ⟨0x88, [], [⟨0, 32, .ro, .none, 0⟩]⟩,
    ⟨0x8C, [], [⟨0, 32, .ro, .none, 0⟩]⟩,
    ⟨0x90, [], [⟨0, 32, .ro, .none, 0⟩]⟩,
    ⟨0xFF0, [], [⟨16, 16, .ro, .none, 0⟩, ⟨0, 16, .ro, .none, 0⟩]⟩ ]

/-- The registers of KEY in ascending offset. -/
def regsKEY : List Reg :=
  [ ⟨0x0, [], [⟨16, 9, .rw, .shadowed, 0⟩, ⟨8, 8, .rw, .shadowed, 0x18⟩, ⟨0, 1, .rw, .live, 0⟩]⟩,
    ⟨0x4, [], [⟨30, 2, .ro, .none, 0⟩, ⟨29, 1, .ro, .none, 0⟩, ⟨28, 1, .ro, .none, 0⟩, ⟨27, 1, .ro, .none, 0⟩, ⟨16, 8, .ro, .none, 0⟩, ⟨8, 8, .ro, .none, 0⟩, ⟨0, 8, .ro, .none, 0⟩]⟩,
    ⟨0x8, [], [⟨31, 1, .ro, .none, 0⟩, ⟨30, 1, .ro, .none, 0⟩, ⟨29, 1, .ro, .none, 0⟩, ⟨0, 8, .ro, .none, 0⟩]⟩,
    ⟨0xC, [], [⟨0, 4, .wo, .live, 0⟩]⟩,
    ⟨0x10, [], [⟨16, 16, .ro, .none, 0⟩, ⟨4, 4, .ro, .none, 0⟩, ⟨0, 3, .ro, .none, 0⟩]⟩,
    ⟨0x14, [], [⟨0, 9, .rw, .live, 0⟩]⟩,
    ⟨0x18, [], [⟨24, 8, .ro, .none, 0⟩, ⟨20, 4, .ro, .none, 0⟩, ⟨17, 3, .ro, .none, 0⟩, ⟨9, 8, .ro, .none, 0⟩, ⟨0, 9, .ro, .none, 0⟩]⟩,
    ⟨0x80, [], [⟨0, 32, .ro, .none, 0⟩]⟩,
    ⟨0x84, [], [⟨0, 32, .ro, .none, 0⟩]⟩,
    ⟨0x88, [], [⟨0, 32, .ro, .none, 0⟩]⟩,
    ⟨0x8C, [], [⟨0, 32, .ro, .none, 0⟩]⟩,
    ⟨0x90, [], [⟨0, 32, .ro, .none, 0⟩]⟩,
    ⟨0x94, [], [⟨0, 32, .ro, .none, 0⟩]⟩,
    ⟨0x98, [], [⟨0, 32, .ro, .none, 0⟩]⟩,
    ⟨0xFF0, [], [⟨16, 16, .ro, .none, 0⟩, ⟨0, 16, .ro, .none, 0⟩]⟩ ]

/-- The registers of UPD in ascending offset. -/
def regsUPD : List Reg :=
  [ ⟨0x0, [], [⟨16, 10, .rw, .shadowed, 0x78⟩, ⟨0, 1, .rw, .live, 1⟩]⟩,
    ⟨0x4, [], [⟨28, 4, .ro, .none, 0⟩, ⟨26, 2, .ro, .none, 0⟩, ⟨25, 1, .ro, .none, 0⟩, ⟨0, 11, .ro, .none, 0⟩]⟩,
    ⟨0x10, [(0x4, 6)], [⟨28, 4, .ro, .none, 0⟩, ⟨24, 4, .ro, .none, 0⟩, ⟨16, 7, .ro, .none, 0⟩, ⟨0, 16, .ro, .none, 0⟩]⟩,
    ⟨0x30, [], [⟨19, 2, .ro, .none, 0⟩, ⟨18, 1, .ro, .none, 0⟩, ⟨17, 1, .ro, .none, 0⟩, ⟨16, 1, .ro, .none, 0⟩, ⟨11, 2, .ro, .none, 0⟩, ⟨10, 1, .ro, .none, 0⟩, ⟨9, 1, .ro, .none, 0⟩, ⟨8, 1, .ro, .none, 0⟩, ⟨3, 2, .ro, .none, 0⟩, ⟨2, 1, .ro, .none, 0⟩, ⟨1, 1, .ro, .none, 0⟩, ⟨0, 1, .ro, .none, 0⟩]⟩,
    ⟨0x34, [], [⟨16, 16, .ro, .none, 0⟩, ⟨0, 16, .ro, .none, 0⟩]⟩,
    ⟨0x38, [], [⟨8, 3, .wo, .live, 0⟩, ⟨0, 4, .wo, .live, 0⟩]⟩,
    ⟨0x3C, [], [⟨16, 16, .ro, .none, 0⟩, ⟨4, 4, .ro, .none, 0⟩, ⟨0, 3, .ro, .none, 0⟩]⟩,
    ⟨0x80, [], [⟨0, 32, .ro, .none, 0⟩]⟩,
    ⟨0x84, [], [⟨0, 32, .ro, .none, 0⟩]⟩,
    ⟨0x88, [], [⟨0, 32, .ro, .none, 0⟩]⟩,
    ⟨0x8C, [], [⟨0, 32, .ro, .none, 0⟩]⟩,
    ⟨0x90, [], [⟨0, 32, .ro, .none, 0⟩]⟩,
    ⟨0x94, [], [⟨0, 32, .ro, .none, 0⟩]⟩,
    ⟨0x98, [], [⟨0, 32, .ro, .none, 0⟩]⟩,
    ⟨0x9C, [], [⟨0, 32, .ro, .none, 0⟩]⟩,
    ⟨0xFF0, [], [⟨16, 16, .ro, .none, 0⟩, ⟨0, 16, .ro, .none, 0⟩]⟩ ]

/-- The registers of OTP in ascending offset. -/
def regsOTP : List Reg :=
  [ ⟨0x0, [], [⟨28, 4, .ro, .none, 0⟩, ⟨16, 5, .ro, .none, 0⟩, ⟨8, 5, .ro, .none, 0⟩, ⟨0, 1, .ro, .none, 0⟩]⟩,
    ⟨0x4, [], [⟨0, 32, .ro, .none, 0⟩]⟩,
    ⟨0x8, [], [⟨8, 3, .rw, .live, 0⟩, ⟨0, 8, .rw, .live, 0⟩]⟩,
    ⟨0xC, [], [⟨0, 32, .ro, .none, 0⟩]⟩,
    ⟨0x10, [], [⟨8, 7, .wo, .live, 0⟩, ⟨4, 2, .wo, .live, 0⟩, ⟨0, 4, .wo, .live, 0⟩]⟩,
    ⟨0x14, [], [⟨16, 16, .ro, .none, 0⟩, ⟨4, 4, .ro, .none, 0⟩, ⟨0, 3, .ro, .none, 0⟩]⟩,
    ⟨0x80, [], [⟨0, 32, .ro, .none, 0⟩]⟩,
    ⟨0xFF0, [], [⟨16, 16, .ro, .none, 0⟩, ⟨0, 16, .ro, .none, 0⟩]⟩ ]

/-- The registers of FSH in ascending offset. -/
def regsFSH : List Reg :=
  [ ⟨0x0, [], [⟨24, 8, .rw, .shadowed, 0x14⟩, ⟨8, 8, .rw, .shadowed, 6⟩, ⟨1, 1, .rw, .live, 1⟩, ⟨0, 1, .rw, .live, 1⟩]⟩,
    ⟨0x4, [], [⟨24, 8, .ro, .none, 0⟩, ⟨0, 16, .ro, .none, 0⟩]⟩,
    ⟨0x40, [(0x4, 10)], [⟨31, 1, .ro, .none, 0⟩, ⟨16, 15, .ro, .none, 0⟩, ⟨0, 13, .ro, .none, 0⟩]⟩,
    ⟨0x80, [], [⟨0, 32, .ro, .none, 0⟩]⟩,
    ⟨0x84, [], [⟨0, 32, .ro, .none, 0⟩]⟩,
    ⟨0x88, [], [⟨0, 32, .ro, .none, 0⟩]⟩,
    ⟨0x8C, [], [⟨0, 32, .ro, .none, 0⟩]⟩,
    ⟨0x90, [], [⟨0, 32, .ro, .none, 0⟩]⟩,
    ⟨0x94, [], [⟨0, 32, .ro, .none, 0⟩]⟩,
    ⟨0x98, [], [⟨0, 32, .ro, .none, 0⟩]⟩,
    ⟨0xFF0, [], [⟨16, 16, .ro, .none, 0⟩, ⟨0, 16, .ro, .none, 0⟩]⟩ ]

/-- The registers of CCX in ascending offset. -/
def regsCCX : List Reg :=
  [ ⟨0x0, [], [⟨0, 16, .rw, .live, 0⟩]⟩,
    ⟨0x4, [], [⟨16, 16, .ro, .none, 0⟩, ⟨0, 16, .ro, .none, 0⟩]⟩,
    ⟨0x8, [], [⟨6, 26, .rw, .held, 0⟩, ⟨0, 1, .rw, .held, 0⟩]⟩,
    ⟨0x80, [], [⟨0, 32, .ro, .none, 0⟩]⟩,
    ⟨0x84, [], [⟨0, 32, .ro, .none, 0⟩]⟩,
    ⟨0x88, [], [⟨0, 32, .ro, .none, 0⟩]⟩,
    ⟨0x8C, [], [⟨0, 32, .ro, .none, 0⟩]⟩,
    ⟨0xFF0, [], [⟨16, 16, .ro, .none, 0⟩, ⟨0, 16, .ro, .none, 0⟩]⟩,
    ⟨0x1000, [(0x100, 16)], [⟨0, 1, .w1s, .live, 0⟩]⟩,
    ⟨0x1004, [(0x100, 16)], [⟨24, 8, .ro, .none, 0⟩, ⟨16, 3, .ro, .none, 0⟩, ⟨0, 16, .ro, .none, 0⟩]⟩,
    ⟨0x1008, [(0x100, 16)], [⟨0, 32, .ro, .none, 0⟩]⟩,
    ⟨0x100C, [(0x100, 16)], [⟨0, 32, .ro, .none, 0⟩]⟩,
    ⟨0x1040, [(0x100, 16), (0x8, 16)], [⟨12, 20, .rw, .shadowed, 0⟩, ⟨3, 1, .rw, .shadowed, 0⟩, ⟨2, 1, .rw, .shadowed, 0⟩, ⟨1, 1, .rw, .shadowed, 0⟩, ⟨0, 1, .rw, .shadowed, 0⟩]⟩,
    ⟨0x1044, [(0x100, 16), (0x8, 16)], [⟨12, 20, .rw, .shadowed, 0⟩]⟩ ]

/-- The registers of the block group with offset base b (ETH, CAN and SER under their first base). -/
def regsOfBlock (b : Nat) : List Reg :=
  match b with
  | 0 => regsSTW
  | 1 => regsPWR
  | 2 => regsEVT
  | 3 => regsMRC
  | 4 => regsFLM
  | 5 => regsMEM
  | 6 => regsREF
  | 7 => regsSOL
  | 8 => regsCLM
  | 9 => regsPRO
  | 10 => regsAIR
  | 11 => regsWKR
  | 12 => regsSTP
  | 13 => regsETH
  | 17 => regsPTC
  | 18 => regsCAN
  | 20 => regsSER
  | 22 => regsAXS
  | 23 => regsDIO
  | 24 => regsTWN
  | 25 => regsCAS
  | 26 => regsKEY
  | 27 => regsUPD
  | 28 => regsOTP
  | 29 => regsFSH
  | 30 => regsCCX
  | _ => []

/-- The group of registers to which the block with offset base n belongs: itself, or the first instance of its kind. -/
def groupOf (n : Nat) : Nat :=
  if 13 ≤ n ∧ n ≤ 16 then 13 else if n = 19 then 18 else if n = 21 then 20 else n

/-- Which instance of its kind the block with offset base n is. -/
def instOf (n : Nat) : Nat := n - groupOf n

end Sys2Proof.Machine
end

