-- ==== Sys2Proof/Machine/Ops.lean ====
section
/-!
DEFINITION. Sys2Proof/Machine/Ops.lean: the named operations every meaning is written over: sparse tables, numbers and byte order,
control-register fields, addressed memory, the clocks, and reporting events and errors.
-/
namespace Sys2Proof.Machine

/-! ### Sparse tables -/

/-- The entry listed under k. -/
def tfind {α : Type} (k : Nat) : Tbl α → Option α
  | [] => none
  | (a, v) :: t => if a = k then some v else tfind k t

/-- The entry under k, or d where none is listed. -/
def tget {α : Type} (d : α) (k : Nat) (t : Tbl α) : α := (tfind k t).getD d

/-- The table with v listed under k, in key order. -/
def tins {α : Type} (k : Nat) (v : α) : Tbl α → Tbl α
  | [] => [(k, v)]
  | (a, w) :: t => if k < a then (k, v) :: (a, w) :: t else if a = k then (k, v) :: t else (a, w) :: tins k v t

/-- The table with nothing listed under k. -/
def tdel {α : Type} (k : Nat) (t : Tbl α) : Tbl α := t.filter (fun p => p.1 != k)

/-- The table in which k holds v, when d is what an unlisted key holds: the default is never listed. -/
def tset {α : Type} [DecidableEq α] (d : α) (k : Nat) (v : α) (t : Tbl α) : Tbl α :=
  if v = d then tdel k t else tins k v t

/-- Keys strictly rising. -/
def rising {α : Type} : Tbl α → Bool
  | [] => true
  | [_] => true
  | p :: q :: t => decide (p.1 < q.1) && rising (q :: t)

/-- The keys listed. -/
def keys {α : Type} (t : Tbl α) : List Nat := t.map Prod.fst

/-- Inserts x into a list ordered by le, after its equals. -/
def insertBy {α : Type} (le : α → α → Bool) (x : α) : List α → List α
  | [] => [x]
  | y :: t => if le y x then y :: insertBy le x t else x :: y :: t

/-- A list put in the order of le, equals in their order. -/
def sortBy {α : Type} (le : α → α → Bool) (l : List α) : List α := l.foldl (fun acc x => insertBy le x acc) []

/-! ### Numbers, bits and byte order (R9, R11) -/

/-- Bits lo to lo + w − 1 of v. -/
def bits (v lo w : Nat) : Nat := v / 2 ^ lo % 2 ^ w

/-- Bit i of v. -/
def bit (v i : Nat) : Bool := v / 2 ^ i % 2 == 1

/-- v with bits lo to lo + w − 1 replaced by x. -/
def setBits (v lo w x : Nat) : Nat := v - bits v lo w * 2 ^ lo + x % 2 ^ w * 2 ^ lo

/-- The signed value of the w-bit number v. -/
def sgn (w v : Nat) : Int := if v % 2 ^ w < 2 ^ (w - 1) then (v % 2 ^ w : Int) else (v % 2 ^ w : Int) - 2 ^ w

/-- The w-bit encoding of a signed number, wrapping. -/
def enc (w : Nat) (i : Int) : Nat := (i % 2 ^ w).toNat

/-- i held within the range of a signed w-bit number. -/
def satS (w : Nat) (i : Int) : Int := max (-(2 ^ (w - 1))) (min (2 ^ (w - 1) - 1) i)

def b2n (b : Bool) : Nat := if b then 1 else 0

/-- The n low bytes of v, least significant first (R9). -/
def leBytes : Nat → Nat → List Byte
  | 0, _ => []
  | n + 1, v => BitVec.ofNat 8 v :: leBytes n (v / 256)

/-- The n low bytes of v, most significant first (R10). -/
def beBytes (n v : Nat) : List Byte := (leBytes n v).reverse

/-- The number a little-endian byte string spells. -/
def ofLe : List Byte → Nat
  | [] => 0
  | b :: t => b.toNat + 256 * ofLe t

def ofBe (l : List Byte) : Nat := ofLe l.reverse

/-- The n bytes of l from position i, short at the end. -/
def slice (l : List Byte) (i n : Nat) : List Byte := (l.drop i).take n

/-- The number in the n bytes of l from position i. -/
def leAt (l : List Byte) (i n : Nat) : Nat := ofLe (slice l i n)

/-- l filled up with zero bytes to a length of n. -/
def padTo (n : Nat) (l : List Byte) : List Byte := l ++ List.replicate (n - l.length) 0

/-- The flume words of a byte string, eight bytes each, the last filled with zeros; n bounds their number. -/
def wordsOf : Nat → List Byte → List Word
  | 0, _ => []
  | _ + 1, [] => []
  | n + 1, l => BitVec.ofNat 64 (ofLe (l.take 8)) :: wordsOf n (l.drop 8)

/-- The bytes of a list of flume words. -/
def bytesOf (ws : List Word) : List Byte := ws.flatMap (fun w => leBytes 8 w.toNat)

/-! ### Control registers -/

/-- The register table of a block group. -/
def regsAt (b : Nat) (s : State) : Tbl Nat :=
  match b with
  | 0 => s.stw.regs | 1 => s.pwr.regs | 2 => s.evt.regs | 3 => s.mrc.regs | 4 => s.flm.regs | 5 => s.ecc.regs
  | 6 => s.ref.regs | 7 => s.sol.regs | 8 => s.clm.regs | 9 => s.pro.regs | 10 => s.air.regs | 11 => s.wkr.regs
  | 12 => s.stp.regs | 13 => s.eth.regs | 17 => s.ptc.regs | 18 => s.can.regs | 20 => s.ser.regs | 22 => s.axs.regs
  | 23 => s.dio.regs | 24 => s.twn.regs | 25 => s.cas.regs | 26 => s.key.regs | 27 => s.upd.regs | 28 => s.otp.regs
  | 29 => s.fsh.regs | 30 => s.ccx.regs
  | _ => []

/-- The state with the register table of a block group replaced. -/
def setRegs (b : Nat) (t : Tbl Nat) (s : State) : State :=
  match b with
  | 0 => { s with stw := { s.stw with regs := t } }
  | 1 => { s with pwr := { s.pwr with regs := t } }
  | 2 => { s with evt := { s.evt with regs := t } }
  | 3 => { s with mrc := { s.mrc with regs := t } }
  | 4 => { s with flm := { s.flm with regs := t } }
  | 5 => { s with ecc := { s.ecc with regs := t } }
  | 6 => { s with ref := { s.ref with regs := t } }
  | 7 => { s with sol := { s.sol with regs := t } }
  | 8 => { s with clm := { s.clm with regs := t } }
  | 9 => { s with pro := { s.pro with regs := t } }
  | 10 => { s with air := { s.air with regs := t } }
  | 11 => { s with wkr := { s.wkr with regs := t } }
  | 12 => { s with stp := { s.stp with regs := t } }
  | 13 => { s with eth := { s.eth with regs := t } }
  | 17 => { s with ptc := { s.ptc with regs := t } }
  | 18 => { s with can := { s.can with regs := t } }
  | 20 => { s with ser := { s.ser with regs := t } }
  | 22 => { s with axs := { s.axs with regs := t } }
  | 23 => { s with dio := { s.dio with regs := t } }
  | 24 => { s with twn := { s.twn with regs := t } }
  | 25 => { s with cas := { s.cas with regs := t } }
  | 26 => { s with key := { s.key with regs := t } }
  | 27 => { s with upd := { s.upd with regs := t } }
  | 28 => { s with otp := { s.otp with regs := t } }
  | 29 => { s with fsh := { s.fsh with regs := t } }
  | 30 => { s with ccx := { s.ccx with regs := t } }
  | _ => s

/-- The value of a field: what was last put into it, else its reset value. -/
def rd (f : Fld) (s : State) : Nat := (tfind f.key (regsAt f.blk s)).getD f.rst

/-- The state with v in a field, cut to the field's width. -/
def wr (f : Fld) (v : Nat) (s : State) : State := setRegs f.blk (tins f.key (v % 2 ^ f.width) (regsAt f.blk s)) s

/-- A one-bit field reads 1. -/
def on (f : Fld) (s : State) : Bool := rd f s == 1

/-- The signed value of a field. -/
def rdS (f : Fld) (s : State) : Int := sgn f.width (rd f s)

/-- The state with a signed number in a field, wrapping. -/
def wrS (f : Fld) (i : Int) (s : State) : State := wr f (enc f.width i) s

/-- Adds n to a counter that saturates (Table IDX-3). -/
def count (f : Fld) (n : Nat) (s : State) : State := wr f (min (rd f s + n) (2 ^ f.width - 1)) s

/-- Adds n to a counter that wraps. -/
def countWrap (f : Fld) (n : Nat) (s : State) : State := wr f (rd f s + n) s

/-- The 64-bit number in two 32-bit registers. -/
def rd64 (lo hi : Fld) (s : State) : Nat := rd lo s + 2 ^ 32 * rd hi s

def wr64 (lo hi : Fld) (v : Nat) (s : State) : State := wr hi (v / 2 ^ 32) (wr lo v s)

/-- A field of a block group by offset and lowest bit, for the registers every block lays out alike. -/
def fldAt (blk inst off lo width : Nat) : Fld := ⟨blk, 32 * (0x10000 * inst + off) + lo, width, 0⟩

/-! ### Reporting -/

def note (n : Note) (s : State) : State := { s with notes := s.notes ++ [n] }

/-- Event e occurs. -/
def raise (e : Nat) (s : State) : State := note (.event e false) s

/-- Event e occurs and a rule calls for an alarm with it (R571). -/
def raiseAlarm (e : Nat) (s : State) : State := note (.event e true) s

/-- An error that no completion record carries (R562): its code's high byte is the block (R22). -/
def report (code detail : Nat) (s : State) : State := note (.error (code / 256) code detail false) s

/-- An error for which a rule calls for an alarm (R571). -/
def reportAlarm (code detail : Nat) (s : State) : State := note (.error (code / 256) code detail true) s

/-- Something goes out on a medium. -/
def emit (e : Emit) (s : State) : State := { s with out := s.out ++ [e] }

/-- Writes a CMD_RES register of a block that has no command event. -/
def cmdResQuiet (blk inst off cmd status error : Nat) (s : State) : State :=
  wr (fldAt blk inst off 0 3) status (wr (fldAt blk inst off 4 4) cmd (wr (fldAt blk inst off 16 16) error s))

/-- Writes a CMD_RES register at offset off of a block (layout of REF_CMD_RES) and raises the block's command event (R19, R623). -/
def cmdRes (blk inst off event cmd status error : Nat) (s : State) : State :=
  raise event (cmdResQuiet blk inst off cmd status error s)

/-- Counts a refused configuration write at an offset of a block (R16, R18, Table SCP-7) and raises the block's configuration event (Table EVT-2). -/
def cfgRefuse (blk inst event off : Nat) (s : State) : State :=
  raise event (wr (fldAt blk inst 0xFF0 16 16) off (count (fldAt blk inst 0xFF0 0 16) 1 s))

/-! ### Addressed memory (Table IDX-1; R9) -/

/-- The byte at an address; an unlisted byte is zero (R593). -/
def byteAt (m : List Host.Cell) (a : Nat) : Byte := tget 0 a m

/-- The memory with one byte written. -/
def setByte (m : List Host.Cell) (a : Nat) (b : Byte) : List Host.Cell := tset 0 a b m

/-- The n bytes from address a. -/
def bytesAt (m : List Host.Cell) (a : Nat) : Nat → List Byte
  | 0 => []
  | n + 1 => byteAt m a :: bytesAt m (a + 1) n

/-- The memory with a byte string written from address a. -/
def setBytes (m : List Host.Cell) (a : Nat) : List Byte → List Host.Cell
  | [] => m
  | b :: t => setBytes (setByte m a b) (a + 1) t

/-- The little-endian number in the n bytes from address a. -/
def loadLe (m : List Host.Cell) (a n : Nat) : Nat := ofLe (bytesAt m a n)

/-- The memory with the n low bytes of v written from address a, little-endian. -/
def storeLe (m : List Host.Cell) (a n v : Nat) : List Host.Cell := setBytes m a (leBytes n v)

/-- The canonical form of memory: addresses strictly rising, and no byte listed that an unlisted address would read as. -/
abbrev Memory.wf (m : List Host.Cell) : Bool := rising m && m.all (fun c => c.2 != 0)

def State.setMem (s : State) (m : List Host.Cell) : State := { s with mem := m }

/-! ### Time (R5, R7, R8, R27, R379 to R381, R597) -/

/-- Site time in ns; 0 until it is first set. -/
def siteNs (s : State) : Nat :=
  if s.clk.siteSet then (s.clk.siteAcc + s.clk.siteOfs) / 2 ^ 32 % 2 ^ 64 else 0

/-- Port time in ns, signed before it is cut to 64 bits. -/
def portNs (s : State) : Int := ((s.clk.portAcc : Int) + s.clk.portOfs) / 2 ^ 32

/-- Length of the air cycle in ns (R27): bit PLAN of AIR_CTRL selects Plan E. -/
def cycleLen (s : State) : Nat := if on AIR_CTRL_PLAN s then 100000000 else 50000000

/-- The cycle number (R7, R8, R27). -/
def cycleNo (s : State) : Nat := (siteNs s - s.site.epoch) / cycleLen s % 2 ^ 32

/-- Nanoseconds since the start of the current cycle. -/
def cyclePhase (s : State) : Nat := (siteNs s - s.site.epoch) % cycleLen s

/-- Claim time: microseconds of site time, modulo 2^32 (04_reaches_and_claims.md, "Claim time"). -/
def claimTime (s : State) : Nat := siteNs s / 1000 % 2 ^ 32

/-- FRC ticks of 2 ns in n ms. -/
def ticksOfMs (n : Nat) : Nat := n * 500000

/-- One tick of the 500 MHz time clock: the FRC counts, and each clock adds its increment (R379); the site clock stands until it is set (R597). -/
def tickClocks (s : State) : State :=
  { s with clk := { s.clk with
      frc := s.clk.frc + 1,
      siteAcc := if s.clk.siteSet then s.clk.siteAcc + s.clk.incSite else s.clk.siteAcc,
      portAcc := s.clk.portAcc + s.clk.incPort } }

/-- The next value of the counter behind free values, and the state with it taken. -/
def fresh (s : State) : Nat × State := (s.free, { s with free := s.free + 1 })

/-! ### Power state in force (Table PWR-1) -/

/-- 0 WATCH, 1 READY, 2 RUN (PWR_STATUS.STATE). -/
def pwrState (s : State) : Nat := rd PWR_STATUS_STATE s

def inRun (s : State) : Bool := !s.pwr.off && !s.pwr.romFail && pwrState s == 2
def inWatch (s : State) : Bool := !s.pwr.off && pwrState s == 0
def awake (s : State) : Bool := !s.pwr.off && !s.pwr.romFail && pwrState s != 0

end Sys2Proof.Machine
end

