-- ==== Sys2Proof/Machine/Mirror.lean ====
section
/-!
DEFINITION. Sys2Proof/Machine/Mirror.lean: the mirror of a pair (15_twin_and_cascade.md, Tables TWN-2, TWN-3): what an active module sends at every change, and what a standby does with a record.
-/
namespace Sys2Proof.Machine

/-- ROLE (Table TWN-2): 0 SINGLE, 1 STARTING, 2 ACTIVE, 3 STANDBY, 4 STALE. -/
def twnRole (s : State) : Nat := rd TWN_STATUS_ROLE s

/-- The module shadows an active partner: it sends nothing on air and its claims and stop lane follow the mirror. -/
def shadowing (s : State) : Bool := twnRole s == 3 || twnRole s == 4

/-- The module is a tributary that takes its claims and its time from the headwater (JOINED). -/
def joinedTrib (s : State) : Bool := on CAS_CTRL_EN s && rd CAS_CTRL_ROLE s == 2 && rd CAS_STATUS_STATE s == 3

/-- The headwater of a cascade. -/
def isHead (s : State) : Bool := on CAS_CTRL_EN s && rd CAS_CTRL_ROLE s == 1

/-- Site time follows another module's: the active's, or the headwater's while it is heard (R497). -/
def linkTime (s : State) : Bool := shadowing s || (on CAS_CTRL_EN s && rd CAS_CTRL_ROLE s == 2 && (rd CAS_STATUS_STATE s == 2 || rd CAS_STATUS_STATE s == 3 || rd CAS_STATUS_STATE s == 5))

/-- One record for every key whose entry differs. -/
def tdiff {α β : Type} [DecidableEq α] (f : Nat → Option α → β) (old new : Tbl α) : List β :=
  if old = new then [] else ((keys old ++ keys new).eraseDups.filter (fun k => tfind k old != tfind k new)).map (fun k => f k (tfind k new))

/-- What of a channel is mirrored: its queue, mode and limits, not the plan's progress, which the standby computes itself. -/
def chanCore (c : Chan) : ChMode × List Seg × List Nat := (c.mode, c.queue, [c.aUse, c.dUse, c.jUse, c.dsUse, c.jsUse])

def laneRec (s : State) : MirRec :=
  .lane (rd STP_STATUS_STATE s) (rd STP_STATUS_FAULT s) (rd STP_STATUS_ACTIVE s) (rd STP_STATUS_LATCHED s) (rd STP_SERIAL_SERIAL s) (rd STP_SERIAL_FIRST s)
    (rd64 STP_EPOCH_LO STP_EPOCH_HI s) (rd STP_EPOCH_CYC s)

/-- The stop lane's record, ahead of every other. -/
def laneDiff (a b : State) : List MirRec := if laneRec a = laneRec b then [] else [laneRec b]

def ptrBytes (p : Nat) (s : State) : List Byte := bytesAt s.mem (0x4000 * rd WKR_TABLE_ADDR s + 32 * p) 32

/-- The records of the changes from a to b (Table TWN-3), but for the writes and the region, which are recorded where they happen. -/
def mirrorOf (a b : State) : List MirRec :=
  laneDiff a b
    ++ tdiff .claim a.clm.claims b.clm.claims ++ tdiff .path a.clm.paths b.clm.paths ++ tdiff .echo a.clm.echo b.clm.echo
    ++ (if a.pro.chans = b.pro.chans then [] else
        ((keys a.pro.chans ++ keys b.pro.chans).eraseDups.filter (fun n => (tfind n a.pro.chans).map chanCore != (tfind n b.pro.chans).map chanCore)).map (fun n => .chan n (tfind n b.pro.chans)))
    ++ tdiff .idx a.air.idx b.air.idx ++ (if a.air.orders = b.air.orders then [] else [.orders b.air.orders])
    ++ tdiff (fun p x => .ptr p x (ptrBytes p b)) a.wkr.ptr b.wkr.ptr
    ++ (if (a.key.bkey, a.key.bprev, a.air.keyUse) = (b.key.bkey, b.key.bprev, b.air.keyUse) then [] else [.keys b.key.bkey b.key.bprev b.air.keyUse])
    ++ (if a.mrc.items.length = b.mrc.items.length then [] else [.items b.mrc.items.length])

def twnSeq (s : State) : Nat := rd TWN_SEQ s

/-- Issues one mirror record under the next SEQ (R478). -/
def issue (r : MirRec) (s : State) : State :=
  let n := (twnSeq s + 1) % 2 ^ 32
  emit (.mirror n r) (wr TWN_SEQ n { s with twn := { s.twn with sent := s.twn.sent + 1 } })

/-- The active of a pair sends what a command has changed. -/
def mirrorSend (old s : State) : State := if twnRole s = 2 then (mirrorOf old s).foldl (fun s r => issue r s) s else s

/-- The headwater returns every change of a claim to the members that have joined; a tributary in ISOLATED keeps the own claims it frees (R502). -/
def cascadeSend (old s : State) : State :=
  if old.clm.claims = s.clm.claims then s
  else if isHead s then
    let own := rd CAS_CTRL_MEMBER s
    let to_ := (List.range 8).filter (fun m => m != own && bit (rd CAS_STATUS_PRESENT s) m)
    (tdiff (fun k c => (k, c)) old.clm.claims s.clm.claims).foldl (fun s x => to_.foldl (fun s m => emit (.cas (some m) (.replica x.1 x.2)) s) s) s
  else if on CAS_CTRL_EN s && rd CAS_STATUS_STATE s == 4 then
    let gone := (old.clm.claims.filter (fun p => (tfind p.1 s.clm.claims).isNone && p.2.owner / 256 == rd CAS_CTRL_MEMBER s)).map Prod.fst
    { s with cas := { s.cas with freed := s.cas.freed ++ gone.filter (fun k => !s.cas.freed.contains k) } }
  else s

end Sys2Proof.Machine
end

