-- ==== Sys2Proof/Config.lean ====
section
/-!
DEFINITION. Sys2Proof/Config.lean: the values the spec leaves open. Each is an opaque constant without a body, applied to the counter
State.free (which a step advances) or to the operands it may depend on, so that no proof can see its value.
-/
namespace Sys2Proof.Config

/-- Where Millrace begins to look for a free item number (Table MRC-2 says only that it assigns one). -/
opaque itemNumber : Nat → Nat

/-- Where Millrace begins to look for a free inbox (R303 says only a free inbox). -/
opaque inboxNumber : Nat → Nat

/-- Which way REF rounds an inexact quotient or root when it updates a multipath cell (the learning code of
02_reference_station.md gives the formula, not the rounding): by the operation's two operands. -/
opaque mpRound : Int → Nat → Bool

/-- The code scatter REF takes as SIGMA_PR of a corrected entry (R55 does not say how it is had from the cell). -/
opaque mpSigma : Nat → Nat

/-- The rate REF's second-order loop commands for a time error (R59 gives the time constant, not the gains), before its limit. -/
opaque siteLoop : Nat → Int → Int

/-- The rate of the learned TCXO model in holdover (R60), before the limit of R380. -/
opaque holdRate : Nat → Int

/-- Whether tininess is found after rounding (IEEE 754-2019 leaves the choice; R245 names none). -/
opaque tinyAfterRounding : Bool

/-- Whether a fused multiply-add of infinity, zero and a quiet NaN signals NV (IEEE 754-2019 leaves the choice). -/
opaque fmaInfZeroNan : Bool

/-- Where CLM begins to look for a free entry of the claim table (04_reaches_and_claims.md says only that it writes one). -/
opaque claimIndex : Nat → Nat

/-- The spine root fused at manufacture, by byte (16_keys_and_presence.md, "The key tree"). -/
opaque spineRoot : Nat → Byte

/-- The published test root, by byte (R523; its value is not printed). -/
opaque testRoot : Nat → Byte

/-- The factory block of the fuses, by byte: EUI-64, keys, calibrations, default edition part (17_updates_and_editions.md, "Editions"; its layout is not given). -/
opaque factoryByte : Nat → Byte

/-- The factory hop seed, by byte (R646). -/
opaque factorySeed : Nat → Byte

/-- What the random generator of the key engine gives (SP 800-90A), by draw. -/
opaque random : Nat → Byte

/-- ECDSA P-384 verification of a signature (r then s) over a message, under a public key (R538). -/
opaque ecdsaOk : List Byte → List Byte → List Byte → Bool

/-- LMS/HSS verification of a signature over a message, under a public key (R538). -/
opaque lmsOk : List Byte → List Byte → List Byte → Bool

/-- The factory block's P-384 and HSS signing keys. -/
opaque factoryEc : List Byte
opaque factoryHss : List Byte

/-- The x-coordinate that ECDH P-384 gives: by this module's ephemeral key and the partner's public part (R515). -/
opaque ecdhX : Nat → List Byte → List Byte

/-- Where a port begins to look for a free pool cell (R373 does not say which it takes). -/
opaque poolCell : Nat → Nat

/-- The rate the servo of PTC commands for a port-time error (R382 gives no gains), before its limit. -/
opaque portLoop : Nat → Int → Int

/-- The MIC of a frame for which the module holds no key (16_keys_and_presence.md gives none), by draw and byte. -/
opaque keylessMic : Nat → Nat → Byte

/-- What a REFUSED GRANT holds for INDEX (0), FIRST (1) and, to a partner, LANE (2) and PERIOD (3): by the joiner's EUI-64 and the FCNT answered (Table AIR-6 says what they are of a grant). -/
opaque refusedGrant : List Byte → Nat → Nat → Nat

/-- Whether a stop-status output is on under a reserved function code (STP_STAT_OUT gives codes 0 to 3). -/
opaque statReserved : Nat → Bool

/-- What a start-up finds (Boot of Syntax.lean) when a write of PWR_CMD commands the reset: the answers of its checks, the gatherings that fail their re-read, the milliseconds it
takes, what a translated SITE image says, by draw. -/
opaque startCheck : Nat → Nat → Bool
opaque startBad : Nat → List Nat
opaque startMs : Nat → Nat
opaque startEpoch : Nat → Option Nat
opaque startTables : Nat → Option (List (Nat × Byte))

/-- What the partner answers when a write of TWN_CMD commands PAIR or UNPAIR: its public part, or that it agrees, by draw. -/
opaque partnerPart : Nat → Option (List Byte)
opaque partnerAgrees : Nat → Bool

/-- The edition the steward writes, and how its fuses take it, when a write of OTP_CMD commands WRITE_EDITION (OTP has no register for the edition's bytes), by draw. -/
opaque editionBytes : Nat → List Byte
opaque fusesTake : Nat → Nat → Bool

/-- Whether a CAN port's offered frame is on the bus at the moment a register write clears EN or sets ABORT (13_can_and_rs485.md, R428, R429), by draw. -/
opaque frameOnBus : Nat → Bool

/-- Where the steward begins to look for an unused session identifier (R401 asks only for a new nonzero one). -/
opaque sessionId : Nat → Nat

/-- The boot ROM's contents, by offset (no chapter prints them). -/
opaque romByte : Nat → Byte

/-- Where the steward core goes on an exception (its handling is vendor firmware; no register names the address). -/
opaque stewardVector : W32

/-- A byte of SOL's filter state as a core reads it (Table SOL-9 gives the place, no layout), by draw and offset. -/
opaque filterByte : Nat → Nat → Byte

/-- What MARG and MID give on a core that runs without an item (start-up code), by draw. -/
opaque noItemWord : Nat → Word

/-- Which of two results stays when FPOP, FPOPW, FPEEK or TCYC names one register for both: true, the one for D. -/
opaque dWins : Bool

end Sys2Proof.Config
end

