-- ==== Sys2Proof/Machine/Mem.lean ====
section
/-!
DEFINITION. Sys2Proof/Machine/Mem.lean: the memory controller of 10_memory_and_flumes.md: decoding a line by the two codes
(R322 to R326), stores to sound and poisoned words (R325), error records (R331), the scrubbers (R327 to R330) and MEM's commands.
-/
namespace Sys2Proof.Machine

/-- The store an address belongs to (MEM_ERR_P_INFO.STORE): 0 main, 1 CLM, 2 SOL, 3 steward, 4 the tag store, to which the model
gives the addresses from 2^32 upward since no core addresses it. -/
def storeOf (a : Nat) : Nat :=
  if a < 0x40000000 then 0 else if a < 0x41000000 then 1 else if a < 0xFE000000 then 2 else if a < 0x100000000 then 3 else 4

/-- First address of a store, and the number of its 64-byte lines (Table MEM-1). -/
def storeBase (st : Nat) : Nat :=
  match st with | 0 => 0 | 1 => 0x40000000 | 2 => 0x41000000 | 3 => 0xFE000000 | _ => 0x100000000

def storeLines (st : Nat) : Nat :=
  match st with | 0 => 1048576 | 1 => 98304 | 2 => 65536 | 3 => 8192 | _ => 4096

/-- The mark of the word that holds address a. -/
def markAt (a : Nat) (s : State) : Option WordErr := tfind (a / 8 * 8) s.ecc.marks

def setMark (a : Nat) (m : Option WordErr) (s : State) : State :=
  { s with ecc := { s.ecc with marks :=
      match m with | none => tdel (a / 8 * 8) s.ecc.marks | some e => tins (a / 8 * 8) e s.ecc.marks } }

/-- Fills MEM's primary or secondary error record, or counts the overflow (R331); the error is also EVT's (R563). The first
overflow raises event 22 here and event 4 in EVT. -/
def memError (cause addr source who : Nat) (s : State) : State :=
  let code := 0x500 + cause
  let st := storeOf addr
  let a := addr - storeBase st
  let s :=
    if rd MEM_ERR_P_INFO_ERROR s = 0 then
      wr MEM_ERR_P_ADDR a (wr MEM_ERR_P_INFO_ERROR code (wr MEM_ERR_P_INFO_SOURCE source (wr MEM_ERR_P_INFO_STORE st (wr MEM_ERR_P_INFO_WHO who s))))
    else if rd MEM_ERR_S_INFO_ERROR s = 0 then
      wr MEM_ERR_S_ADDR a (wr MEM_ERR_S_INFO_ERROR code (wr MEM_ERR_S_INFO_SOURCE source (wr MEM_ERR_S_INFO_STORE st (wr MEM_ERR_S_INFO_WHO who s))))
    else
      let first := rd MEM_ERR_OVF s = 0
      let s := count MEM_ERR_OVF 1 s
      if first then raise 22 s else s
  report code (addr / 8 % 65536) s

/-- The words of the line at address l that carry a given mark. -/
def lineMarks (l : Nat) (m : WordErr) (s : State) : List Nat :=
  ((List.range 8).map (fun i => l + 8 * i)).filter (fun a => markAt a s == some m)

/-- A line that cannot be corrected: the flagged words are poisoned, or every word when none is flagged; cause 0x01, MEM_UNCORR (R324). -/
def lineLost (l a source who : Nat) (s : State) : State :=
  let fl := lineMarks l .flagged s
  let ws := if fl.isEmpty then (List.range 8).map (fun i => l + 8 * i) else fl
  let s := ws.foldl (fun s w => setMark w (some .poisoned) s) s
  let s := { s with ecc := { s.ecc with badLines := s.ecc.badLines.filter (· != l) } }
  raise 18 (memError 0x01 a source who (count MEM_CNT_UNCORR 1 s))

/-- A word rebuilt by the outer code and written back: cause 0x06, MEM_CORRECTED (R323). -/
def rebuildWord (w source who : Nat) (s : State) : State :=
  let s := setMark w none s
  let s := if source = 3 then { s with ecc := { s.ecc with rebuilt := w :: s.ecc.rebuilt.filter (· != w) } } else s
  raise 17 (memError 0x06 w source who (count MEM_CNT_OUTER 1 s))

/-- Decodes the line at address l by the first row of Table MEM-2 that applies (R322); a names the access in an error record. -/
def decodeLine (l a source who : Nat) (s : State) : State :=
  match lineMarks l .flagged s with
  | [] =>
    if s.ecc.badLines.contains l then lineLost l a source who s
    else count MEM_CNT_INNER (lineMarks l .single s).length s
  | [w] => if s.ecc.badLines.contains l then lineLost l a source who s else rebuildWord w source who s
  | _ => lineLost l a source who s

/-- Reads the word that holds address a: whether its bytes may be had, and the state after (R322 to R326). -/
def eccRead (a source who : Nat) (s : State) : Bool × State :=
  if markAt a s = some .poisoned then (false, memError 0x02 a source who s)
  else
    let s := decodeLine (a / 64 * 64) a source who s
    (markAt a s != some .poisoned, s)

/-- Reads the words under n bytes from a. -/
def eccReadRange (a n source who : Nat) (s : State) : Bool × State :=
  ((List.range ((a % 8 + n + 7) / 8)).map (fun i => a / 8 * 8 + 8 * i)).foldl
    (fun p w => let r := eccRead w source who p.2; (p.1 && r.1, r.2)) (true, s)

/-- What a store does to the mark of one word: a store of all eight bytes clears it; a narrower store leaves a poisoned word
poisoned, with cause 0x03 (R325), and rewrites any other word whole after decoding it. -/
def markStore (w : Nat) (whole : Bool) (who : Nat) (s : State) : State :=
  match markAt w s with
  | none => s
  | some .poisoned => if whole then setMark w none s else memError 0x03 w 5 who (count MEM_CNT_POISON 1 s)
  | some e =>
    if whole then setMark w none s
    else
      let s := decodeLine (w / 64 * 64) w 5 who s
      if e = .single then setMark w none s else s

/-- Writes a byte string from address a. -/
def memWrite (a : Nat) (bs : List Byte) (who : Nat) (s : State) : State :=
  let n := bs.length
  let ws := (List.range ((a % 8 + n + 7) / 8)).map (fun i => a / 8 * 8 + 8 * i)
  let s := ws.foldl (fun s w => markStore w (decide (a ≤ w ∧ w + 8 ≤ a + n)) who s) s
  s.setMem (setBytes s.mem a bs)

/-! ### Scrubbing (R327 to R330) -/

/-- Soft errors that have struck a line. -/
def strike (l : Nat) (ups : List (Nat × Nat)) (syn : Bool) (s : State) : State :=
  let s := ups.foldl (fun s u =>
    let w := l + 8 * (u.1 % 8)
    if markAt w s = some .poisoned then s else setMark w (some (if u.2 = 0 then .single else .flagged)) s) s
  if syn && !(s.ecc.badLines.contains l) then { s with ecc := { s.ecc with badLines := l :: s.ecc.badLines } } else s

/-- Writes back every inner correction of a line. -/
def writeBackSingles (l : Nat) (s : State) : State :=
  (lineMarks l .single s).foldl (fun s w => setMark w none s) s

/-- A word rebuilt on this visit that was also rebuilt on the pass before: hard (R329). -/
def hardCheck (l : Nat) (before : List Nat) (s : State) : State :=
  (before.filter (fun w => decide (w / 64 * 64 = l) && s.ecc.rebuilt.contains w && s.ecc.rebuiltPrev.contains w)).foldl
    (fun s w => raiseAlarm 19 (memError 0x04 w 3 5 (count MEM_CNT_HARD 1 s))) s

/-- The end of a pass over a store: position 0 again, the words rebuilt kept for the next pass; for main SRAM PASSES and SCRUB_PASS. -/
def passEnd (st : Nat) (s : State) : State :=
  let mine := fun w => storeOf w == st
  let s := { s with ecc := { s.ecc with
    pos := tset 0 st 0 s.ecc.pos,
    rebuiltPrev := s.ecc.rebuilt.filter mine ++ s.ecc.rebuiltPrev.filter (fun w => !mine w),
    rebuilt := s.ecc.rebuilt.filter (fun w => !mine w) } }
  if st = 0 then raise 20 (countWrap MEM_STATUS_PASSES 1 s) else s

/-- One visit of a store's scrubber to its next line (R327, R328, R330): decode, write back, hard-word check, advance. The scrubbers
rest in Watch (Table PWR-1), and that of main SRAM while SCRUB_EN is 0. -/
def scrubVisit (st : Nat) (ups : List (Nat × Nat)) (syn late : Bool) (s : State) : State :=
  if !awake s || (st = 0 && !on MEM_CTRL_SCRUB_EN s) || 4 < st then s
  else
    let s := if late then raise 21 (count MEM_CNT_SCRUB_DEFER 1 s) else s
    let i := tget 0 st s.ecc.pos
    let l := storeBase st + 64 * i
    let s := strike l ups syn s
    let flagged := lineMarks l .flagged s
    let s := decodeLine l l 3 5 s
    let s := writeBackSingles l s
    let s := hardCheck l flagged s
    let s := { s with ecc := { s.ecc with pos := tset 0 st (i + 1) s.ecc.pos } }
    if i + 1 ≥ storeLines st then passEnd st s else s

/-- MEM_CMD_RES and event 23 MEM_CMD_DONE. -/
def memCmdDone (cmd status error : Nat) (s : State) : State := cmdRes 5 0 0x0C 23 cmd status error s

/-- SCRUB_RESTART: the pass over main SRAM begins again at its first line (R327). -/
def scrubRestart (s : State) : State :=
  memCmdDone 1 0 0 { s with ecc := { s.ecc with pos := tset 0 0 0 s.ecc.pos } }

/-- Debug is enabled (R523). -/
def debugOn (s : State) : Bool := on KEY_STATUS_DEBUG s

/-- INJECT: the error MEM_INJECT names is set on its word, while debug is enabled; else REFUSED with 0x0505 (R332). -/
def injectError (s : State) : State :=
  if !debugOn s then memCmdDone 2 4 0x0505 s
  else
    let a := 8 * rd MEM_INJECT_ADDR s % 0x4000000
    let l := a / 64 * 64
    let s :=
      match rd MEM_INJECT_MODE s with
      | 0 => setMark a (some .single) s
      | 1 => setMark a (some .flagged) s
      | 2 => setMark (if a = l then l + 8 else l) (some .flagged) (setMark a (some .flagged) s)
      | _ => strike l [] true s
    memCmdDone 2 0 0 s

/-- Empties MEM's error records and overflow count (R331, R564). -/
def memClear (s : State) : State :=
  [MEM_ERR_P_ADDR, MEM_ERR_P_INFO_ERROR, MEM_ERR_P_INFO_SOURCE, MEM_ERR_P_INFO_STORE, MEM_ERR_P_INFO_WHO,
   MEM_ERR_S_ADDR, MEM_ERR_S_INFO_ERROR, MEM_ERR_S_INFO_SOURCE, MEM_ERR_S_INFO_STORE, MEM_ERR_S_INFO_WHO,
   MEM_ERR_OVF].foldl (fun s f => wr f 0 s) s

end Sys2Proof.Machine
end

