-- ==== Sys2Proof/Machine/Flm.lean ====
section
/-!
DEFINITION. Sys2Proof/Machine/Flm.lean: the flume controller (10_memory_and_flumes.md, R333 to R349): enabling, pushing, spill marks,
popping, watermarks, FLOW pins and flushing.
-/
namespace Sys2Proof.Machine

def flume (n : Nat) (s : State) : Flume := tget {} n s.flm.flumes

def setFlume (n : Nat) (f : Flume) (s : State) : State :=
  { s with flm := { s.flm with flumes := tset {} n f s.flm.flumes } }

/-- SIZE of flume n in words. -/
def flumeSize (n : Nat) (s : State) : Nat := 2 ^ rd (FLM_CFG_LOG2 n) s

def flumeOn (n : Nat) (s : State) : Bool := on FLM_CTRL_EN s && on (FLM_CFG_EN n) s

/-- Words held, spill marks and unseen words included. -/
def flumeLen (n : Nat) (s : State) : Nat := (flume n s).tags.length

/-- Words a reader may take: none while an IN pin holds the flume (R347), and no word of a record not yet complete when RECOVER is 1 (R342). -/
def flumeVisible (n : Nat) (s : State) : Nat :=
  if (flume n s).heldByPin then 0 else flumeLen n s - (flume n s).unseen

/-- A data word would be accepted (R336). -/
def flumeRoom (n k : Nat) (s : State) : Bool := decide (flumeLen n s + k + 1 ≤ flumeSize n s)

/-- Address of the word at ring position p of flume n (R333). -/
def flumeAddr (n p : Nat) (s : State) : Nat := 8 * rd (FLM_BASE_ADDR n) s + 8 * (p % flumeSize n s)

/-- Lets a held write of a field take effect (R15). -/
def commitFld (f : Fld) (s : State) : State :=
  let k := f.blk * 0x100000000 + f.key
  match tfind k s.held with
  | none => s
  | some v => wr f v { s with held := tdel k s.held }

/-- The commit point of a flume's S-class fields, its next push or pop (R353). -/
def commitFlume (n : Nat) (s : State) : State := commitFld (FLM_WM_HIGH n) (commitFld (FLM_WM_LOW n) s)

/-- The OUT pins bound to flume n follow its HIGH state (R346). -/
def drivePins (n : Nat) (high : Bool) (s : State) : State :=
  (List.range 4).foldl (fun s p =>
    if rd (FLM_FLOWPIN_MODE p) s = 1 ∧ rd (FLM_FLOWPIN_FLUME p) s = n then
      { s with flm := { s.flm with pinOut := tset false p high s.flm.pinOut } }
    else s) s

/-- HIGH and NORMAL by the watermarks, with their events (R345). -/
def watermark (n : Nat) (s : State) : State :=
  let hi := rd (FLM_WM_HIGH n) s
  let lo := rd (FLM_WM_LOW n) s
  let f := flume n s
  let len := f.tags.length
  if hi = 0 ∨ hi ≤ lo then s
  else if !f.high && decide (hi ≤ len) then raise 25 (drivePins n true (setFlume n { f with high := true } s))
  else if f.high && decide (len ≤ lo) then raise 26 (drivePins n false (setFlume n { f with high := false } s))
  else s

/-- The spill mark word of Table MEM-4. -/
def markWord (n : Nat) (ecc partly : Bool) (records words : Nat) : Word :=
  BitVec.ofNat 64 (n % 128 * 2 ^ 56 + b2n ecc * 2 ^ 49 + b2n partly * 2 ^ 48 + min records 0xFFFF * 2 ^ 32 + min words 0xFFFFFFFF)

/-- Stores a word at a ring position of flume n. -/
def putWord (n p : Nat) (w : Word) (s : State) : State := memWrite (flumeAddr n p s) (leBytes 8 w.toNat) 4 s

def getWord (n p : Nat) (s : State) : Word := BitVec.ofNat 64 (loadLe s.mem (flumeAddr n p s) 8)

/-- Counts words dropped from flume n. -/
def countDrop (n k : Nat) (s : State) : State := count FLM_CNT_DROP k (count (FLM_CNT_DROP_N n) k s)

/-- Records a loss of words (and of records more records) behind the newest word: in the mark that stands there, else in a new mark
(R340); partly says the record before the mark stays readable in part (R343). -/
def addLoss (n words records : Nat) (partly : Bool) (s : State) : State :=
  let f := flume n s
  let p := f.head + f.tags.length
  match f.tags.getLast? with
  | some 2 =>
    let w := (getWord n (p - 1) s).toNat
    putWord n (p - 1) (markWord n (bit w 49) (bit w 48) (bits w 32 16 + records) (bits w 0 32 + words)) s
  | _ =>
    let s := putWord n p (markWord n false partly records words) s
    let s := setFlume n { f with tags := f.tags ++ [2] } s
    raise 27 (count FLM_CNT_MARK 1 (count (FLM_CNT_MARK_N n) 1 s))

/-- The drop of a word that cannot be accepted (R340 to R343). -/
def spill (n : Nat) (tagEnd : Bool) (s : State) : State :=
  let f := flume n s
  let back := if on (FLM_CFG_RECOVER n) s then f.recWords else 0
  let f' := { f with
    tags := f.tags.take (f.tags.length - back),
    unseen := f.unseen - back, recWords := 0, dropping := !tagEnd }
  let s := countDrop n (back + 1) (setFlume n f' s)
  watermark n (addLoss n (back + 1) 1 (decide (0 < f.recWords) && decide (back = 0)) s)

/-- Pushes one word (R336, R340 to R343, R348, R349): status 0 accepted, 1 dropped. -/
def pushWord (n : Nat) (w : Word) (tagEnd : Bool) (s : State) : Nat × State :=
  if !flumeOn n s then
    let f := flume n s
    let s := countDrop n 1 s
    if f.told then (1, s)
    else (1, raise 24 (report 0x0405 n (setFlume n { f with told := true } s)))
  else
    let s := commitFlume n s
    let f := flume n s
    if f.flushing then
      (0, count FLM_CNT_FLUSH 1 (setFlume n { f with flushing := !tagEnd } s))
    else if f.dropping then
      (1, watermark n (addLoss n 1 (if f.tags.getLast? = some 2 then 0 else 1) false (countDrop n 1 (setFlume n { f with dropping := !tagEnd } s))))
    else if !flumeRoom n 1 s then (1, spill n tagEnd s)
    else
      let s := putWord n (f.head + f.tags.length) w s
      let f' := { f with
        tags := f.tags ++ [b2n tagEnd],
        recWords := if tagEnd then 0 else f.recWords + 1,
        unseen := if on (FLM_CFG_RECOVER n) s && !tagEnd then f.unseen + 1 else 0 }
      let s := setFlume n f' s
      (0, watermark n (if tagEnd then countWrap (FLM_RECS_PUSHED n) 1 s else s))

/-- Pushes the words of one record, the last with END (R338): whether every word was accepted. -/
def pushRecord (n : Nat) : List Word → State → Bool × State
  | [], s => (true, s)
  | [w], s => let r := pushWord n w true s; (r.1 == 0, r.2)
  | w :: t, s =>
    let r := pushWord n w false s
    let q := pushRecord n t r.2
    (r.1 == 0 && q.1, q.2)

/-- Pushes a record given as bytes. -/
def pushBytes (n : Nat) (bs : List Byte) (s : State) : Bool × State := pushRecord n (wordsOf bs.length bs) s

/-- Number of words up to and including the first END, all where there is none. -/
def throughEnd : List Nat → Nat
  | [] => 0
  | t :: ts => if t % 2 = 1 then 1 else 1 + throughEnd ts

/-- Removes k words from the head of flume n. -/
def dropHead (n k : Nat) (s : State) : State :=
  let f := flume n s
  let ends := (f.tags.take k).filter (fun t => t % 2 == 1)
  let s := setFlume n { f with head := (f.head + k) % flumeSize n s, tags := f.tags.drop k } s
  watermark n (countWrap (FLM_RECS_POPPED n) ends.length s)

/-- The word at the head of flume n as a reader meets it: none when empty or held, else the word, its tags (bit 0 END, bit 1 SPILL) and how
many words leave the flume with it. An uncorrectable word is met as a spill mark with ECC set in place of the rest of its record (R344). -/
def meetHead (n : Nat) (s : State) : Option (Word × Nat × Nat) × State :=
  if flumeVisible n s = 0 then (none, s)
  else
    let f := flume n s
    let r := eccRead (flumeAddr n f.head s) 2 4 s
    if r.1 then (some (getWord n f.head r.2, f.tags.headD 0, 1), r.2)
    else
      let k := throughEnd f.tags
      (some (markWord n true false 1 k, 2, k), r.2)

/-- What R344 records when an uncorrectable word is delivered as a mark. -/
def eccMark (n : Nat) (s : State) : State := raise 28 (report 0x0404 n (count FLM_CNT_ECC 1 s))

/-- Pops the head word: the word and its tags, or EMPTY (bit 2) with 0. -/
def popWord (n : Nat) (s : State) : (Word × Nat) × State :=
  let s := commitFlume n s
  match meetHead n s with
  | (none, s) => ((0, 4), s)
  | (some (w, t, k), s) =>
    let lost := t == 2 && bit w.toNat 49
    let s := if lost && (flume n s).tags.headD 0 != 2 then eccMark n s else s
    ((w, t), dropHead n k s)

/-- Reads the head word without removing it. -/
def peekWord (n : Nat) (s : State) : (Word × Nat) × State :=
  match meetHead n s with
  | (none, s) => ((0, 4), s)
  | (some (w, t, _), s) => ((w, t), s)

/-- Whether a whole record stands ready at the head of flume n: its words up to END, all visible, with no mark among them. -/
def headRecord (n : Nat) (s : State) : Option Nat :=
  let vis := (flume n s).tags.take (flumeVisible n s)
  let k := throughEnd vis
  if vis.any (fun t => t % 2 == 1) && !((vis.take k).any (fun t => t == 2)) then some k else none

/-- Takes a whole record from the head of flume n, word by word: its words, or none after an uncorrectable one. -/
def takeRecord (n : Nat) : Nat → State → Option (List Word) × State
  | 0, s => (some [], s)
  | k + 1, s =>
    match popWord n s with
    | ((w, t), s) =>
      if t = 2 ∨ t = 4 then (none, s)
      else if t % 2 = 1 then (some [w], s)
      else
        match takeRecord n k s with
        | (some ws, s) => (some (w :: ws), s)
        | (none, s) => (none, s)

/-- Takes up to k words from the head of flume n, stopping at END, at a mark and when none is left: the words, and whether END was reached. -/
def takeWords (n : Nat) : Nat → State → (List Word × Bool) × State
  | 0, s => (([], false), s)
  | k + 1, s =>
    match popWord n s with
    | ((w, t), s) =>
      if t = 2 ∨ t = 4 then (([], false), s)
      else if t % 2 = 1 then (([w], true), s)
      else
        match takeWords n k s with
        | ((ws, b), s) => ((w :: ws, b), s)

/-- Takes the spill marks at the head of flume n; k bounds their number. -/
def skipMarks (n : Nat) : Nat → State → State
  | 0, s => s
  | k + 1, s => if (flume n s).tags.headD 0 = 2 ∧ flumeVisible n s ≠ 0 then skipMarks n k (popWord n s).2 else s

/-- Takes the next record an engine reads from its input flume: its words, and whether they end with END; none while neither an END
nor a mark stands in sight. Marks at the head are passed over; a record that a mark cuts short comes without END. -/
def engineTake (n : Nat) (s : State) : Option (List Word × Bool) × State :=
  let s := skipMarks n (flumeLen n s) s
  let vis := (flume n s).tags.take (flumeVisible n s)
  match vis.findIdx? (fun t => t == 2 || t % 2 == 1) with
  | none => (none, s)
  | some i =>
    let r := takeWords n (if vis.getD i 0 = 2 then i else i + 1) s
    (some r.1, r.2)

/-- What stands first in the next record of an engine's input flume, before it is taken: its first word. -/
def enginePeek (n : Nat) (s : State) : Option Word :=
  let s := skipMarks n (flumeLen n s) s
  let vis := (flume n s).tags.take (flumeVisible n s)
  if vis.any (fun t => t == 2 || t % 2 == 1) then some (peekWord n s).1.1 else none

/-- Discards every word of flume n (R348); a record half arrived loses its remaining words too. -/
def flushWords (n : Nat) (s : State) : State :=
  let f := flume n s
  let s := count FLM_CNT_FLUSH f.tags.length s
  let ends := f.tags.filter (fun t => t % 2 == 1)
  let s := setFlume n { f with
    head := (f.head + f.tags.length) % flumeSize n s, tags := [], unseen := 0, recWords := 0,
    dropping := false, flushing := decide (0 < f.recWords) || f.dropping } s
  watermark n (countWrap (FLM_RECS_POPPED n) ends.length s)

/-- FLM_CMD_RES and event 30 FLM_CMD_DONE. -/
def flmCmdDone (cmd status error : Nat) (s : State) : State := cmdRes 4 0 0x10 30 cmd status error s

/-- FLUSH through FLM_CMD; of a flume that is not enabled it is REFUSED (Table MEM-9). -/
def flushCmd (n : Nat) (s : State) : State := if flumeOn (n % 128) s then flmCmdDone 1 0 0 (flushWords (n % 128) s) else flmCmdDone 1 4 0x0401 s

/-- First byte and length of flume n's storage. -/
def flumeSpan (n : Nat) (s : State) : Nat × Nat := (8 * rd (FLM_BASE_ADDR n) s, 8 * flumeSize n s)

/-- R333: LOG2 from 4 to 20, storage inside the pool, aligned to its own size, overlapping no other enabled flume's. -/
def flumeValid (n : Nat) (s : State) : Bool :=
  let lg := rd (FLM_CFG_LOG2 n) s
  let sp := flumeSpan n s
  let pool := rd FLM_POOL_ADDR s * 0x100000
  let plen := rd FLM_POOL_MIB s * 0x100000
  decide (4 ≤ lg ∧ lg ≤ 20) && decide (pool ≤ sp.1 ∧ sp.1 + sp.2 ≤ pool + plen) && decide (sp.1 % sp.2 = 0) &&
    (List.range 128).all (fun m => m == n || !on (FLM_CFG_EN m) s ||
      decide ((flumeSpan m s).1 + (flumeSpan m s).2 ≤ sp.1 ∨ sp.1 + sp.2 ≤ (flumeSpan m s).1))

/-- The refusal of a write that would enable flume n otherwise (R333). -/
def flumeRefused (n : Nat) (s : State) : State := cfgRefuse 4 0 24 (0x1000 + 0x20 * n) (report 0x0403 n s)

/-- Setting FLM_CFG_n.EN: checked under R333, refused with error 0x0403 otherwise. -/
def flumeEnable (n : Nat) (s : State) : State :=
  if on (FLM_CFG_EN n) s then s
  else if flumeValid n s then setFlume n { flume n s with told := false } (wr (FLM_CFG_EN n) 1 s)
  else flumeRefused n s

/-- Clearing FLM_CFG_n.EN: flushed first (R348). -/
def flumeDisable (n : Nat) (s : State) : State :=
  if on (FLM_CFG_EN n) s then wr (FLM_CFG_EN n) 0 (flushWords n s) else s

/-- Clearing FLM_CTRL.EN flushes and disables every flume. -/
def flumesOff (s : State) : State := (List.range 128).foldl (fun s n => flumeDisable n s) (wr FLM_CTRL_EN 0 s)

/-- A FLOW pin qualified at a level: in IN mode it holds or frees its flume's readers and raises FLOW_IN (R347). -/
def flowPin (p : Nat) (level : Bool) (s : State) : State :=
  if !awake s then s
  else
    let asserted := level != on (FLM_FLOWPIN_POL p) s
    let was := tget false p s.flm.pinIn
    let s := { s with flm := { s.flm with pinIn := tset false p level s.flm.pinIn } }
    let s := wr (FLM_FLOWPIN_ASSERTED p) (b2n asserted) s
    if rd (FLM_FLOWPIN_MODE p) s = 2 then
      let n := rd (FLM_FLOWPIN_FLUME p) s
      let s := setFlume n { flume n s with heldByPin := asserted } s
      if was != level then raise 29 s else s
    else s

end Sys2Proof.Machine
end

