-- ==== Sys2Proof/Machine/Mrc.lean ====
section
/-!
DEFINITION. Sys2Proof/Machine/Mrc.lean: Millrace (09_millrace_scheduler.md): descriptors, posting, ending and cancelling items, dispatch,
flume triggers and timers.
-/
namespace Sys2Proof.Machine

/-! ### Cores as Millrace sees them -/

/-- Core n: F0 to F15, the steward 16. -/
def coreOf (n : Nat) (s : State) : Core := tget {} n s.ccx.cores

def setCore (n : Nat) (c : Core) (s : State) : State :=
  { s with ccx := { s.ccx with cores := tset {} n c s.ccx.cores } }

/-- CCX_CTRL.EN of core n. -/
def coreEn (n : Nat) (s : State) : Bool := bit (rd CCX_CTRL_EN s) n

/-- A general register; g0 reads as zero (R239). -/
def Core.gr (c : Core) (r : Nat) : Word := if r = 0 then 0 else tget 0 r c.g

/-- A write of a general register; a write of g0 is discarded (R239). -/
def Core.setGr (c : Core) (r : Nat) (v : Word) : Core := if r = 0 then c else { c with g := tset 0 r v c.g }

/-- Core clocks counted up to now at the clock of the last dispatch (CCOUNT of Table ISA-14). -/
def Core.syncClock (c : Core) (frc : Nat) : Core :=
  { c with ccount := c.ccount + BitVec.ofNat 64 ((frc - c.ccFrom) * 2 * c.mhz / 1000), ccFrom := frc }

/-- Field-core clock in MHz by PWR_STATUS.CORE_STEP (Table PWR-8). -/
def coreMhz (s : State) : Nat :=
  match rd PWR_STATUS_CORE_STEP s with | 0 => 1200 | 1 => 1000 | 2 => 800 | _ => 600

/-! ### Descriptors (Table MRC-3) -/

def descWord (k w : Nat) (s : State) : Nat := rd (MRC_DESC k w) s
def opEntry (k : Nat) (s : State) : Nat := descWord k 0 s
def opStack (k : Nat) (s : State) : Nat := descWord k 1 s
def opStackSz (k : Nat) (s : State) : Nat := bits (descWord k 2 s) 0 16
def opBudget (k : Nat) (s : State) : Nat := bits (descWord k 2 s) 16 16
def opCores (k : Nat) (s : State) : Nat := bits (descWord k 3 s) 0 16
def opPrio (k : Nat) (s : State) : Nat := bits (descWord k 3 s) 16 3
def opAffine (k : Nat) (s : State) : Bool := bit (descWord k 3 s) 19
def opTflume (k : Nat) (s : State) : Option Nat :=
  if bit (descWord k 3 s) 31 then some (bits (descWord k 3 s) 24 7) else none
def opMode (k : Nat) (s : State) : Nat := bits (descWord k 4 s) 0 2
def opFofs (k : Nat) (s : State) : Nat := bits (descWord k 4 s) 2 3
def opCflume (k : Nat) (s : State) : Option Nat :=
  if bit (descWord k 4 s) 15 then some (bits (descWord k 4 s) 8 7) else none
def opFlowBase (k : Nat) (s : State) : Nat := bits (descWord k 4 s) 16 12
def opNext (k : Nat) (s : State) : Option Nat :=
  if bit (descWord k 5 s) 15 then some (bits (descWord k 5 s) 0 10) else none
def opNextMask (k : Nat) (s : State) : Nat := bits (descWord k 5 s) 16 8
def opGraph (k : Nat) (s : State) : Nat := bits (descWord k 5 s) 24 8

/-- An operation is loaded when its descriptor names some core: R300 admits no descriptor whose CORES is 0. -/
def opLoaded (k : Nat) (s : State) : Bool := decide (k < 1024) && opCores k s != 0

/-- Graph g is enabled. -/
def graphOn (g : Nat) (s : State) : Bool := decide (g < 64) && bit (rd (MRC_GRAPH_EN (g / 32)) s) (g % 32)

/-! ### Items -/

def maxItems : Nat := 65536
def maxInboxes : Nat := 4096

def item? (q : Nat) (s : State) : Option Item := tfind q s.mrc.items

def setItem (q : Nat) (i : Item) (s : State) : State := { s with mrc := { s.mrc with items := tins q i s.mrc.items } }

/-- The serial of the item numbered n. -/
def itemNum (n : Nat) (s : State) : Option Nat := (s.mrc.items.find? (fun p => p.2.num == n)).map Prod.fst

def flowOf (f : Nat) (s : State) : Flow := tget {} f s.mrc.flows

def setFlow (f : Nat) (x : Flow) (s : State) : State := { s with mrc := { s.mrc with flows := tset {} f x s.mrc.flows } }

def freeItems (s : State) : Nat := maxItems - s.mrc.items.length

/-- The first number from p on, modulo n, that used does not hold; fuel is one more than the number used. -/
def pickFree (used : List Nat) (n : Nat) : Nat → Nat → Nat
  | 0, p => p % n
  | k + 1, p => if used.contains (p % n) then pickFree used n k (p + 1) else p % n

/-- READY order of a level. -/
def readyAt (l : Nat) (s : State) : List Nat := tget [] l s.mrc.ready

def setReady (l : Nat) (q : List Nat) (s : State) : State := { s with mrc := { s.mrc with ready := tset [] l q s.mrc.ready } }

/-- Affinity window in FRC ticks (AFF_WIN, units of 100 ns). -/
def affTicks (s : State) : Nat := 50 * rd MRC_CTRL_AFF_WIN s

/-- R296: the item of operation k on flow f is held for another core than n at this moment. -/
def affHeld (k f : Nat) (n : Option Nat) (s : State) : Bool :=
  let fl := flowOf f s
  opAffine k s && opPrio k s != 0 && fl.lastCore.isSome && n != fl.lastCore && decide (s.clk.frc - fl.lastEnd < affTicks s)

/-- Makes item q READY at the tail of its level. -/
def makeReady (q : Nat) (s : State) : State :=
  match item? q s with
  | none => s
  | some i =>
    let h := affHeld i.op i.flow none s
    let s := setItem q { i with st := .ready, readyAt := s.clk.frc, held := h } s
    let s := if h then count MRC_CNT_AFF_HOLD 1 s else s
    setReady (opPrio i.op s) (readyAt (opPrio i.op s) s ++ [q]) s

/-- The oldest item of flow f becomes READY when it waits and the flow is free (Table MRC-2). -/
def promote (f : Nat) (s : State) : State :=
  match s.mrc.items.find? (fun p => p.2.flow == f) with
  | some (q, i) => if i.st = .waiting ∧ (flowOf f s).holder = none then makeReady q s else s
  | none => s

/-- Posts an item (R290, R291): its serial. The caller has seen to it that an item is free. -/
def postItem (op f : Nat) (arg : Word) (src : ItemSrc) (inbox : Option Inbox) (s : State) : Nat × State :=
  let r := fresh s
  let s := r.2
  let used := s.mrc.items.map (fun p => p.2.num)
  let num := pickFree used maxItems (used.length + 1) (Config.itemNumber r.1)
  let q := s.mrc.nextSeq
  let i : Item := { num := num, op := op, flow := f, arg := arg, src := src, st := .waiting, inbox := inbox, core := none, readyAt := 0, held := false, waitLong := false }
  let s := { s with mrc := { s.mrc with items := tins q i s.mrc.items, nextSeq := q + 1 } }
  let s := count MRC_CNT_POSTED 1 s
  let s := if s.mrc.items.length = 58983 then raise 38 s else s
  (q, promote f s)

/-- An item is held in the completion record of Table MRC-6. -/
def completionRecord (i : Item) (status error : Nat) (result : Word) (lost : Bool) (s : State) : List Word :=
  [ BitVec.ofNat 64 (status + b2n lost * 2 ^ 8 + i.num * 2 ^ 16 + i.op * 2 ^ 32 + i.flow * 2 ^ 48),
    BitVec.ofNat 64 (error + (i.core.getD 0xFF) * 2 ^ 16 + claimTime s * 2 ^ 32),
    result ]

/-- The argument of a successor (R309). -/
def chainArg (status error : Nat) (result : Word) : Word :=
  if status = 0 then result else BitVec.ofNat 64 (error % 65536 + status * 65536)

/-- The successor that an ending item posts: R308, R310, R311. Returns CHAIN_LOST. -/
def chain (i : Item) (status error : Nat) (result : Word) (s : State) : Bool × State :=
  match opNext i.op s with
  | none => (false, s)
  | some k =>
    if !bit (opNextMask i.op s) status then (false, s)
    else if freeItems s = 0 then (true, raise 36 (count MRC_CNT_CHAIN_DROP 1 s))
    else (false, (postItem k i.flow (chainArg status error result) .chain none s).2)

/-- The counter of a completion status (R318). -/
def statusCount (status : Nat) : Fld :=
  match status with
  | 0 => MRC_CNT_DONE | 1 => MRC_CNT_FAILED | 2 => MRC_CNT_CANCELLED | _ => MRC_CNT_ABANDONED

/-- The completion record goes to CFLUME where that is valid (R318). -/
def writeRecord (i : Item) (rec : List Word) (s : State) : State :=
  match opCflume i.op s with
  | none => s
  | some f =>
    let r := pushRecord f rec s
    if r.1 then r.2 else raise 37 (count MRC_CNT_CREC_DROP 1 r.2)

/-- Ends item q with a status, an error and a result (Table MRC-2, R308, R318): it leaves with its inbox, its flow is released, its successor
is posted, its record written, and the next item of the flow becomes READY. -/
def endItem (q status error : Nat) (result : Word) (s : State) : State :=
  match item? q s with
  | none => s
  | some i =>
    let p := opPrio i.op s
    let s := { s with mrc := { s.mrc with items := tdel q s.mrc.items, done := if s.mrc.done.contains i.num then s.mrc.done else i.num :: s.mrc.done } }
    let s := setReady p ((readyAt p s).filter (· != q)) s
    let fl := flowOf i.flow s
    let fl := if fl.holder = some q then { fl with holder := none } else fl
    let fl := if i.st = .service then { fl with lastCore := i.core, lastEnd := s.clk.frc } else fl
    let s := setFlow i.flow fl s
    let s := count (statusCount status) 1 s
    let c := chain i status error result s
    let s := writeRecord i (completionRecord i status error result c.1 c.2) c.2
    promote i.flow s

/-- Cancels every WAITING and READY item that p picks, with an error (R314 to R316). -/
def cancelWhere (p : Item → Bool) (error : Nat) (s : State) : State :=
  ((s.mrc.items.filter (fun x => x.2.st != .service && p x.2)).map Prod.fst).foldl (fun s q => endItem q 2 error 0 s) s

/-- MRC_CMD_RES and event 43 MRC_CMD_DONE. -/
def mrcCmdDone (cmd status error : Nat) (s : State) : State := cmdRes 3 0 0x10 43 cmd status error s

def cancelFlow (f : Nat) (s : State) : State := mrcCmdDone 1 0 0 (cancelWhere (fun i => i.flow == f) 0x0305 s)
def cancelOp (k : Nat) (s : State) : State := mrcCmdDone 2 0 0 (cancelWhere (fun i => i.op == k) 0x0305 s)

def setGraph (g : Nat) (b : Bool) (s : State) : State :=
  wr (MRC_GRAPH_EN (g / 32)) (setBits (rd (MRC_GRAPH_EN (g / 32)) s) (g % 32) 1 (b2n b)) s

/-- Sets a graph's enable bit (R302). -/
def graphEnable (g : Nat) (s : State) : State := if g < 64 then setGraph g true s else s

/-- Clears a graph's enable bit: its waiting and ready items end CANCELLED with 0x0306 (R315). -/
def graphDisable (g : Nat) (s : State) : State :=
  if graphOn g s then
    let s := setGraph g false s
    cancelWhere (fun i => opGraph i.op s == g) 0x0306 s
  else s

/-- Clears MRC_CTRL.EN: every waiting and ready item ends CANCELLED with 0x0307 (R315). -/
def millraceOff (s : State) : State :=
  if on MRC_CTRL_EN s then
    raise 33 (wr MRC_STATUS_STATE 0 (cancelWhere (fun _ => true) 0x0307 (wr MRC_CTRL_EN 0 s)))
  else s

def millraceOn (s : State) : State :=
  if on MRC_CTRL_EN s then s else raise 33 (wr MRC_STATUS_STATE 1 (wr MRC_CTRL_EN 1 s))

/-- A write to an operation's descriptor: refused whole while its graph is enabled (R301). -/
def descriptorWrite (k w v : Nat) (s : State) : State :=
  if opLoaded k s && graphOn (opGraph k s) s then cfgRefuse 3 0 32 (0x8000 + 0x20 * k + 4 * w) s
  else wr (MRC_DESC k w) v s

/-! ### Event routes and timers (R312, R313, Table MRC-5) -/

/-- The argument of an event's or a timer's item: number, further occurrences, site time of the first in µs. -/
def occArg (n further site : Nat) : Word := BitVec.ofNat 64 (n + min further 255 * 256 + site / 1000 % 2 ^ 48 * 65536)

/-- One more occurrence in an argument (bits 15 to 8, saturating at 255). -/
def addOcc (n : Nat) (a : Word) : Word := BitVec.ofNat 64 (setBits a.toNat 8 8 (min (bits a.toNat 8 8 + n) 255))

/-- Posts the item of a route, or adds the occurrences to the one that still waits. times is the number of occurrences, site the time of the first. -/
def postRoute (src : ItemSrc) (n op f times site overrun : Nat) (s : State) : State :=
  match s.mrc.items.find? (fun p => p.2.src == src && p.2.st != .service) with
  | some (q, i) => raise overrun (count MRC_CNT_COALESCED times (setItem q { i with arg := addOcc times i.arg } s))
  | none =>
    if !on MRC_CTRL_EN s || !opLoaded op s || !graphOn (opGraph op s) s || freeItems s = 0 then
      raise 35 (count MRC_CNT_TRIG_DROP times s)
    else (postItem op f (occArg n (times - 1) site) src none s).2

/-- An event occurrence is offered to Millrace while MRC_EVT_e.EN is 1 (R312). -/
def offerEvent (e times site : Nat) (s : State) : State :=
  if on (MRC_EVT_EN e) s then postRoute (.event e) e (rd (MRC_EVT_OP e) s) (rd (MRC_EVT_FLOW e) s) times site 41 s else s

/-- Timer t expires: it posts, then advances by PERIOD µs or disarms (R313). -/
def timerExpiry (t : Nat) (s : State) : State :=
  let at_ := rd64 (MRC_TMR_AT_LO t) (MRC_TMR_AT_HI t) s
  if on (MRC_TMR_CTRL_EN t) s && s.clk.siteSet && decide (at_ ≤ siteNs s) && on MRC_CTRL_EN s && awake s then
    let s := postRoute (.timer t) t (rd (MRC_TMR_CTRL_OP t) s) (rd (MRC_TMR_CTRL_FLOW t) s) 1 (siteNs s) 40 s
    let per := rd (MRC_TMR_PER t) s
    if per = 0 then wr (MRC_TMR_CTRL_EN t) 0 s
    else wr64 (MRC_TMR_AT_LO t) (MRC_TMR_AT_HI t) (at_ + per * 1000) s
  else s

/-! ### Flume triggers (R303 to R307, Table MRC-4) -/

/-- The operation triggered by flume f. -/
def triggerOp (f : Nat) (s : State) : Option Nat :=
  (List.range 1024).find? (fun k => opLoaded k s && opTflume k s == some f)

/-- The flow Table MRC-4 gives for a record's first word. -/
def selectFlow (k : Nat) (w : Word) (s : State) : Nat :=
  let v := w.toNat
  let o := opFofs k s
  let half := bits v (8 * o) 16
  let d := match opMode k s with
    | 0 => 0
    | 1 => bits v (8 * o) 8
    | 2 => half % 4096
    | _ => if bit half 15 then half % 512 + 256 else half % 256
  (opFlowBase k s + d) % 4096

/-- First byte of an inbox. -/
def inboxAddr (slot : Nat) (s : State) : Nat := rd MRC_INBOX_ADDR s * 0x100000 + 256 * slot

def inboxesUsed (s : State) : List Nat := s.mrc.items.filterMap (fun p => p.2.inbox.map Inbox.slot)

/-- Fills a free inbox with words and posts an item that owns it. -/
def postInbox (k f : Nat) (arg : Word) (ws : List Word) (tags : List Nat) (s : State) : State :=
  let r := fresh s
  let s := r.2
  let used := inboxesUsed s
  let slot := pickFree used maxInboxes (used.length + 1) (Config.inboxNumber r.1)
  let s := memWrite (inboxAddr slot s) (bytesOf ws) 3 s
  (postItem k f arg .trigger (some { slot := slot, pos := 0, tags := tags }) s).2

/-- Tags of a whole record of n words. -/
def recordTags : Nat → List Nat
  | 0 => []
  | 1 => [1]
  | n + 2 => 0 :: recordTags (n + 1)

/-- Posts the item of a spill mark on FLOW_BASE (R307). -/
def postMark (k : Nat) (w : Word) (s : State) : State := raise 42 (postInbox k (opFlowBase k s) w [w] [2] s)

/-- Millrace may take from trigger flume f for operation k: running, the graph enabled, the flume granted (R302, R335). -/
def triggerReady (f k : Nat) (s : State) : Bool :=
  on MRC_CTRL_EN s && awake s && graphOn (opGraph k s) s && on (FLM_CFG_MRC f) s

/-- An inbox and an item are both free (R305, R310). INBOX_FULL is raised when a record first waits for want of an inbox. -/
def triggerRoom (f : Nat) (s : State) : Bool × State :=
  if maxInboxes ≤ (inboxesUsed s).length then
    if s.mrc.inboxFull.contains f then (false, s)
    else (false, raise 44 { s with mrc := { s.mrc with inboxFull := f :: s.mrc.inboxFull } })
  else if freeItems s ≤ rd MRC_RESERVE_RESERVE s then (false, s)
  else (true, { s with mrc := { s.mrc with inboxFull := s.mrc.inboxFull.filter (· != f) } })

/-- A whole record stands at the head of trigger flume f (R303, R305, R306). -/
def flumeTrigger (f : Nat) (s : State) : State :=
  match triggerOp f s, headRecord f s with
  | some k, some n =>
    if !triggerReady f k s then s
    else if 32 < n then raise 35 (report 0x030A f (count MRC_CNT_TRIG_DROP 1 (dropHead f n s)))
    else
      match triggerRoom f s with
      | (false, s) => s
      | (true, s) =>
        match takeRecord f n s with
        | (some ws, s) =>
          let w := ws.headD 0
          postInbox k (selectFlow k w s) w ws (recordTags ws.length) s
        | (none, s) => postMark k (markWord f true false 1 n) s
  | _, _ => s

/-- A spill mark stands at the head of trigger flume f (R307). -/
def triggerMark (f : Nat) (s : State) : State :=
  match triggerOp f s with
  | none => s
  | some k =>
    if !triggerReady f k s || flumeVisible f s = 0 || (flume f s).tags.headD 0 != 2 then s
    else
      match triggerRoom f s with
      | (false, s) => s
      | (true, s) => match popWord f s with | ((w, _), s) => postMark k w s

/-! ### Dispatch (R294 to R298, R263) -/

/-- The identity word of an item (Table ISA-11, MID). -/
def identity (i : Item) (s : State) : Word :=
  BitVec.ofNat 64 (i.num + i.flow * 2 ^ 16 + i.op * 2 ^ 32 + opPrio i.op s * 2 ^ 44)

/-- The core's region fields held for its next dispatch take effect (R289). -/
def commitRegions (n : Nat) (s : State) : State :=
  (List.range 16).foldl (fun s r =>
    [CCX_RGN_BASE_BASE n r, CCX_RGN_BASE_X n r, CCX_RGN_BASE_W n r, CCX_RGN_BASE_R n r, CCX_RGN_BASE_EN n r,
     CCX_RGN_LIMIT_LIMIT n r].foldl (fun s f => commitFld f s) s) s

/-- A core starts item q (R263): OP level at the operation's entry, its argument, identity, stack top and return stub in registers, all else cleared. -/
def startItem (n q : Nat) (i : Item) (s : State) : State :=
  let s := if s.held.isEmpty then s else commitRegions n s
  let c := (coreOf n s).syncClock s.clk.frc
  let sp := opStack i.op s + 16 * opStackSz i.op s * (n + 1)
  let c' : Core := { c with
    st := .op, pc := BitVec.ofNat 32 (opEntry i.op s),
    g := tset 0 1 i.arg (tset 0 2 (identity i s) (tset 0 30 (BitVec.ofNat 64 sp) (tset 0 31 0xFF00FFF0 []))),
    v := [], fpctl := 0, mhz := coreMhz s, item := some q, since := siteNs s, wait := none }
  let s := wr (CCX_CORE_STATUS_ITEM n) i.num (setCore n c' s)
  let lat := if i.held then 0 else min ((s.clk.frc - i.readyAt) * 2) 65535
  let s := setReady (opPrio i.op s) ((readyAt (opPrio i.op s) s).filter (· != q)) s
  let s := setItem q { i with st := .service, core := some n, held := false } s
  let s := setFlow i.flow { flowOf i.flow s with holder := some q } s
  let s := count MRC_CNT_DISPATCHED 1 s
  if rd MRC_LAT_MAX s < lat then wr MRC_LAT_MAX lat s else s

/-- The first item in READY order that core n may take. -/
def firstFor (n : Nat) (s : State) : Option (Nat × Item) :=
  ((List.range 8).flatMap (fun l => readyAt l s)).findSome? (fun q =>
    match item? q s with
    | some i => if bit (opCores i.op s) n && !affHeld i.op i.flow (some n) s then some (q, i) else none
    | none => none)

/-- One dispatch decision: every eligible idle core in ascending number (R294, R295). -/
def dispatch (s : State) : State :=
  if !on MRC_CTRL_EN s || !awake s then s
  else
    let s := [MRC_CTRL_WAIT_LIM, MRC_CTRL_AFF_WIN].foldl (fun s f => commitFld f s) s
    (List.range 16).foldl (fun s n =>
      if (coreOf n s).st = .idle ∧ coreEn n s = true then
        match firstFor n s with
        | some (q, i) => startItem n q i s
        | none => s
      else s) s

/-- The item numbered n leaves its affinity hold once the window has passed (R296). -/
def affinityRelease (n : Nat) (s : State) : State :=
  match itemNum n s with
  | none => s
  | some q =>
    match item? q s with
    | some i =>
      if i.held && i.st == .ready && !affHeld i.op i.flow none s then setItem q { i with held := false, readyAt := s.clk.frc } s else s
    | none => s

/-- WAIT_LONG for the item numbered n, once (R295). -/
def waitLong (n : Nat) (s : State) : State :=
  match itemNum n s with
  | none => s
  | some q =>
    match item? q s with
    | some i =>
      let lim := rd MRC_CTRL_WAIT_LIM s
      if i.st == .ready && !i.waitLong && lim != 0 && decide (ticksOfMs lim < s.clk.frc - i.readyAt) then
        raise 39 (count MRC_CNT_WAIT_LONG 1 (setItem q { i with waitLong := true } s))
      else s
    | none => s

end Sys2Proof.Machine
end

