-- ==== Sys2Proof/Machine/Evt.lean ====
section
/-!
DEFINITION. Sys2Proof/Machine/Evt.lean: EVT (18_events_errors_ledger.md): event occurrences (R559), error records (R563, R564), staging of
ledger records under load (R573 to R577), and the settling of everything a command has reported.
-/
namespace Sys2Proof.Machine

/-- Sets bit i of a run of 32-bit registers. -/
def setRunBit (f : Nat → Fld) (i : Nat) (b : Bool) (s : State) : State :=
  wr (f (i / 32)) (setBits (rd (f (i / 32)) s) (i % 32) 1 (b2n b)) s

/-! ### Staging (R570 to R577) -/

def stageSlots : Nat := 4096

def heldOf (cls : Nat) (s : State) : Nat := (s.evt.staged.filter (fun r => r.cls == cls)).length

def logLim (s : State) : Nat := 4 * rd EVT_CREDIT_LOG_LIM s
def traceLim (s : State) : Nat := 4 * rd EVT_CREDIT_TRACE_LIM s

/-- A slot outside the alarm reserve is free: alarms fill the reserve first. -/
def openSlot (s : State) : Bool :=
  decide (heldOf 2 s + heldOf 1 s + (heldOf 3 s - rd EVT_CREDIT_ALARM_RES s) < stageSlots - rd EVT_CREDIT_ALARM_RES s)

/-- The first loss after a period free of loss raises LEDGER_PRESSURE (Table EVT-1). -/
def lossBegins (s : State) : State :=
  if s.evt.lossy then s else raise 5 { s with evt := { s.evt with lossy := true } }

/-- Adds one lost record to the tally of its source (R573, R574). -/
def addTally (source : Nat) (first last n : Nat) : List Tally → List Tally
  | [] => [{ source := source, cls := 2, count := n, first := first, last := last }]
  | t :: ts => if t.source = source then { t with count := t.count + n, last := last } :: ts else t :: addTally source first last n ts

/-- A log goes into its source's coalescing tally. -/
def coalesceLog (source first last : Nat) (s : State) : State :=
  lossBegins (count EVT_CNT_LOG_COALESCED 1 { s with evt := { s.evt with tallies := addTally source first last 1 s.evt.tallies } })

/-- A trace is dropped or evicted into the trace-loss tally (R575). -/
def dropTrace (first last : Nat) (s : State) : State :=
  let t : Tally := match s.evt.traceTally with
    | some t => { t with count := t.count + 1, last := last }
    | none => { source := 0xFFFF, cls := 1, count := 1, first := first, last := last }
  lossBegins (count EVT_CNT_TRACE_DROP 1 { s with evt := { s.evt with traceTally := some t } })

/-- Removes the oldest staged record of a class. -/
def takeOldest (cls : Nat) : List LRec → Option LRec × List LRec
  | [] => (none, [])
  | r :: t => if r.cls = cls then (some r, t) else let x := takeOldest cls t; (x.1, r :: x.2)

/-- Evicts the oldest staged trace (R573, R574). -/
def evictTrace (s : State) : State :=
  match takeOldest 1 s.evt.staged with
  | (some r, l) => dropTrace r.site r.last { s with evt := { s.evt with staged := l } }
  | (none, _) => s

/-- The counter of the class a record is staged with. -/
def classCount (cls : Nat) : Fld := match cls with | 3 => EVT_CNT_ALARM | 2 => EVT_CNT_LOG | _ => EVT_CNT_TRACE

/-- Puts a record into a free slot under the next SEQ (R570); EVT's S-class fields commit here (R580). -/
def putStaged (cls kind source error : Nat) (data : List Byte) (s : State) : State :=
  let r : LRec := { seq := s.evt.seq, site := siteNs s, cls := cls, kind := kind, source := source, error := error, rep := 0, last := siteNs s, cycle := cycleNo s, data := data, stagedAt := s.clk.frc }
  let s := { s with evt := { s.evt with staged := s.evt.staged ++ [r], seq := s.evt.seq + 1 } }
  let s := [EVT_CTRL_PAGE_MS, EVT_CREDIT_ALARM_RES, EVT_CREDIT_LOG_LIM, EVT_CREDIT_TRACE_LIM].foldl (fun s f => commitFld f s) s
  let s := count (classCount cls) 1 s
  if cls = 3 then raise 7 s else s

def tallyData (t : Tally) : List Byte :=
  leBytes 1 t.cls ++ leBytes 3 0 ++ leBytes 4 t.count ++ leBytes 8 t.first ++ leBytes 8 t.last

/-- A log may be staged without loss: below LOG_LIM with an open slot, or with a trace to evict (R574). -/
def logFits (s : State) : Bool := decide (heldOf 2 s < logLim s) && (openSlot s || heldOf 1 s != 0)

def traceFits (s : State) : Bool := decide (heldOf 1 s < traceLim s) && openSlot s

/-- Stages the summaries of the log tallies, oldest first, while a log may be staged (R576); fuel is the number of tallies. -/
def drainLogs : Nat → State → State
  | 0, s => s
  | n + 1, s =>
    match s.evt.tallies with
    | [] => s
    | t :: ts =>
      if logFits s then
        let s := { s with evt := { s.evt with tallies := ts } }
        let s := if openSlot s then s else evictTrace s
        drainLogs n (putStaged 2 3 t.source 0 (tallyData t) s)
      else s

/-- Stages the summary of the trace-loss tally once a trace may be staged (R576). -/
def drainTraces (s : State) : State :=
  match s.evt.traceTally with
  | none => s
  | some t =>
    if traceFits s then
      putStaged 1 3 0xFFFF 0 (tallyData t) { s with evt := { s.evt with traceTally := none } }
    else s

/-- The summaries due, and the end of a period of loss once no tally is left. -/
def drainTallies (s : State) : State :=
  let s := drainTraces (drainLogs s.evt.tallies.length s)
  if s.evt.tallies.isEmpty && s.evt.traceTally.isNone then { s with evt := { s.evt with lossy := false } } else s

/-- Merges an alarm into the staged alarm of the same SOURCE and ERROR (R573). -/
def mergeAlarm (source error now : Nat) : List LRec → List LRec
  | [] => []
  | r :: t =>
    if r.cls = 3 ∧ r.source = source ∧ r.error = error then { r with rep := min (r.rep + 1) 65535, last := now } :: t
    else r :: mergeAlarm source error now t

/-- An arriving alarm (R573). -/
def stageAlarm (kind source error : Nat) (data : List Byte) (s : State) : State :=
  let s := { s with stw := { s.stw with alarms := min (s.stw.alarms + 1) 0xFFFFFFFF } }
  if s.evt.staged.length < stageSlots then putStaged 3 kind source error data s
  else if heldOf 1 s ≠ 0 then putStaged 3 kind source error data (evictTrace s)
  else
    match takeOldest 2 s.evt.staged with
    | (some r, l) => putStaged 3 kind source error data (coalesceLog r.source r.site r.last { s with evt := { s.evt with staged := l } })
    | (none, _) =>
      count EVT_CNT_ALARM_MERGED 1 { s with evt := { s.evt with staged := mergeAlarm source error (siteNs s) s.evt.staged } }

/-- An arriving log (R574, R576). -/
def stageLog (kind source error : Nat) (data : List Byte) (s : State) : State :=
  let s := drainLogs s.evt.tallies.length s
  if logFits s then
    putStaged 2 kind source error data (if openSlot s then s else evictTrace s)
  else coalesceLog source (siteNs s) (siteNs s) s

/-- An arriving trace (R575, R576). -/
def stageTrace (kind source error : Nat) (data : List Byte) (s : State) : State :=
  let s := drainTraces s
  if traceFits s then putStaged 1 kind source error data s else dropTrace (siteNs s) (siteNs s) s

/-- A record of a class arrives at the staging ring. -/
def stage (cls kind source error : Nat) (data : List Byte) (s : State) : State :=
  let s := match cls with
    | 3 => stageAlarm kind source error data s
    | 2 => stageLog kind source error data s
    | 1 => stageTrace kind source error data s
    | _ => s
  if s.evt.tallies.isEmpty && s.evt.traceTally.isNone then { s with evt := { s.evt with lossy := false } } else s

/-! ### Occurrences and errors -/

/-- Holds an occurrence for Ready entry (R587). -/
def holdEvent (e : Nat) (s : State) : State :=
  let h := tget {} e s.evt.heldEvts
  let h' : HeldEvt := { count := h.count + 1, first := if h.count = 0 then siteNs s else h.first }
  { s with evt := { s.evt with heldEvts := tset {} e h' s.evt.heldEvts } }

/-- Event e occurs: pended, counted, offered to Millrace, and ledgered with its route's class, or as an alarm where a rule calls for one
(R559, R571, R587). -/
def occur (e : Nat) (alarm : Bool) (s : State) : State :=
  if !on EVT_CTRL_EN s then s
  else
    let s := setRunBit EVT_PEND e true s
    let s := count (EVT_COUNT e) 1 s
    let s := if inWatch s then holdEvent e s else offerEvent e 1 (siteNs s) s
    let cls := if alarm then 3 else rd (EVT_ROUTE_CLASS e) s
    stage cls 1 e 0 (leBytes 4 (rd (EVT_COUNT e) s) ++ leBytes 20 0) s

/-- The three words of an error record (Table EVT-3). -/
def errWords (code detail : Nat) (s : State) : List Nat :=
  [code * 65536 + detail % 65536, siteNs s % 2 ^ 32, siteNs s / 2 ^ 32]

/-- Fills block n's primary or secondary error record, or counts the overflow, whose first occurrence raises ERR_OVF (R563). -/
def fillErr (n code detail : Nat) (s : State) : State :=
  let put3 (w : Nat) (s : State) : State :=
    (errWords code detail s).zipIdx.foldl (fun s p => wr (EVT_ERR n (w + p.2)) p.1 s) s
  if rd (EVT_ERR n 0) s / 65536 = 0 then put3 0 s
  else if rd (EVT_ERR n 3) s / 65536 = 0 then put3 3 s
  else
    let first := rd (EVT_ERR n 6) s = 0
    let s := count (EVT_ERR n 6) 1 s
    if first then raise 4 s else s

/-- An error of block n that no completion record carries: its records, and a log of KIND ERROR (R562), or an alarm where a rule calls for one. -/
def errorOf (n code detail : Nat) (alarm : Bool) (s : State) : State :=
  let d := (errWords code detail s).flatMap (fun w => leBytes 4 w)
  stage (if alarm then 3 else 2) 2 (0x100 + n) code (d ++ leBytes 12 0) (fillErr n code detail s)

/-- Empties both records and the overflow count of block n (R564). -/
def clearErr (n : Nat) (s : State) : State :=
  let s := (List.range 7).foldl (fun s w => wr (EVT_ERR n w) 0 s) s
  if n = 5 then memClear s else s

/-- EVT takes one report. -/
def takeNote (x : Note) (s : State) : State :=
  match x with
  | .event e a => occur e a s
  | .error n code detail alarm => errorOf n code detail alarm s
  | .record cls kind source error data => stage cls kind source error data s

/-- EVT takes what the running command has reported, then what taking it has raised, three deep; what a third round would still raise
(an event route that reports itself) is not followed further. -/
def settleN : Nat → State → State
  | 0, s => { s with notes := [] }
  | n + 1, s =>
    match s.notes with
    | [] => s
    | ns => settleN n (ns.foldl (fun s x => takeNote x s) { s with notes := [] })

def settle (s : State) : State := settleN 3 s

/-- The outcome of a command with effect f: nothing on a medium yet, then the effect, then what it reported taken by EVT, then, in a cascade the claim changes that go to other members, and on the active of a pair the mirror records of what has changed (R478). -/
def run (f : State → State) (s : State) : Host.Outcome State Fault Refusal :=
  .next (mirrorSend s (cascadeSend s (settle (f { s with out := [] }))))

end Sys2Proof.Machine
end

