-- ==== Sys2Proof/Machine/Motion.lean ====
section
/-!
DEFINITION. Sys2Proof/Machine/Motion.lean: the jerk-limited generator of 05_motion_profiles.md (R142, R143, Table PRO-8) in exact whole
numbers. With N ticks to the second, acceleration counts 1/N mm/s², speed 1/(2 N²) mm/s and distance 1/(6 N³) mm (a limit of D mm/s² is N D units, a jerk of J mm/s³ changes acceleration by J units a tick), so that a tick at any
whole jerk moves all three by whole numbers; "mm" reads as "axis step" on an axis.
-/
namespace Sys2Proof.Machine

/-- Distance units in 1/16 mm at 1,000 ticks/s, and speed units in 1/16 mm/s. -/
def fineSt : Int := 375000000
def fineV : Int := 125000

/-- Speed lost while a deceleration b is brought to 0 at j per tick (gained, when b is an acceleration below 0). -/
def endLoss (j : Nat) (b : Int) : Int :=
  let c := b.natAbs
  let n := (c - 1) / (max j 1)
  let l : Int := c + 2 * n * c - j * n * (n + 1)
  if b < 0 then -l else l

/-- The greatest x from lo to hi with p x, by bisection; p holds up to some x and fails above it, and is taken to hold at lo. -/
def greatest (p : Int → Bool) : Nat → Int → Int → Int
  | 0, lo, _ => lo
  | n + 1, lo, hi =>
    if hi ≤ lo then lo
    else if p hi then hi
    else
      let mid := (lo + hi) / 2
      if mid = lo then lo
      else if p mid then greatest p n mid (hi - 1) else greatest p n lo (mid - 1)

/-- The greatest next deceleration from b, at most d and changed by at most j, that still ends at 0 with no more than room lost. -/
def nextDecel (d j : Nat) (b room : Int) : Int :=
  greatest (fun x => decide (x + endLoss j x ≤ room)) 40 (b - j) (min d (b + j))

/-- The acceleration at the end of the tick that steers speed v, acceleration a toward speed vt under limits am, d and j (phases 1 to 7). -/
def steerTo (am d j : Nat) (v a vt : Int) : Int :=
  let vz := v + endLoss j a
  if vt < vz then -(nextDecel d j (-a) (v - vt + a))
  else if vz < vt then nextDecel am j a (vt - v - a)
  else if 0 < a then max (a - j) 0 else min (a + j) 0

/-- A plan's state: speed and acceleration. -/
structure Kin where
  v : Int
  a : Int
  deriving DecidableEq, Repr

/-- One tick with the acceleration going from a to a2, linear: the state after it and the distance covered (R142). -/
def tickKin (k : Kin) (a2 : Int) : Kin × Int := ({ v := k.v + k.a + a2, a := a2 }, 3 * k.v + 2 * k.a + a2)

/-- Distance of phases 5 to 7 from a state to speed vt without acceleration; none when the limits cannot bring it there. -/
def rampDistN (d j : Nat) (vt : Int) : Nat → Kin → Int → Option Int
  | 0, _, _ => none
  | n + 1, k, x =>
    let vz := k.v + endLoss j k.a
    if k.v ≤ vt ∧ vz ≤ vt then some x
    else
      let a2 := if vt < vz then -(nextDecel d j (-k.a) (k.v - vt + k.a)) else min (k.a + j) 0
      let r := tickKin k a2
      rampDistN d j vt n r.1 (x + r.2)

def rampDist (d j : Nat) (vt : Int) (k : Kin) : Option Int :=
  if k.v ≤ vt ∧ k.v + endLoss j k.a ≤ vt then some 0
  else if d = 0 ∨ j = 0 then none
  else rampDistN d j vt ((k.v - vt).natAbs + k.a.natAbs + 64) k 0

/-- A ramp to vt ends within distance x. -/
def rampFits (d j : Nat) (vt : Int) (k : Kin) (x : Int) : Bool :=
  match rampDist d j vt k with | some y => decide (y ≤ x) | none => false

/-- Distance covered in n ticks of steering to speed vc. -/
def runFor (am d j : Nat) (vc : Int) : Nat → Kin → Int → Int
  | 0, _, x => x
  | n + 1, k, x =>
    if k.v = vc ∧ k.a = 0 then x + 3 * vc * (n + 1)
    else
      let r := tickKin k (steerTo am d j k.v k.a vc)
      runFor am d j vc n r.1 (x + r.2)

/-- plan_tick: the acceleration at the end of the tick. Each target is a distance ahead and the speed allowed there; where steering to vc would
leave some target out of reach of a ramp, the tick ramps toward it instead. -/
def planTick (am d j : Nat) (targets : List (Int × Int)) (vc : Int) (k : Kin) : Int :=
  let a2 := steerTo am d j k.v k.a vc
  let r := tickKin k a2
  match targets.find? (fun t => !rampFits d j t.2 r.1 (t.1 - r.2)) with
  | none => a2
  | some t =>
    let vz := k.v + endLoss j k.a
    if t.2 < vz then -(nextDecel d j (-k.a) (k.v - t.2 + k.a)) else if 0 < k.a then max (k.a - j) 0 else min (k.a + j) 0

/-- Phase of Table PRO-8 of a tick from state k with acceleration a2 at its end; 0 at rest. -/
def phaseOf (k : Kin) (a2 : Int) : Nat :=
  if k.a = 0 ∧ a2 = 0 then (if k.v = 0 then 0 else 4)
  else if a2 < 0 ∨ k.a < 0 then (if a2 < k.a then 5 else if a2 = k.a then 6 else 7)
  else if k.a < a2 then 1 else if a2 = k.a then 2 else 3

def atRest (k : Kin) : Bool := k.v == 0 && k.a == 0

end Sys2Proof.Machine
end

