-- ==== Sys2Proof/Machine/Chan.lean ====
section
/-!
DEFINITION. Sys2Proof/Machine/Chan.lean: PRO's channels as the other blocks meet them (05_motion_profiles.md): opening and closing, completion
records (R136), dropping what a cut takes from a queue (R135), holds and stops (Table PRO-11).
-/
namespace Sys2Proof.Machine

def chan? (n : Nat) (s : State) : Option Chan := tfind n s.pro.chans

def setChan (n : Nat) (c : Chan) (s : State) : State := { s with pro := { s.pro with chans := tins n c s.pro.chans } }

/-- State of a fleet index; none is FREE. -/
def idxState (m : Nat) (s : State) : Option IdxSt := (tfind m s.air.idx).map Idx.st

def isMember (m : Nat) (s : State) : Bool := idxState m s == some .member

/-- Number of this module in an owner: its member number in a cascade, else 0. -/
def ownModule (s : State) : Nat := if on CAS_CTRL_EN s && rd CAS_CTRL_ROLE s != 0 then rd CAS_CTRL_MEMBER s else 0

/-- Owner number of this module's fleet index m. -/
def ownerOf (m : Nat) (s : State) : Nat := 256 * ownModule s + m

/-- Table PRO-6. -/
def proDone (status kind chn tag error index : Nat) (s : State) : State :=
  let rec_ : List Word := [
    BitVec.ofNat 64 (status + 2 ^ 8 * kind + 2 ^ 16 * chn + 2 ^ 32 * tag),
    BitVec.ofNat 64 (error + 2 ^ 16 * index + 2 ^ 32 * claimTime s)]
  let r := pushRecord (rd PRO_FLUME_RES s) rec_ s
  if r.1 then r.2 else raise 108 (count PRO_CNT_RES_DROP 1 r.2)

def segDone (n : Nat) (g : Seg) (status error : Nat) (s : State) : State := proDone status 2 n g.tag error g.index s

/-- The limits of a channel as its registers give them, clamped by R154 where it is a machine's: A, D, J, D_STOP and J_STOP. -/
def regLimits (n : Nat) (s : State) : Nat × Nat × Nat × Nat × Nat :=
  let c := fun (x m : Nat) => if n < 256 then min x m else x
  (c (rd (PRO_CH_ACC_A_MAX n) s) 4094, c (rd (PRO_CH_ACC_D_MAX n) s) 4094, c (rd (PRO_CH_JERK_J_MAX n) s) 32752,
   c (rd (PRO_CH_STOP_D_STOP n) s) 4094, c (rd (PRO_CH_STOP_J_STOP n) s) 32752)

/-- Opens a machine channel (R125), or an axis channel, at rest and IDLE. -/
def openChan (n : Nat) (s : State) : State :=
  match chan? n s with
  | some _ => s
  | none =>
    let l := regLimits n s
    setChan n { aUse := l.1, dUse := l.2.1, jUse := l.2.2.1, dsUse := l.2.2.2.1, jsUse := l.2.2.2.2 } s

/-- Closes a machine channel: every queued segment ends CANCELLED (R125). -/
def closeChan (n : Nat) (s : State) : State :=
  match chan? n s with
  | none => s
  | some c =>
    let s := c.queue.foldl (fun s g => segDone n g 2 0 s) s
    { s with pro := { s.pro with chans := tdel n s.pro.chans } }

/-- Brings a channel to rest in HOLD; a STOP stays a STOP (Table PRO-11). -/
def holdChan (n : Nat) (s : State) : State :=
  match chan? n s with
  | some c => if c.mode = .stop then s else setChan n { c with mode := .hold } s
  | none => s

def sg (dir : Nat) : Int := if dir = 0 then 1 else -1

/-- What remains of a queued segment of claim k after the claim has become c (none: released or CUT_HELD): none when nothing lies ahead of the station at. -/
def cutSeg (c : Option Claim) (start : Int) (g : Seg) : Option Seg :=
  match c with
  | none => none
  | some c =>
    if 0 < (g.to_ - c.to_) * sg g.dir then
      if (c.to_ * fineSt - start) * sg g.dir ≤ 0 then none else some { g with to_ := c.to_ }
    else some g

/-- The queue of channel n after claim k has become c (R135): completed CANCELLED with 0x090A where nothing remains; first says that the segment at the head is the present one. -/
def cutQueue (n k : Nat) (c : Option Claim) (at_ : Option Int) : List Seg → State → List Seg × State
  | [], s => ([], s)
  | g :: t, s =>
    if g.claim ≠ k then
      let r := cutQueue n k c none t s
      (g :: r.1, r.2)
    else
      let start := match at_ with
        | some x => if 0 < (x - g.from_ * fineSt) * sg g.dir then x else g.from_ * fineSt
        | none => g.from_ * fineSt
      match cutSeg c start g with
      | some g' => let r := cutQueue n k c none t s; (g' :: r.1, r.2)
      | none => cutQueue n k c none t (segDone n g 2 0x090A s)

/-- CLM has cut or released claim k of owner o (R135, R147). -/
def claimCut (k o : Nat) (s : State) : State :=
  if o / 256 ≠ ownModule s then s
  else
    let n := o % 256
    match chan? n s with
    | none => s
    | some ch =>
      let c := match tfind k s.clm.claims with
        | some c => if c.st = .cutHeld then none else some c
        | none => none
      let at_ := match ch.queue with
        | g :: _ => if some g.reach = ch.reach then some ch.st else none
        | [] => none
      let r := cutQueue n k c at_ ch.queue s
      setChan n { ch with queue := r.1, cut := true } r.2

end Sys2Proof.Machine
end

