-- ==== Sys2Proof/Machine/Crypto.lean ====
section
/-!
DEFINITION. Sys2Proof/Machine/Crypto.lean: the algorithms the spec names by their standards: AES (FIPS 197), CCM, CMAC and GCM (SP 800-38C, B, D),
SHA-256, HMAC and HKDF (RFC 5869), AES key wrap with padding (RFC 5649), and the CRCs. Byte strings are lists of bytes; a block is a list of sixteen numbers.
-/
namespace Sys2Proof.Machine

/-! ### AES -/

/-- The substitution table of AES (FIPS 197). -/
def aesSbox : List Nat :=
  [99, 124, 119, 123, 242, 107, 111, 197, 48, 1, 103, 43, 254, 215, 171, 118] ++
  [202, 130, 201, 125, 250, 89, 71, 240, 173, 212, 162, 175, 156, 164, 114, 192] ++
  [183, 253, 147, 38, 54, 63, 247, 204, 52, 165, 229, 241, 113, 216, 49, 21] ++
  [4, 199, 35, 195, 24, 150, 5, 154, 7, 18, 128, 226, 235, 39, 178, 117] ++
  [9, 131, 44, 26, 27, 110, 90, 160, 82, 59, 214, 179, 41, 227, 47, 132] ++
  [83, 209, 0, 237, 32, 252, 177, 91, 106, 203, 190, 57, 74, 76, 88, 207] ++
  [208, 239, 170, 251, 67, 77, 51, 133, 69, 249, 2, 127, 80, 60, 159, 168] ++
  [81, 163, 64, 143, 146, 157, 56, 245, 188, 182, 218, 33, 16, 255, 243, 210] ++
  [205, 12, 19, 236, 95, 151, 68, 23, 196, 167, 126, 61, 100, 93, 25, 115] ++
  [96, 129, 79, 220, 34, 42, 144, 136, 70, 238, 184, 20, 222, 94, 11, 219] ++
  [224, 50, 58, 10, 73, 6, 36, 92, 194, 211, 172, 98, 145, 149, 228, 121] ++
  [231, 200, 55, 109, 141, 213, 78, 169, 108, 86, 244, 234, 101, 122, 174, 8] ++
  [186, 120, 37, 46, 28, 166, 180, 198, 232, 221, 116, 31, 75, 189, 139, 138] ++
  [112, 62, 181, 102, 72, 3, 246, 14, 97, 53, 87, 185, 134, 193, 29, 158] ++
  [225, 248, 152, 17, 105, 217, 142, 148, 155, 30, 135, 233, 206, 85, 40, 223] ++
  [140, 161, 137, 13, 191, 230, 66, 104, 65, 153, 45, 15, 176, 84, 187, 22]

/-- The round constants of SHA-256 (FIPS 180-4). -/
def shaK : List Nat :=
  [0x428a2f98, 0x71374491, 0xb5c0fbcf, 0xe9b5dba5, 0x3956c25b, 0x59f111f1, 0x923f82a4, 0xab1c5ed5] ++
  [0xd807aa98, 0x12835b01, 0x243185be, 0x550c7dc3, 0x72be5d74, 0x80deb1fe, 0x9bdc06a7, 0xc19bf174] ++
  [0xe49b69c1, 0xefbe4786, 0x0fc19dc6, 0x240ca1cc, 0x2de92c6f, 0x4a7484aa, 0x5cb0a9dc, 0x76f988da] ++
  [0x983e5152, 0xa831c66d, 0xb00327c8, 0xbf597fc7, 0xc6e00bf3, 0xd5a79147, 0x06ca6351, 0x14292967] ++
  [0x27b70a85, 0x2e1b2138, 0x4d2c6dfc, 0x53380d13, 0x650a7354, 0x766a0abb, 0x81c2c92e, 0x92722c85] ++
  [0xa2bfe8a1, 0xa81a664b, 0xc24b8b70, 0xc76c51a3, 0xd192e819, 0xd6990624, 0xf40e3585, 0x106aa070] ++
  [0x19a4c116, 0x1e376c08, 0x2748774c, 0x34b0bcb5, 0x391c0cb3, 0x4ed8aa4a, 0x5b9cca4f, 0x682e6ff3] ++
  [0x748f82ee, 0x78a5636f, 0x84c87814, 0x8cc70208, 0x90befffa, 0xa4506ceb, 0xbef9a3f7, 0xc67178f2]

/-- The initial hash value of SHA-256. -/
def shaH : List Nat :=
  [0x6a09e667, 0xbb67ae85, 0x3c6ef372, 0xa54ff53a, 0x510e527f, 0x9b05688c, 0x1f83d9ab, 0x5be0cd19]

/-- Doubling in the field of AES. -/
def xtime (a : Nat) : Nat := if a < 128 then 2 * a else (2 * a - 256) ^^^ 0x1b

/-- Multiplication in the field of AES, over the low n bits of b. -/
def gfMul : Nat → Nat → Nat → Nat
  | 0, _, _ => 0
  | n + 1, a, b => (if b % 2 = 1 then a else 0) ^^^ gfMul n (xtime a) (b / 2)

def xorL (a b : List Nat) : List Nat := List.zipWith (· ^^^ ·) a b

def subByte (b : Nat) : Nat := aesSbox.getD b 0

def invSubByte (b : Nat) : Nat := (aesSbox.idxOf b) % 256

/-- Key expansion: the words written so far (newest first), to n more words. -/
def aesExpand (nk : Nat) : Nat → Nat → Nat → List (List Nat) → List (List Nat)
  | 0, _, _, ws => ws.reverse
  | n + 1, i, rcon, ws =>
    let t := ws.headD []
    let far := ws.getD (nk - 1) []
    if i % nk = 0 then
      let r := (t.drop 1 ++ t.take 1).map subByte
      let r := (r.headD 0 ^^^ rcon) :: r.drop 1
      aesExpand nk n (i + 1) (xtime rcon) (xorL far r :: ws)
    else if 6 < nk ∧ i % nk = 4 then aesExpand nk n (i + 1) rcon (xorL far (t.map subByte) :: ws)
    else aesExpand nk n (i + 1) rcon (xorL far t :: ws)

/-- The four-byte groups of a list; n bounds them. -/
def chunks (k : Nat) : Nat → List Nat → List (List Nat)
  | 0, _ => []
  | _ + 1, [] => []
  | n + 1, l => l.take k :: chunks k n (l.drop k)

/-- The round keys of a key of 16 or 32 bytes. -/
def aesKeys (key : List Nat) : List (List Nat) :=
  let nk := key.length / 4
  let ws := aesExpand nk (4 * (nk + 7) - nk) nk 1 (chunks 4 nk key).reverse
  chunks 16 (nk + 7) ws.flatten

def mixCol (c : List Nat) : List Nat :=
  match c with
  | [a, b, d, e] =>
    [xtime a ^^^ xtime b ^^^ b ^^^ d ^^^ e, a ^^^ xtime b ^^^ xtime d ^^^ d ^^^ e, a ^^^ b ^^^ xtime d ^^^ xtime e ^^^ e, xtime a ^^^ a ^^^ b ^^^ d ^^^ xtime e]
  | _ => c

def invMixCol (c : List Nat) : List Nat :=
  let row := fun (m : List Nat) => (List.zipWith (fun k x => gfMul 8 x k) m c).foldl (· ^^^ ·) 0
  [row [14, 11, 13, 9], row [9, 14, 11, 13], row [13, 9, 14, 11], row [11, 13, 9, 14]]

def shiftRows (b : List Nat) : List Nat := (List.range 16).map (fun i => b.getD ((5 * i) % 16) 0)

def invShiftRows (b : List Nat) : List Nat := (List.range 16).map (fun i => b.getD ((13 * i) % 16) 0)

def mixCols (b : List Nat) : List Nat := ((chunks 4 4 b).map mixCol).flatten
def invMixCols (b : List Nat) : List Nat := ((chunks 4 4 b).map invMixCol).flatten

/-- The rounds after the first key addition. -/
def aesRounds : List (List Nat) → List Nat → List Nat
  | [], b => b
  | [k], b => xorL k (shiftRows (b.map subByte))
  | k :: ks, b => aesRounds ks (xorL k (mixCols (shiftRows (b.map subByte))))

def aesInvRounds : List (List Nat) → List Nat → List Nat
  | [], b => b
  | [k], b => xorL k ((invShiftRows b).map invSubByte)
  | k :: ks, b => aesInvRounds ks (invMixCols (xorL k ((invShiftRows b).map invSubByte)))

/-- AES encryption of a block under round keys. -/
def aesBlock (ks : List (List Nat)) (b : List Nat) : List Nat :=
  match ks with
  | [] => b
  | k :: t => aesRounds t (xorL k b)

/-- AES decryption of a block. -/
def aesInvBlock (ks : List (List Nat)) (b : List Nat) : List Nat :=
  match ks.reverse with
  | [] => b
  | k :: t => aesInvRounds t (xorL k b)

def nums (l : List Byte) : List Nat := l.map BitVec.toNat
def octets (l : List Nat) : List Byte := l.map (BitVec.ofNat 8)

/-- l cut into blocks of sixteen, the last filled with zeros. -/
def blocks (l : List Nat) : List (List Nat) :=
  (chunks 16 l.length l).map (fun b => b ++ List.replicate (16 - b.length) 0)

/-! ### CMAC and CCM -/

def dbl128 (b : List Nat) : List Nat :=
  let v := b.foldl (fun a x => 256 * a + x) 0
  let w := if v < 2 ^ 127 then 2 * v else (2 * v - 2 ^ 128) ^^^ 0x87
  nums (beBytes 16 w)

/-- AES-CMAC. -/
def cmac (key msg : List Byte) : List Byte :=
  let ks := aesKeys (nums key)
  let l := aesBlock ks (List.replicate 16 0)
  let m := nums msg
  let n := (m.length - 1) / 16
  let last := m.drop (16 * n)
  let fin := if last.length = 16 then xorL last (dbl128 l)
    else xorL (last ++ [128] ++ List.replicate (15 - last.length) 0) (dbl128 (dbl128 l))
  octets ((chunks 16 n (m.take (16 * n)) ++ [fin]).foldl (fun x b => aesBlock ks (xorL x b)) (List.replicate 16 0))

/-- The CBC-MAC of CCM with a tag of t bytes and a 13-byte nonce, before it is encrypted. -/
def ccmMac (ks : List (List Nat)) (t : Nat) (nonce ad msg : List Nat) : List Nat :=
  let b0 := [(if ad.isEmpty then 0 else 64) + 8 * ((t - 2) / 2) + 1] ++ nonce ++ nums (beBytes 2 msg.length)
  let a := if ad.isEmpty then [] else blocks (nums (beBytes 2 ad.length) ++ ad)
  ((b0 :: a) ++ blocks msg).foldl (fun x b => aesBlock ks (xorL x b)) (List.replicate 16 0)

def ccmCtr (ks : List (List Nat)) (nonce : List Nat) (i : Nat) : List Nat := aesBlock ks ([1] ++ nonce ++ nums (beBytes 2 i))

/-- The counter-mode stream over a message, which both encrypts and decrypts. -/
def ccmCrypt (ks : List (List Nat)) (nonce msg : List Nat) : List Nat :=
  ((chunks 16 msg.length msg).zipIdx.map (fun p => xorL p.1 (ccmCtr ks nonce (p.2 + 1)))).flatten

/-- AES-CCM with a tag of t bytes: the encrypted payload and the tag. -/
def ccmSeal (t : Nat) (key nonce ad msg : List Byte) : List Byte × List Byte :=
  let ks := aesKeys (nums key)
  let n := nums nonce
  (octets (ccmCrypt ks n (nums msg)), octets ((xorL (ccmMac ks t n (nums ad) (nums msg)) (ccmCtr ks n 0)).take t))

/-- Opens an AES-CCM message: the payload, when the tag holds. -/
def ccmOpen (t : Nat) (key nonce ad ct tag : List Byte) : Option (List Byte) :=
  let ks := aesKeys (nums key)
  let n := nums nonce
  let msg := ccmCrypt ks n (nums ct)
  if octets ((xorL (ccmMac ks t n (nums ad) msg) (ccmCtr ks n 0)).take t) = tag then some (octets msg) else none

/-! ### GCM -/

/-- Product in the field of GHASH, over n bits of y from bit 127 down. -/
def ghashMul : Nat → Nat → Nat → Nat
  | 0, _, _ => 0
  | n + 1, y, v =>
    (if bit y n then v else 0) ^^^ ghashMul n y (if v % 2 = 1 then (v / 2) ^^^ (0xe1 * 2 ^ 120) else v / 2)

def ofBlock (b : List Nat) : Nat := b.foldl (fun a x => 256 * a + x) 0

/-- The tag of AES-GCM over associated data and ciphertext, with a 12-byte nonce. -/
def gcmTag (ks : List (List Nat)) (nonce ad ct : List Nat) : List Nat :=
  let h := ofBlock (aesBlock ks (List.replicate 16 0))
  let len := nums (beBytes 8 (8 * ad.length)) ++ nums (beBytes 8 (8 * ct.length))
  let g := (blocks ad ++ blocks ct ++ [len]).foldl (fun x b => ghashMul 128 (x ^^^ ofBlock b) h) 0
  xorL (nums (beBytes 16 g)) (aesBlock ks (nonce ++ [0, 0, 0, 1]))

def gcmCrypt (ks : List (List Nat)) (nonce msg : List Nat) : List Nat :=
  ((chunks 16 msg.length msg).zipIdx.map (fun p => xorL p.1 (aesBlock ks (nonce ++ nums (beBytes 4 (p.2 + 2)))))).flatten

def gcmSeal (key nonce ad msg : List Byte) : List Byte × List Byte :=
  let ks := aesKeys (nums key)
  let ct := gcmCrypt ks (nums nonce) (nums msg)
  (octets ct, octets (gcmTag ks (nums nonce) (nums ad) ct))

def gcmOpen (key nonce ad ct tag : List Byte) : Option (List Byte) :=
  let ks := aesKeys (nums key)
  if octets (gcmTag ks (nums nonce) (nums ad) (nums ct)) = tag then some (octets (gcmCrypt ks (nums nonce) (nums ct))) else none

/-! ### SHA-256, HMAC, HKDF -/

def w32 (n : Nat) : Nat := n % 2 ^ 32
def rotr32 (n x : Nat) : Nat := w32 (x / 2 ^ n + x * 2 ^ (32 - n))

/-- The message schedule, newest word first, with n words still to come. -/
def shaSchedule : Nat → List Nat → List Nat
  | 0, w => w.reverse
  | n + 1, w =>
    let a := w.getD 14 0
    let b := w.getD 1 0
    let s0 := rotr32 7 a ^^^ rotr32 18 a ^^^ (a / 8)
    let s1 := rotr32 17 b ^^^ rotr32 19 b ^^^ (b / 1024)
    shaSchedule n (w32 (w.getD 15 0 + s0 + w.getD 6 0 + s1) :: w)

def shaRound (h : List Nat) (kw : Nat) : List Nat :=
  match h with
  | [a, b, c, d, e, f, g, hh] =>
    let s1 := rotr32 6 e ^^^ rotr32 11 e ^^^ rotr32 25 e
    let ch := (e &&& f) ^^^ ((0xFFFFFFFF ^^^ e) &&& g)
    let t1 := hh + s1 + ch + kw
    let s0 := rotr32 2 a ^^^ rotr32 13 a ^^^ rotr32 22 a
    let maj := (a &&& b) ^^^ (a &&& c) ^^^ (b &&& c)
    [w32 (t1 + s0 + maj), a, b, c, w32 (d + t1), e, f, g]
  | _ => h

def shaBlock (h b : List Nat) : List Nat :=
  let w := (chunks 4 16 b).map ofBlock
  let ws := shaSchedule 48 w.reverse
  List.zipWith (fun x y => w32 (x + y)) h ((List.zipWith (· + ·) shaK ws).foldl shaRound h)

/-- SHA-256. -/
def sha256 (m : List Byte) : List Byte :=
  let n := m.length
  let p := nums m ++ [128] ++ List.replicate ((119 - n % 64) % 64) 0 ++ nums (beBytes 8 (8 * n))
  ((chunks 64 (n + 2) p).foldl shaBlock shaH).flatMap (fun w => beBytes 4 w)

/-- HMAC-SHA-256. -/
def hmac (key msg : List Byte) : List Byte :=
  let k := padTo 64 (if 64 < key.length then sha256 key else key)
  sha256 (k.map (· ^^^ 0x5c) ++ sha256 (k.map (· ^^^ 0x36) ++ msg))

/-- HKDF-SHA-256, up to 64 bytes. -/
def hkdf (ikm salt info : List Byte) (len : Nat) : List Byte :=
  let prk := hmac (if salt.isEmpty then List.replicate 32 0 else salt) ikm
  let t1 := hmac prk (info ++ [1])
  (t1 ++ hmac prk (t1 ++ info ++ [2])).take len

/-- The bytes of an ASCII text. -/
def ascii (s : String) : List Byte := s.toList.map (fun c => BitVec.ofNat 8 c.toNat)

/-! ### Key wrap with padding (RFC 5649) -/

/-- One of the 6n steps of wrapping: the integrity block and the n halves. -/
def wrapStep (ks : List (List Nat)) (n : Nat) (x : List Nat × List (List Nat)) (t : Nat) : List Nat × List (List Nat) :=
  let i := t % n
  let b := aesBlock ks (x.1 ++ x.2.getD i [])
  (xorL (b.take 8) (nums (beBytes 8 (t + 1))), x.2.set i (b.drop 8))

def unwrapStep (ks : List (List Nat)) (n : Nat) (x : List Nat × List (List Nat)) (t : Nat) : List Nat × List (List Nat) :=
  let i := t % n
  let b := aesInvBlock ks (xorL x.1 (nums (beBytes 8 (t + 1))) ++ x.2.getD i [])
  (b.take 8, x.2.set i (b.drop 8))

def aivOf (n : Nat) : List Nat := [0xA6, 0x59, 0x59, 0xA6] ++ nums (beBytes 4 n)

/-- Wraps a key under a key-encryption key. -/
def keyWrap (kek key : List Byte) : List Byte :=
  let ks := aesKeys (nums kek)
  let p := padTo ((key.length + 7) / 8 * 8) key
  let rs := chunks 8 (p.length / 8) (nums p)
  if rs.length ≤ 1 then octets (aesBlock ks (aivOf key.length ++ rs.flatten))
  else
    let r := (List.range (6 * rs.length)).foldl (wrapStep ks rs.length) (aivOf key.length, rs)
    octets (r.1 ++ r.2.flatten)

/-- Unwraps a wrapped key of len bytes, when it is whole. -/
def keyUnwrap (kek w : List Byte) (len : Nat) : Option (List Byte) :=
  let ks := aesKeys (nums kek)
  let n := w.length / 8 - 1
  let rs := chunks 8 n (nums (w.drop 8))
  let r := (List.range (6 * n)).reverse.foldl (unwrapStep ks n) (nums (w.take 8), rs)
  if r.1 = aivOf len then some (octets (r.2.flatten.take len)) else none

/-! ### CRCs -/

/-- One byte into a reflected CRC-32 (IEEE 802.3). -/
def crc32Byte (c : Nat) (b : Byte) : Nat :=
  (List.range 8).foldl (fun c _ => if c % 2 = 1 then (c / 2) ^^^ 0xEDB88320 else c / 2) (c ^^^ b.toNat)

def crc32 (l : List Byte) : Nat := l.foldl crc32Byte 0xFFFFFFFF ^^^ 0xFFFFFFFF

/-- A CRC-8, most significant bit first, polynomial p. -/
def crc8 (p init : Nat) (l : List Byte) : Nat :=
  l.foldl (fun c b => (List.range 8).foldl (fun c _ => if 128 ≤ c then (2 * c - 256) ^^^ p else 2 * c) (c ^^^ b.toNat)) init

end Sys2Proof.Machine
end

