-- ==== Sys2Proof/Machine/Otp.lean ====
section
/-!
DEFINITION. Sys2Proof/Machine/Otp.lean: the fuses: editions and anti-rollback counters (17_updates_and_editions.md, R546, R551 to R554), the edition in force as other blocks
read it, and the random generator's draws.
-/
namespace Sys2Proof.Machine

/-- Step of an anti-rollback counter. -/
def ctrStep (c : Nat) (s : State) : Nat := tget 0 c s.otp.ctrs

/-- OTP_CTR shows each counter. -/
def showCtrs (s : State) : State :=
  wr OTP_CTR_STEPS (ctrStep 0 s + 2 ^ 8 * ctrStep 1 s + 2 ^ 16 * ctrStep 2 s + 2 ^ 24 * ctrStep 3 s) s

/-- A counter never moves backward and stays at 127 (R546). -/
def advanceCtr (c step : Nat) (s : State) : State :=
  let to_ := min 127 step
  if ctrStep c s < to_ then raise 239 (showCtrs { s with otp := { s.otp with ctrs := tins c to_ s.otp.ctrs } }) else s

/-- Byte i of the edition in force; the factory block's default part sets Plan N and gives the rest itself. -/
def editionByte (i : Nat) (s : State) : Byte :=
  match tfind s.otp.current s.otp.editions with
  | some e => e.bytes.getD i 0
  | none => 0

def editionNum (i n : Nat) (s : State) : Nat := ofLe ((List.range n).map (fun k => editionByte (i + k) s))

/-- The hop seed of the edition in force (R169, R646). -/
def hopSeed (s : State) : List Byte :=
  if s.otp.current = 0 then (List.range 16).map Config.factorySeed else (List.range 16).map (fun i => editionByte (8 + i) s)

/-- Region table of the edition in force for a Plan E channel: the e.r.p. limit (0.5 dBm), the clear-channel threshold (dBm), the transmit limit (s per 3,600 s); the default
table is +14 dBm, −85 dBm and 180 s. -/
def regionRow (ch : Nat) (s : State) : Int × Int × Nat :=
  if s.otp.current = 0 then (28, -85, 180)
  else (sgn 8 (editionNum (184 + 8 * ch) 1 s), sgn 8 (editionNum (185 + 8 * ch) 1 s), editionNum (186 + 8 * ch) 2 s)

/-- The current edition is the highest that is sealed and valid, or the factory block; taken at a reset (R554). -/
def newestEdition (s : State) : Nat :=
  (s.otp.editions.filter (fun p => p.2.sealed)).foldl (fun m p => max m p.1) 0

/-- OTP_STATUS: the edition in force, and which are written or spoiled. -/
def showEditions (s : State) : State :=
  let mask := fun (b : Bool) => (s.otp.editions.filter (fun p => p.2.sealed == b)).foldl (fun m p => m + 2 ^ (p.1 - 1)) 0
  wr OTP_STATUS_CURRENT s.otp.current (wr OTP_STATUS_WRITTEN (mask true) (wr OTP_STATUS_SPOILED (mask false) s))

/-- At a reset: the edition in force, and what the steward loads from it before AIR starts (R554). -/
def loadEdition (s : State) : State :=
  let s := showEditions (showCtrs { s with otp := { s.otp with current := newestEdition s } })
  if s.otp.current = 0 then wr AIR_CTRL_PLAN 0 (wr AIR_DWELL_RESERVE 40 (wr AIR_DWELL_LIMIT 400 (wr AIR_SITE_EDITION 0 s)))
  else
    let e := bit (editionNum 5 1 s) 0
    let s := wr AIR_CTRL_PLAN (b2n e) (wr STP_CTRL_TIME_STOP (bits (editionNum 5 1 s) 1 1) s)
    let s := wr AIR_SITE_SITE_ID (editionNum 6 2 s) (wr AIR_SITE_EDITION (editionNum 4 1 s) s)
    wr AIR_DWELL_RESERVE (editionNum 24 2 s) (wr AIR_DWELL_LIMIT (if e then (regionRow 0 s).2.2 else 400) s)

def otpCmdDone (cmd status error : Nat) (s : State) : State := cmdResQuiet 28 0 0x14 cmd status error s

/-- The edition is well formed and takes the next number, with the seal field 0 (R551). -/
def editionOk (b : List Byte) (s : State) : Bool :=
  b.length == 1024 && leAt b 0 4 == 0x31444545 && leAt b 1016 4 == crc32 (b.take 1016) && leAt b 1020 4 == 0 &&
    leAt b 4 1 == s.otp.editions.length + 1

/-- Writes and seals an edition (R551 to R553): status and error. good says that the read-back holds; lost that power fails before SEAL. -/
def writeEdition (b : List Byte) (good lost : Bool) (s : State) : (Nat × Nat) × State :=
  if 5 ≤ s.otp.editions.length then ((4, 0x1CF2), s)
  else if !editionOk b s then ((4, 0x1C01), s)
  else
    let n := leAt b 4 1
    let whole := good && !lost
    let s := { s with otp := { s.otp with editions := tins n { bytes := b.take 1020, sealed := whole } s.otp.editions } }
    let s := raise 238 (showEditions s)
    if whole then ((0, 0), s) else ((1, 0x1C02), count OTP_CNT_SPOILED 1 s)

/-- n bytes from the random generator. -/
def randomBytes : Nat → State → List Byte × State
  | 0, s => ([], s)
  | n + 1, s =>
    let f := fresh s
    let r := randomBytes n f.2
    (Config.random f.1 :: r.1, r.2)

end Sys2Proof.Machine
end

