-- ==== Sys2Proof/Machine/Key.lean ====
section
/-!
DEFINITION. Sys2Proof/Machine/Key.lean: the key engine (16_keys_and_presence.md): the tree, slots and their two copies in flash, changes and their recovery, the keys shared with
machines and members, broadcast keys, debug, presence.
-/
namespace Sys2Proof.Machine

def setKey (k : Key) (s : State) : State := { s with key := k }

/-! ### The tree (R505 to R507) -/

def testRootOn (s : State) : Bool := on KEY_STATUS_TEST_ROOT s

/-- The active root (R505, R523). -/
def activeRoot (s : State) : List Byte :=
  (List.range 32).map (if testRootOn s then Config.testRoot else Config.spineRoot)

def keyEpoch (s : State) : Nat := ctrStep 3 s

/-- Quire key q with its salt (R505). -/
def quireKey (q : Nat) (nonce : List Byte) (s : State) : List Byte :=
  hkdf (activeRoot s) nonce (ascii "GBQ1" ++ leBytes 2 q ++ leBytes 1 (keyEpoch s)) 32

/-- The onboarding key of slot 16 in OPEN (R521). -/
def onboardingKey : List Byte := hkdf ((List.range 32).map Config.spineRoot) [] (ascii "GBON") 32

def lifecycle (s : State) : Nat := rd KEY_STATUS_LIFECYCLE s

/-- The record in force of a slot, whatever the test root does. -/
def slotRec (n : Nat) (s : State) : Option KSlot := (tget {} n s.key.recA).now

/-- The slot as it can be used now: under the test root only what was made under it (R523); slot 16 holds the onboarding key in OPEN. -/
def slotNow (n : Nat) (s : State) : Option KSlot :=
  match tfind n s.key.dbg with
  | some k => some k
  | none =>
    match slotRec n s with
    | some k => some k
    | none => if n = 16 ∧ lifecycle s = 1 then some { kind := 2, usage := 1, len := 32, origin := 1 } else none

/-- A slot that is CURRENT but made under the other root (R523). -/
def isSealed (n : Nat) (s : State) : Bool :=
  testRootOn s && (tfind n s.key.dbg).isNone && (match slotNow n s with | some k => k.st == 1 | none => false)

/-- A KCV: of an AES key, else of any other. -/
def kcvOf (usage : Nat) (key : List Byte) : List Byte :=
  if usage = 1 ∨ usage = 2 then (hmac key (ascii "KCV")).take 3 else (cmac key (List.replicate 16 0)).take 3

/-- A DERIVED folio key (R506). -/
def derivedKey (n : Nat) (k : KSlot) (quire : List Byte) : List Byte := hkdf quire [] (ascii "GBF1" ++ leBytes 2 n ++ leBytes 4 k.gen) k.len

/-- The quire key above a folio slot, when its parent is a CURRENT quire that is not SEALED. -/
def parentKey (p : Nat) (s : State) : Option (List Byte) :=
  match slotNow p s with
  | some q => if q.kind = 1 ∧ q.st = 1 ∧ isSealed p s = false then some (quireKey p q.nonce s) else none
  | none => none

/-- The key of folio slot n for an operation of one usage: the key, or the error that refuses it (R507, R518, R523). -/
def folioKey (n usage : Nat) (s : State) : Except Nat (List Byte) :=
  match slotNow n s with
  | none => .error 0x1A03
  | some k =>
    if k.kind ≠ 2 ∨ k.usage ≠ usage then .error 0x1A03
    else if k.st = 2 then .error 0x1A05
    else if isSealed n s then .error 0x1A07
    else if n = 16 ∧ (slotRec 16 s).isNone ∧ (tfind 16 s.key.dbg).isNone then .ok onboardingKey
    else
      match parentKey k.parent s with
      | none => .error 0x1A05
      | some q =>
        if k.origin = 1 then .ok (derivedKey n k q)
        else
          match keyUnwrap q k.cur k.len with
          | some x => .ok x
          | none => .error 0x1A05

/-- The first CURRENT folio slot of a usage, of the slots usable now. -/
def slotOfUsage (usage : Nat) (s : State) : Option Nat :=
  ((keys s.key.dbg ++ keys s.key.recA).filter (fun n => match slotNow n s with
    | some k => k.kind == 2 && k.usage == usage && k.st == 1 && !isSealed n s
    | none => false)).foldl (fun m n => match m with | none => some n | some x => some (min x n)) none

def keyOfUsage (usage : Nat) (s : State) : Option (List Byte) :=
  match slotOfUsage usage s with
  | some n => (folioKey n usage s).toOption
  | none => none

/-- The link key of an EUI-64 (R513). -/
def linkKey (eui : List Byte) (s : State) : Option (List Byte) :=
  (keyOfUsage 2 s).map (fun r => hkdf r (leBytes 2 (rd AIR_SITE_SITE_ID s)) (ascii "GLK1" ++ eui) 16)

/-- The stop key and its KEY_ID (R514). -/
def stopKey (s : State) : Option (Nat × List Byte) :=
  let n := rd KEY_CTRL_STOP_SLOT s
  match (folioKey n 4 s).toOption, slotNow n s with
  | some k, some r => some (r.gen % 256, k)
  | _, _ => none

/-! ### Presence (R524 to R527) -/

/-- A window is open: its end lies ahead on the free-running counter (R526). -/
def windowOpen (s : State) : Bool := match s.key.window with | some w => decide (s.clk.frc < w.1) | none => false

/-- Presence record of Table EVT-5: 0 opened, 1 closed, 2 STUCK. -/
def presenceRecord (what endNs : Nat) (s : State) : State :=
  note (.record 2 5 234 0 (leBytes 1 what ++ leBytes 8 endNs ++ leBytes 15 0)) s

/-- Ends the open window, if there is one. -/
def endWindow (s : State) : State :=
  match s.key.window with
  | some w => raise 234 (presenceRecord 1 w.2 (wr KEY_PRESENCE_OPEN 0 (wr KEY_PRESENCE_REMAIN 0 (setKey { s.key with window := none } s))))
  | none => s

/-- The field has been present for 2 s: a window of 120 s, in place of one already open (R524); none while STUCK (R525). -/
def presenceOpen (s : State) : State :=
  if s.pwr.off || on KEY_PRESENCE_STUCK s then s
  else
    let s := wr KEY_PRESENCE_FIELD 1 (endWindow s)
    let e := siteNs s + 120000000000
    let s := setKey { s.key with window := some (s.clk.frc + 60000000000, e) } s
    let s := wr KEY_PRESENCE_OPEN 1 (wr KEY_PRESENCE_REMAIN 120 s)
    raise 234 (presenceRecord 0 e (count KEY_CNT_PRESENCE 1 s))

/-- The window's end is reached; field is what the sensor reads. -/
def presenceClose (field : Bool) (s : State) : State :=
  let s := if s.pwr.off then s else wr KEY_PRESENCE_FIELD (b2n field) s
  if windowOpen s then s else endWindow s

/-- The field has been present for 30 s; or, held false, absent for 2 s, which ends STUCK (R525). -/
def presenceStuck (held : Bool) (s : State) : State :=
  if s.pwr.off then s
  else if !held then
    let s := wr KEY_PRESENCE_FIELD 0 s
    if on KEY_PRESENCE_STUCK s then raise 234 (wr KEY_PRESENCE_STUCK 0 s) else s
  else if on KEY_PRESENCE_STUCK s then s
  else raiseAlarm 234 (presenceRecord 2 0 (count KEY_CNT_STUCK 1 (wr KEY_PRESENCE_FIELD 1 (wr KEY_PRESENCE_STUCK 1 (endWindow s)))))

def keyCmdDone (cmd status error : Nat) (s : State) : State := cmdResQuiet 26 0 0x10 cmd status error s

/-- A gated operation of a block finds no window: counted (KEY_CNT_GATE_REFUSED). -/
def gateRefused (s : State) : State := count KEY_CNT_GATE_REFUSED 1 s

/-- CLOSE_WINDOW. -/
def closeWindow (s : State) : State :=
  if windowOpen s then keyCmdDone 3 0 0 (endWindow s) else keyCmdDone 3 4 0x1AF4 s

/-! ### The random generator (R508) -/

def drbgFail (s : State) : State := reportAlarm 0x1A0A 0 (wr KEY_STATUS_DRBG_OK 0 (count KEY_CNT_DRBG_FAIL 1 s))
def drbgPass (s : State) : State := wr KEY_STATUS_DRBG_OK 1 s

/-! ### Broadcast keys (R192, R514) -/

/-- A new broadcast key: the next KEY_ID, the former one kept as the previous. -/
def rotateBkey (s : State) : State :=
  if !on KEY_STATUS_DRBG_OK s then s
  else
    let r := randomBytes 16 s
    let s := r.2
    let first := s.key.bkey.isNone
    let id := match s.key.bkey with | some b => (b.1 + 1) % 256 | none => 0
    let prev := match s.key.bkey with | some b => b.1 | none => 0
    let s := setKey { s.key with bkey := some (id, r.1), bprev := s.key.bkey, rotated := siteNs s } s
    let s := wr KEY_STATUS_BKEY_ID id (wr KEY_STATUS_PREV_ID prev s)
    let targets := (s.air.idx.filter (fun p => p.2.st == .member)).map Prod.fst ++
      (s.wkr.ptr.filter (fun p => p.2.st == .member)).map (fun p => 0x8000 + p.1)
    let rest := s.air.items.filter (fun i => i.kind != .key)
    raise 233 { s with air := { s.air with keyFrom := none, keyUse := first, items := rest ++ targets.map (fun m => ({ target := m, kind := .key } : DItem)) } }

/-- ROTATE_BKEY. -/
def rotateCmd (s : State) : State := if on KEY_STATUS_DRBG_OK s then keyCmdDone 1 0 0 (rotateBkey s) else keyCmdDone 1 4 0x1A0A s

/-! ### Changes (R509 to R512, R517 to R521) -/

/-- The state of a slot record's two copies once a list of flash writes has been done as far as the n-th (R509). -/
def doWrites (n : Nat) (l : List (Key → Key)) (k : Key) : Key := (l.take n).foldl (fun k f => f k) k

def putRec (a : Bool) (n : Nat) (r : KRec) (k : Key) : Key :=
  if a then { k with recA := tset {} n r k.recA } else { k with recB := tset {} n r k.recB }

def putSwap (a : Bool) (w : Swap) (k : Key) : Key :=
  if a then { k with jrnA := (w :: k.jrnA).take 256 } else { k with jrnB := (w :: k.jrnB).take 256 }

def nextSeq (k : Key) : Nat := (k.jrnA ++ k.jrnB).foldl (fun m w => max m (w.seq + 1)) 0

/-- The flash writes that put a new key record into a slot (R510). -/
def installWrites (n : Nat) (old : Option KSlot) (new : KSlot) (k : Key) : List (Key → Key) :=
  let pend : KRec := { now := old, pend := some new, pendKcv := new.kcv, txn := k.txn + 1 }
  let w : Swap := { seq := nextSeq k, slot := n, op := 1, txn := k.txn + 1, gen := new.gen, kcv := new.kcv }
  let fin : KRec := { now := some new }
  [putRec true n pend, putRec false n pend, putSwap true w, putSwap false w, putRec true n fin, putRec false n fin]

/-- The flash writes of a destroy (R518): the swap record, then the cleared records, of the slot and of every folio slot under a quire. -/
def destroyWrites (n : Nat) (old : KSlot) (k : Key) : List (Key → Key) :=
  let w : Swap := { seq := nextSeq k, slot := n, op := 2, txn := k.txn + 1, gen := old.gen, kcv := [] }
  let pend : KRec := { now := some old, txn := k.txn + 1 }
  let kids := if old.kind = 1 then k.recA.filter (fun p => match p.2.now with | some c => c.kind == 2 && c.parent == n | none => false) else []
  [putRec true n pend, putRec false n pend, putSwap true w, putSwap false w, putRec true n {}, putRec false n {}] ++
    kids.flatMap (fun p => let r : KRec := { now := p.2.now.map (fun c => { c with st := 2 }) }; [putRec true p.1 r, putRec false p.1 r])

/-- CHANGE record of a completed change: slot, GEN and KCV. -/
def keyChanged (n gen : Nat) (kcv : List Byte) (s : State) : State :=
  raise 233 (count KEY_CNT_SWAP 1 (note (.record 2 7 233 0 (leBytes 1 0x1A ++ leBytes 4 n ++ leBytes 8 gen ++ leBytes 8 (ofLe kcv) ++ leBytes 3 0)) s))

/-- Closes the sessions opened under a slot (R520). -/
def closeSessionsOf (n : Nat) (s : State) : State := { s with stw := { s.stw with sessions := s.stw.sessions.filter (fun p => p.2.slot != n) } }

/-- A change to a LINK_ROOT or to the stop key's slot waits for the lane (R519). -/
def lockedSlot (n : Nat) (s : State) : Bool :=
  on STP_STATUS_PERMIT s && ((match slotNow n s with | some k => k.kind == 2 && k.usage == 2 | none => false) || (n != 0 && n == rd KEY_CTRL_STOP_SLOT s))

/-- Range of a slot for its kind. -/
def folioRange (n : Nat) : Bool := decide (16 ≤ n ∧ n ≤ 511)
def quireRange (n : Nat) : Bool := decide (1 ≤ n ∧ n ≤ 15)

def folioUsage (u : Nat) : Bool := decide (1 ≤ u ∧ u ≤ 9)

/-- Puts a new record into a slot (R510): under the test root into the steward store only; else through flash, of which steps writes are done before power is lost (all of them, when it is
not). -/
def installKey (steps n : Nat) (new : KSlot) (s : State) : State :=
  let old := slotNow n s
  let s := if testRootOn s then setKey { s.key with dbg := tins n new s.key.dbg } s
    else setKey { doWrites steps (installWrites n (slotRec n s) new s.key) s.key with txn := s.key.txn + 1 } s
  if testRootOn s || decide (3 ≤ steps) then
    let s := keyChanged n new.gen new.kcv s
    let s := if new.usage = 1 ∧ old.isSome then closeSessionsOf n s else s
    let s := if new.usage = 2 then rotateBkey s else s
    if new.usage = 1 ∧ n ≠ 16 ∧ lifecycle s = 1 ∧ testRootOn s = false then raiseAlarm 233 (wr KEY_STATUS_LIFECYCLE 2 s) else s
  else s

/-- What refuses a change of folio slot n to a key of a usage under a parent quire (R517, R519), or 0. -/
def folioRefusal (n parent usage : Nat) (s : State) : Nat :=
  if !folioRange n then 0x1A01
  else if lockedSlot n s then 0x1A06
  else if 3 ∈ (s.fsh.ro) then 0x1D03
  else if (parentKey parent s).isNone then 0x1A02
  else if !folioUsage usage then 0x1A03
  else match slotNow n s with
    | some k => if k.usage = usage then 0 else 0x1A03
    | none => 0

def nextGen (n : Nat) (s : State) : Nat := match slotNow n s with | some k => k.gen + 1 | none => 1

/-- CREATE_QUIRE: status and error. -/
def createQuire (steps usage n : Nat) (s : State) : (Nat × Nat) × State :=
  if !quireRange n then ((4, 0x1A01), s)
  else if 3 ∈ s.fsh.ro then ((4, 0x1D03), s)
  else if usage ≠ 15 ∨ (slotNow n s).isSome then ((4, 0x1A03), s)
  else if !on KEY_STATUS_DRBG_OK s then ((4, 0x1A0A), s)
  else
    let r := randomBytes 16 s
    let k : KSlot := { kind := 1, usage := 15, len := 32, gen := 1, nonce := r.1 }
    ((0, 0), installKey steps n { k with kcv := kcvOf 2 (quireKey n r.1 r.2) } r.2)

/-- A wrapped folio key put into a slot; a KCV supplied must hold (R510). -/
def putFolio (steps n parent usage len origin : Nat) (key : List Byte) (kcv : Option (List Byte)) (s : State) : (Nat × Nat) × State :=
  match parentKey parent s with
  | none => ((4, 0x1A02), s)
  | some q =>
    let base : KSlot := { kind := 2, usage := usage, parent := parent, len := len, gen := nextGen n s, origin := origin }
    let key := if origin = 1 then derivedKey n base q else key
    let own := kcvOf usage key
    if (match kcv with | some x => x != own | none => false) then ((1, 0x1A04), count KEY_CNT_KCV_FAIL 1 s)
    else ((0, 0), installKey steps n { base with cur := if origin = 1 then [] else keyWrap q key, kcv := own } s)

/-- IMPORT, GENERATE and DERIVE: status and error. -/
def folioChange (op steps usage n parent len : Nat) (kcv key : List Byte) (s : State) : (Nat × Nat) × State :=
  let e := folioRefusal n parent usage s
  if e ≠ 0 then ((4, e), s)
  else if op = 3 then
    if !on KEY_STATUS_DRBG_OK s then ((4, 0x1A0A), s)
    else let r := randomBytes len s; putFolio steps n parent usage len 3 r.1 none r.2
  else if op = 2 then putFolio steps n parent usage len 2 key (some kcv) s
  else putFolio steps n parent usage len 1 [] none s

/-- DESTROY: status and error. -/
def destroyKey (steps n : Nat) (s : State) : (Nat × Nat) × State :=
  if !(folioRange n || quireRange n) then ((4, 0x1A01), s)
  else if lockedSlot n s then ((4, 0x1A06), s)
  else if 3 ∈ s.fsh.ro then ((4, 0x1D03), s)
  else
    match slotNow n s with
    | none => ((4, 0x1A03), s)
    | some k =>
      if isSealed n s then ((4, 0x1A07), s)
      else
        let s := if testRootOn s then setKey { s.key with dbg := (tdel n s.key.dbg).map (fun p => if k.kind = 1 ∧ p.2.parent = n then (p.1, { p.2 with st := 2 }) else p) } s
          else setKey { doWrites steps (destroyWrites n k s.key) s.key with txn := s.key.txn + 1 } s
        if testRootOn s || decide (3 ≤ steps) then
          let s := keyChanged n k.gen [] s
          let s := if k.usage = 1 then closeSessionsOf n s else s
          ((0, 0), if k.usage = 2 then rotateBkey s else s)
        else ((0, 0), s)

/-- R512 for one slot: the copies made alike, a pending change completed or discarded by the journals. -/
def recoverSlot (n : Nat) (s : State) : State :=
  let a := tget {} n s.key.recA
  let b := tget {} n s.key.recB
  let gen : KRec → Nat := fun r => match r.now with | some k => k.gen | none => 0
  let r := if gen b > gen a ∨ (a.txn = 0 ∧ b.txn = 0 ∧ a.now.isNone) then b else if a.txn = 0 ∧ b.txn ≠ 0 then a else if a.txn ≠ 0 then a else b
  if r.txn = 0 then setKey (putRec true n r (putRec false n r s.key)) s
  else
    let w := ((s.key.jrnA ++ s.key.jrnB).filter (fun w => w.slot == n && w.txn == r.txn)).head?
    match w, r.pend with
    | some w, some p => if w.op = 1 then setKey (putSwap false w (putRec true n { now := some p } (putRec false n { now := some p } s.key))) s else s
    | some w, none =>
      if w.op = 2 then
        match r.now with
        | some old => setKey (doWrites 1000 ((destroyWrites n old s.key).drop 4) s.key) s
        | none => s
      else s
    | none, _ => count KEY_CNT_ROLLBACK 1 (setKey (putRec true n { now := r.now } (putRec false n { now := r.now } s.key)) s)

/-- Recovery of every slot at start-up (R512). -/
def recoverKeys (s : State) : State := ((keys s.key.recA ++ keys s.key.recB).eraseDups).foldl (fun s n => recoverSlot n s) s

/-- KEY_SLOT_INFO of the selected slot. -/
def slotInfo (s : State) : Nat :=
  let n := rd KEY_SLOT_SEL_SLOT s
  match slotNow n s with
  | none => n
  | some k =>
    let st := if isSealed n s then 3 else k.st
    n + 2 ^ 9 * (k.gen % 256) + 2 ^ 17 * st + 2 ^ 20 * k.usage + 2 ^ 24 * (k.kcv.headD 0).toNat

/-- DEBUG_ENABLE (R523): status and error. -/
def debugEnable (s : State) : (Nat × Nat) × State :=
  if !windowOpen s then ((4, 0x1AF0), gateRefused s)
  else if on STP_STATUS_PERMIT s then ((4, 0x1A09), s)
  else
    let s := wr KEY_STATUS_DEBUG 1 (wr KEY_STATUS_TEST_ROOT 1 s)
    let s := note (.record 2 7 233 0 (leBytes 1 0x1A ++ leBytes 4 4 ++ leBytes 8 0 ++ leBytes 8 1 ++ leBytes 3 0)) s
    ((0, 0), raise 233 s)

/-- DEBUG_ENABLE through KEY_CMD. -/
def keyDebugEnable (s : State) : State := match debugEnable s with | (r, s) => keyCmdDone 2 r.1 r.2 s

/-! ### Meanings -/

def execRotateBkey (s : State) := run rotateCmd s
def execKeyDebugEnable (s : State) := run keyDebugEnable s
def execCloseWindow (s : State) := run closeWindow s
def execPresenceOpen (s : State) := run presenceOpen s
def execPresenceClose (field : Bool) (s : State) := run (presenceClose field) s
def execPresenceStuck (held : Bool) (s : State) := run (presenceStuck held) s
def execDrbgHealthFail (s : State) := run (fun s => if s.pwr.off then s else drbgFail s) s
def execDrbgHealthPass (s : State) := run (fun s => if s.pwr.off then s else drbgPass s) s

end Sys2Proof.Machine
end

