-- ==== Sys2Proof/Machine/Clm.lean ====
section
/-!
DEFINITION. Sys2Proof/Machine/Clm.lean: CLM (04_reaches_and_claims.md): the map tables of the CLM store, claim times, requests, ticks and
what CLM gives PRO. Claim times are compared relative to the present one (R102), as whole numbers; no leave time is OPEN.
-/
namespace Sys2Proof.Machine

def setClm (c : Clm) (s : State) : State := { s with clm := c }

def claim? (k : Nat) (s : State) : Option Claim := tfind k s.clm.claims
def setClaim (k : Nat) (c : Claim) (s : State) : State := setClm { s.clm with claims := tins k c s.clm.claims } s
def pathOf (o : Nat) (s : State) : List Nat := tget [] o s.clm.paths
def setPath (o : Nat) (l : List Nat) (s : State) : State := setClm { s.clm with paths := tset [] o l s.clm.paths } s

/-- State of Table CLM-6: 0 OFF, 1 LOAD, 2 RUN, 3 ISOLATED, 4 FAULT. -/
def clmState (s : State) : Nat := rd CLM_STATUS_STATE s

def enterClm (st : Nat) (s : State) : State := if clmState s = st then s else raise 81 (wr CLM_STATUS_STATE st s)

def isTributary (s : State) : Bool := rd CLM_CTRL_MODE s == 2

/-! ### Map tables (Tables CLM-1 to CLM-4) -/

def clmBase : Nat := 0x40000000

structure Reach where
  len : Nat
  fordA : Nat
  fordB : Nat
  flags : Nat
  cap : Nat
  places : Nat
  speed : Int
  deriving DecidableEq, Repr

structure Ford where
  flags : Nat
  nends : Nat
  clear : Nat
  ends : List Nat
  deriving DecidableEq, Repr

def reachAddr (n : Nat) : Nat := clmBase + 32 * n
def fordAddr (n : Nat) : Nat := clmBase + 0x40000 + 32 * n
def machAddr (o : Nat) : Nat := clmBase + 0x60000 + 8 * o
def claimAddr (k : Nat) : Nat := clmBase + 0x80000 + 32 * k

def reachEntry (n : Nat) (s : State) : Reach :=
  let b := bytesAt s.mem (reachAddr n) 16
  { len := leAt b 0 4, fordA := leAt b 4 2, fordB := leAt b 6 2, flags := leAt b 8 1, cap := leAt b 9 1, places := leAt b 10 1, speed := sgn 32 (leAt b 12 4) }

def fordEntry (n : Nat) (s : State) : Ford :=
  let b := bytesAt s.mem (fordAddr n) 24
  { flags := leAt b 0 1, nends := leAt b 1 1, clear := leAt b 4 4, ends := (List.range 8).map (fun i => leAt b (8 + 2 * i) 2) }

/-- VALID and, for use in a path, not DISABLED. -/
def reachOk (n : Nat) (s : State) : Bool := decide (n < 8192) && bit (reachEntry n s).flags 0 && !bit (reachEntry n s).flags 3
def fordOk (n : Nat) (s : State) : Bool := decide (n < 4096) && bit (fordEntry n s).flags 0 && !bit (fordEntry n s).flags 1
def isHaven (n : Nat) (s : State) : Bool := bit (reachEntry n s).flags 1

/-- Latches the machine entry of an owner (R99): false when its VALID is 0. -/
def latchMach (o : Nat) (s : State) : Bool × State :=
  let b := bytesAt s.mem (machAddr o) 5
  if bit (leAt b 4 1) 0 then (true, setClm { s.clm with mach := tins o (leAt b 0 2, leAt b 2 2) s.clm.mach } s) else (false, s)

/-- FRONT and REAR of an owner in 1/16 mm. -/
def frontOf (o : Nat) (s : State) : Int := 16 * (tget (0, 0) o s.clm.mach).1
def rearOf (o : Nat) (s : State) : Int := 16 * (tget (0, 0) o s.clm.mach).2
def margin (s : State) : Int := 16 * rd CLM_CFG_MARGIN s
/-- HEADWAY in µs. -/
def headway (s : State) : Int := 1000 * rd CLM_CFG_HEADWAY s

/-- A word of the tables that CLM must not use: met uncorrectable (R326). Reading costs nothing while the store holds no error. -/
def clmRead (a n : Nat) (s : State) : Bool × State :=
  if s.ecc.marks.isEmpty && s.ecc.badLines.isEmpty then (true, s) else eccReadRange a n 1 8 s

def clmReads : List (Nat × Nat) → State → Bool × State
  | [], s => (true, s)
  | (a, n) :: t, s =>
    let r := clmRead a n s
    let q := clmReads t r.2
    (r.1 && q.1, q.2)

/-! ### Map checks (Table CLM-5) -/

def endId (reach e : Nat) : Nat := reach + 2 ^ 15 * e

/-- The used ENDs of a ford. -/
def usedEnds (f : Ford) : List Nat := f.ends.filter (fun e => e != 0xFFFF)

/-- The first row of Table CLM-5 that the VALID reach n fails, from 1; 0 for none. -/
def reachFails (n : Nat) (s : State) : List Nat :=
  let r := reachEntry n s
  if !bit r.flags 0 then []
  else
    let side := fun (f e : Nat) => f == 0xFFFF ||
      (decide (f < 4096) && bit (fordEntry f s).flags 0 && ((usedEnds (fordEntry f s)).filter (fun x => x == endId n e)).length == 1)
    (if 1 ≤ r.len ∧ r.len ≤ 0x7FFFFFFF then [] else [1]) ++
    (if side r.fordA 0 && side r.fordB 1 then [] else [2]) ++
    (if (if bit r.flags 1 then decide (1 ≤ r.places ∧ r.places ≤ 15) else r.places == 0) then [] else [5]) ++
    (if bit r.flags 3 then [6] else []) ++
    (if r.cap ≤ 64 then [] else [7])

def fordFails (n : Nat) (s : State) : List Nat :=
  let f := fordEntry n s
  if !bit f.flags 0 then []
  else
    let good := fun (e : Nat) => bits e 13 2 == 0 && bit (reachEntry (e % 8192) s).flags 0 &&
      (if bit e 15 then (reachEntry (e % 8192) s).fordB else (reachEntry (e % 8192) s).fordA) == n
    (if (usedEnds f).all good then [] else [3]) ++
    (if f.nends = (usedEnds f).length ∧ 2 ≤ f.nends ∧ f.nends ≤ 8 then [] else [4]) ++
    (if bit f.flags 1 then [6] else [])

/-- The first entry that fails, row by row of Table CLM-5, reaches before fords: (KIND, row, number). -/
def mapError (s : State) : Option (Nat × Nat × Nat) :=
  let rs := (List.range 8192).filter (fun n => bit (reachEntry n s).flags 0)
  let fs := (List.range 4096).filter (fun n => bit (fordEntry n s).flags 0)
  let havens := rs.filter (fun n => isHaven n s)
  let row := fun (c : Nat) =>
    match rs.find? (fun n => (reachFails n s).contains c || (c == 5 && havens.getD 1024 8192 == n)) with
    | some n => some (0, c, n)
    | none => (fs.find? (fun n => (fordFails n s).contains c)).map (fun n => (1, c, n))
  [1, 2, 3, 4, 5, 6, 7].findSome? row

/-! ### Claim times (R102 to R104) -/

/-- A claim time relative to now. -/
def relTime (now t : Nat) : Int := sgn 32 (t + 2 ^ 32 - now % 2 ^ 32)

/-- The claim time at a relative one. -/
def absTime (now : Nat) (r : Int) : Nat := enc 32 (now + r)

/-- T_ENTER and T_LEAVE of a held claim, relative; R103 for an open-ended one. -/
def enterRel (now : Nat) (c : Claim) : Int := let e := relTime now c.enter; if c.open_ then max e 0 else e
def leaveRel (now : Nat) (c : Claim) : Option Int := if c.open_ then none else some (relTime now c.leave)

/-- x < y + h, no y being later than every time. -/
def ltLeave (x : Int) (y : Option Int) (h : Int) : Bool := match y with | none => true | some y => decide (x < y + h)

/-- y leaves at least h after x does. -/
def leavesAfter (y x : Option Int) (h : Int) : Bool :=
  match x, y with | none, _ => false | some _, none => true | some x, some y => decide (x + h ≤ y)

/-- A closed T_LEAVE as CLM writes it (R104). -/
def closedTime (t : Nat) : Nat := if t = 0xFFFFFFFF then 0xFFFFFFFE else t

/-! ### Conflicts (R106, R111, Table CLM-13) -/

/-- Occupied range of a reach claim. -/
def occupied (dir : Nat) (f t : Int) (o : Nat) (s : State) : Int × Int :=
  if dir = 0 then (f - rearOf o s - margin s, t + frontOf o s + margin s)
  else (t - frontOf o s - margin s, f + rearOf o s + margin s)

def overlaps (x y : Int × Int) : Bool := decide (x.1 ≤ y.2) && decide (y.1 ≤ x.2)

/-- Claims held on a reach or ford, by index. -/
def claimsOn (ford : Bool) (id : Nat) (s : State) : List (Nat × Claim) := s.clm.claims.filter (fun p => p.2.ford == ford && p.2.id == id)

def othersOn (ford : Bool) (id o : Nat) (s : State) : List (Nat × Claim) := (claimsOn ford id s).filter (fun p => p.2.owner != o)

/-- A new or held element as the conflict rules see it. -/
structure Span where
  ford : Bool
  id : Nat
  dir : Nat
  from_ : Int
  to_ : Int
  e : Int
  l : Option Int
  owner : Nat
  deriving DecidableEq, Repr

def spanOf (now : Nat) (c : Claim) : Span :=
  { ford := c.ford, id := c.id, dir := c.dir, from_ := c.from_, to_ := c.to_, e := enterRel now c, l := leaveRel now c, owner := c.owner }

/-- The conflict of a with b, both on one reach that is no haven or at one ford, and EARLIEST where there is one (none: no time). -/
def conflict (a b : Span) (s : State) : Option (Option Int) :=
  if a.ford then
    let c : Int := (fordEntry a.id s).clear
    if ltLeave a.e b.l c && ltLeave b.e a.l c then some (b.l.map (· + c)) else none
  else
    let h := headway s
    if !overlaps (occupied a.dir a.from_ a.to_ a.owner s) (occupied b.dir b.from_ b.to_ b.owner s) then none
    else if a.dir ≠ b.dir then
      if ltLeave a.e b.l h && ltLeave b.e a.l h then some (b.l.map (· + h)) else none
    else
      let after := decide (b.e + h ≤ a.e) && leavesAfter a.l b.l h
      let before := decide (a.e + h ≤ b.e) && leavesAfter b.l a.l h
      if after || before then none
      else some (match b.l with
        | none => none
        | some bl => match a.l with
          | none => some (b.e + h)
          | some al => some (max (b.e + h) (bl + h - (al - a.e))))

/-- Held during the instant t: from T_ENTER up to T_LEAVE. -/
def holdsAt (t : Int) (x : Int × Option Int) : Bool := decide (x.1 ≤ t) && (match x.2 with | none => true | some l => decide (t < l))

/-- Most claims at one instant of [e, l), one for the new element included. -/
def peak (l : List (Int × Option Int)) (e : Int) (lv : Option Int) : Nat :=
  let pts := e :: ((l.map Prod.fst).filter (fun x => decide (e < x) && ltLeave x lv 0))
  1 + (pts.map (fun t => (l.filter (holdsAt t)).length)).foldl max 0

/-- Smallest T_ENTER at or after e at which an element of the same duration keeps the count within most (Table CLM-13); the count falls only where a claim leaves. -/
def earliestFit (l : List (Int × Option Int)) (e : Int) (lv : Option Int) (most : Nat) : Option Int :=
  let c := sortBy (fun a b => decide (a ≤ b)) ((l.filterMap Prod.snd).filter (fun x => decide (e < x)))
  c.find? (fun t => decide (peak l t (lv.map (fun y => t + (y - e))) ≤ most))

/-! ### Requests (Tables CLM-9 to CLM-12) -/

structure Elem where
  ford : Bool
  id : Nat
  dir : Nat
  from_ : Int
  to_ : Int
  enter : Nat
  leave : Nat
  clean : Bool
  deriving DecidableEq, Repr

structure Req where
  op : Nat
  count : Nat
  owner : Nat
  tag : Nat
  arg0 : Nat
  arg1 : Nat
  els : List Elem
  whole : Bool
  deriving DecidableEq, Repr

def elemOf (b : List Byte) : Elem :=
  let id := leAt b 0 2
  { ford := bit id 15, id := id % 8192, dir := leAt b 2 1 % 2, from_ := sgn 32 (leAt b 4 4), to_ := sgn 32 (leAt b 8 4),
    enter := leAt b 12 4, leave := leAt b 16 4,
    clean := bits id 13 2 == 0 && leAt b 2 1 / 2 == 0 && leAt b 3 1 == 0 && leAt b 20 4 == 0 }

/-- The request in the words of a record; whole says that the record ended with END. -/
def reqOf (ws : List Word) (whole : Bool) : Req :=
  let b := bytesOf ws
  let n := leAt b 1 1
  { op := leAt b 0 1, count := n, owner := leAt b 2 2, tag := leAt b 4 4, arg0 := leAt b 8 4, arg1 := leAt b 12 4,
    els := (List.range n).map (fun i => elemOf (slice b (16 + 24 * i) 24)), whole := whole && ws.length == 2 + 3 * n }

/-- R622. -/
def wellFormed (r : Req) : Bool :=
  r.whole && r.els.all Elem.clean && (r.op == 5 || r.owner / 2 ^ 11 == 0) &&
  (match r.op with
   | 1 => r.count % 2 == 1 && decide (r.count ≤ 31) && r.arg0 == 0 && r.arg1 == 0
   | 2 => r.count == 1 && r.arg0 == 0 && r.arg1 == 0
   | 3 => r.count == 0 && r.arg0 / 2 ^ 13 == 0
   | 4 => r.count == 0 && r.arg0 / 2 == 0 && r.arg1 == 0
   | 5 => r.count == 0 && bits r.arg0 13 2 == 0 && r.arg0 / 2 ^ 16 == 0 && r.arg1 / 2 == 0
   | _ => false)

/-- A result (Table CLM-14). -/
structure Res where
  status : Nat
  error : Nat := 0
  element : Nat := 0xFF
  granted : Nat := 0
  other : Nat := 0xFFFF
  oEnter : Nat := 0
  oLeave : Nat := 0
  earliest : Nat := 0
  deriving DecidableEq, Repr

def refuse (cause : Nat) : Res := { status := 4, error := 0x800 + cause }
def refuseAt (cause i : Nat) : Res := { status := 4, error := 0x800 + cause, element := i }

/-- A refusal for a conflict with claim b, with EARLIEST. -/
def refuseFor (now cause i : Nat) (b : Option Claim) (t : Option Int) : Res :=
  let r := refuseAt cause i
  let r := { r with earliest := match t with | some x => absTime now x | none => 0xFFFFFFFF }
  match b with
  | some b => { r with other := b.owner, oEnter := b.enter, oLeave := if b.open_ then 0xFFFFFFFF else b.leave }
  | none => r

/-- Result record words. -/
def resWords (r : Req) (ns : Nat) (x : Res) : List Word :=
  [ BitVec.ofNat 64 (x.status + r.op * 2 ^ 8 + r.owner * 2 ^ 16 + r.tag * 2 ^ 32),
    BitVec.ofNat 64 (x.error + x.element * 2 ^ 16 + x.granted * 2 ^ 24 + x.other * 2 ^ 32),
    BitVec.ofNat 64 (x.oEnter + x.oLeave * 2 ^ 32),
    BitVec.ofNat 64 (x.earliest + ns * 2 ^ 32) ]

/-- Index of the first element that fails p. -/
def badElem (els : List Elem) (p : Nat → Elem → Bool) : Option Nat := (els.zipIdx.find? (fun x => !p x.2 x.1)).map Prod.snd

def horizonUs (s : State) : Int := 1000000 * (max 1 (min 600 (rd CLM_HORIZON_HORIZON s)) : Nat)

/-- The owner's open claim. -/
def openClaim (o : Nat) (s : State) : Option (Nat × Claim) :=
  (pathOf o s).findSome? (fun k => match claim? k s with | some c => if c.open_ && c.st != .cutHeld then some (k, c) else none | none => none)

/-- Condition 2: the fleet index is MEMBER (a member's own for a request over the cascade link) and its machine entry VALID. -/
def cond2 (o : Nat) (via : Option Nat) (valid : Bool) (s : State) : Bool :=
  valid && (if o / 256 = ownModule s then isMember (o % 256) s else via == some (o / 256))

/-- Condition 3. -/
def cond3 (els : List Elem) (s : State) : Option Res :=
  (badElem els (fun i e => e.ford == (i % 2 == 1) && (if e.ford then fordOk e.id s else reachOk e.id s))).map (refuseAt 0x02)

/-- The reach end at which an element ends, and that from which it starts. -/
def endsAt (e : Elem) (s : State) : Option Nat :=
  if e.dir = 0 then (if e.to_ = (reachEntry e.id s).len then some (endId e.id 1) else none)
  else if e.to_ = 0 then some (endId e.id 0) else none
def startsAt (e : Elem) (s : State) : Option Nat :=
  if e.dir = 0 then (if e.from_ = 0 then some (endId e.id 0) else none)
  else if e.from_ = (reachEntry e.id s).len then some (endId e.id 1) else none

/-- Condition 5. -/
def cond5 (els : List Elem) (s : State) : Option Res :=
  (badElem els (fun i e =>
    if e.ford then
      match els[i - 1]?.bind (fun x => endsAt x s), els[i + 1]?.bind (fun x => startsAt x s) with
      | some a, some b => a != b && (usedEnds (fordEntry e.id s)).contains a && (usedEnds (fordEntry e.id s)).contains b
      | _, _ => false
    else
      let lo := if e.dir = 0 then e.from_ else e.to_
      let hi := if e.dir = 0 then e.to_ else e.from_
      decide (0 ≤ lo ∧ lo ≤ hi ∧ hi ≤ (reachEntry e.id s).len))).map (refuseAt 0x03)

/-- An element as a span. -/
def spanOfElem (now o : Nat) (e : Elem) : Span :=
  { ford := e.ford, id := e.id, dir := e.dir, from_ := e.from_, to_ := e.to_, e := relTime now e.enter,
    l := if e.leave = 0xFFFFFFFF then none else some (relTime now e.leave), owner := o }

/-- Condition 11: at most 64 claims on a target, and room for new entries. -/
def cond11 (els : List Elem) (new : List Elem) (from_ : Nat) (s : State) : Option Res :=
  match badElem new (fun i e =>
      decide ((claimsOn e.ford e.id s).length + ((new.take (i + 1)).filter (fun x => x.ford == e.ford && x.id == e.id)).length ≤ 64)) with
  | some i => some (refuseAt 0xF2 (i + from_))
  | none => if s.clm.claims.length + new.length ≤ 131072 then none else some (refuse 0xF2)

/-- Conditions 12 and 13 for one span: the first held claim of another owner that conflicts, then the CAP row. -/
def condConflict (now cause i : Nat) (a : Span) (s : State) : Option Res :=
  let bs := othersOn a.ford a.id a.owner s
  match bs.findSome? (fun p => (conflict a (spanOf now p.2) s).map (fun t => refuseFor now cause i (some p.2) t)) with
  | some r => some r
  | none =>
    if a.ford then none
    else
      let cap := let c := (reachEntry a.id s).cap; if c = 0 then 64 else c
      let ts := bs.map (fun p => (enterRel now p.2, leaveRel now p.2))
      if cap < peak ts a.e a.l then some (refuseFor now cause i none (earliestFit ts a.e a.l cap)) else none

/-- Condition 14 for one span on a haven; own are the request's other elements there. -/
def condHaven (now i : Nat) (a : Span) (own : List Span) (s : State) : Option Res :=
  let ts := (othersOn false a.id a.owner s).map (fun p => (enterRel now p.2, leaveRel now p.2)) ++ own.map (fun x => (x.e, x.l))
  let n := (reachEntry a.id s).places
  if n < peak ts a.e a.l then some (refuseFor now 0x0B i none (earliestFit ts a.e a.l n)) else none

/-- The spans of an EXTEND: element 0 keeps the open claim's T_ENTER. -/
def extendSpans (now : Nat) (r : Req) (oc : Claim) : List Span :=
  (r.els.map (spanOfElem now r.owner)).zipIdx.map (fun p => if p.2 = 0 then { p.1 with e := enterRel now oc } else p.1)

/-- Conditions 6 to 9 (Table CLM-12). -/
def condTimes (sp : List Span) (s : State) : Option Res :=
  let n := sp.length
  let first := fun (cause : Nat) (p : Nat → Span → Bool) => (sp.zipIdx.find? (fun x => !p x.2 x.1)).map (fun x => refuseAt cause x.2)
  let le := fun (x y : Option Int) => match x, y with | _, none => true | none, some _ => false | some x, some y => decide (x ≤ y)
  (first 0x04 (fun i a => ltLeave a.e a.l 0 &&
      (i == 0 || match sp[i - 1]? with | some p => decide (p.e ≤ a.e) && le (some a.e) p.l && le p.l a.l | none => false))).or
  ((first 0x05 (fun i a => if i = 0 then (match a.l with | none => true | some l => decide (0 ≤ l)) else decide (0 ≤ a.e))).or
  ((first 0x06 (fun i a => decide (a.e ≤ horizonUs s) && (i + 1 == n || match a.l with | none => true | some l => decide (l ≤ horizonUs s)))).or
  (first 0x07 (fun i a => if i + 1 = n then !a.ford && isHaven a.id s && a.l.isNone else a.l.isSome))))

/-- Conditions 10 to 14 of an EXTEND in order. -/
def condPath (now : Nat) (r : Req) (sp : List Span) (s : State) : Option Res :=
  (((badElem r.els (fun _ e => e.ford || !(e.dir == 1 && bit (reachEntry e.id s).flags 2))).map (refuseAt 0x0C)).or
  (cond11 r.els (r.els.drop 1) 1 s)).or
  ((sp.zipIdx.findSome? (fun x => if x.1.ford || isHaven x.1.id s then none else condConflict now 0x09 x.2 x.1 s)).or
  ((sp.zipIdx.findSome? (fun x => if x.1.ford then condConflict now 0x0A x.2 x.1 s else none)).or
  (sp.zipIdx.findSome? (fun x => if !x.1.ford && isHaven x.1.id s then
      condHaven now x.2 x.1 ((sp.zipIdx.filter (fun y => y.2 != x.2 && !y.1.ford && y.1.id == x.1.id)).map Prod.fst) s else none))))

/-- A free index of the claim table; which one is open. -/
def freeClaim (s : State) : Nat × State :=
  let r := fresh s
  let used := keys s.clm.claims
  (pickFree used 131072 (used.length + 1) (Config.claimIndex r.1), r.2)

/-- HELD rising above 90 % raises TABLE_HIGH. -/
def heldRise (before : Nat) (s : State) : State :=
  if before ≤ 117964 ∧ 117964 < s.clm.claims.length then raise 91 s else s

/-- Writes a granted claim at the end of an owner's path; its index. -/
def addClaim (c : Claim) (s : State) : Nat × State :=
  let r := freeClaim s
  let s := setClaim r.1 c r.2
  let p := pathOf c.owner s
  let s := match p.getLast? with
    | some q => match claim? q s with | some x => setClaim q { x with next := some r.1 } s | none => s
    | none => s
  (r.1, heldRise (s.clm.claims.length - 1) (setPath c.owner (p ++ [r.1]) s))

/-- Marks a claim STRANDED, counts it and raises STRANDED. -/
def strand (k : Nat) (s : State) : State :=
  match claim? k s with
  | some c => raise 85 (count CLM_CNT_STRANDED 1 (setClaim k { c with stranded := true } s))
  | none => s

def claimOfElem (o tag now : Nat) (e : Elem) : Claim :=
  { ford := e.ford, id := e.id, dir := e.dir, st := .granted, open_ := e.leave == 0xFFFFFFFF, stranded := false,
    from_ := if e.ford then 0 else e.from_, to_ := if e.ford then 0 else e.to_, enter := e.enter, leave := e.leave, owner := o, tag := tag,
    next := none, echo := none, cause := none }

/-- EXTEND (R110, R111, R637). -/
def extendReq (now : Nat) (r : Req) (via : Option Nat) (valid : Bool) (s : State) : Res × State :=
  if !cond2 r.owner via valid s then (refuse 0x0D, s)
  else
    match cond3 r.els s with
    | some x => (x, s)
    | none =>
      match openClaim r.owner s, r.els with
      | some (k, oc), e0 :: rest =>
        if oc.ford || oc.id != e0.id || e0.from_ != oc.to_ || e0.dir != oc.dir then (refuseAt 0x08 0, s)
        else
          let sp := extendSpans now r oc
          match (cond5 r.els s).or ((condTimes sp s).or (condPath now r sp s)) with
          | some x => (x, s)
          | none =>
            let o := e0.leave == 0xFFFFFFFF
            let s := setClaim k { oc with to_ := e0.to_, leave := e0.leave, open_ := o, stranded := false } s
            let s := rest.foldl (fun s e => (addClaim (claimOfElem r.owner r.tag now e) s).2) s
            ({ status := 0, granted := r.count }, s)
      | _, _ => (refuseAt 0x08 0, s)

/-- PLACE (R112). -/
def placeReq (now : Nat) (r : Req) (via : Option Nat) (valid : Bool) (s : State) : Res × State :=
  if !cond2 r.owner via valid s then (refuse 0x0D, s)
  else if s.clm.claims.any (fun p => p.2.owner == r.owner) then (refuse 0x08, s)
  else
    match r.els with
    | [e] =>
      let e := { e with enter := now, leave := 0xFFFFFFFF }
      let a := spanOfElem now r.owner e
      let haven := isHaven e.id s
      match ((cond3 [e] s).or (cond11 [e] [e] 0 s)).or (if haven then condHaven now 0 a [] s else condConflict now 0x09 0 a s) with
      | some x => (x, s)
      | none =>
        let r' := addClaim (claimOfElem r.owner r.tag now e) s
        ({ status := 0, granted := 1 }, if haven then r'.2 else strand r'.1 r'.2)
    | _ => (refuse 0x01, s)

/-! ### Positions along an owner's path (R106, R107, R636) -/

/-- Length of a claim along the path. -/
def claimLen (c : Claim) : Int := if c.ford then 0 else ((c.to_ - c.from_) * sg c.dir) * fineSt

/-- Starts of the claims of a path, the first at x. -/
def startsFrom (s : State) (x : Int) : List Nat → List (Nat × Claim × Int)
  | [] => []
  | k :: t => match claim? k s with
    | some c => (k, c, x) :: startsFrom s (x + claimLen c) t
    | none => startsFrom s x t

/-- The claims of an owner's path and where each starts, as distances ahead of a control point that stands in claim k at station st (distance
units of Motion.lean); without such a claim it is taken at the FROM of the first. -/
def pathSpans (o : Nat) (at_ : Option (Nat × Int)) (s : State) : List (Nat × Claim × Int) :=
  let l := startsFrom s 0 (pathOf o s)
  let shift := match at_ with
    | some (k, st) => match l.find? (fun x => x.1 == k) with
      | some x => x.2.2 + (st - x.2.1.from_ * fineSt) * sg x.2.1.dir
      | none => 0
    | none => 0
  l.map (fun x => (x.1, x.2.1, x.2.2 - shift))

/-- Where PRO plans an owner's control point to be. -/
def planAt (o : Nat) (s : State) : Option (Nat × Int) :=
  if o / 256 = ownModule s then (chan? (o % 256) s).bind (fun c => if c.reach.isSome then some (c.claim, c.st) else none) else none

/-- Where PRO last reported it (R127). -/
def reportedAt (o : Nat) (s : State) : Option (Nat × Int) := (tfind o s.clm.prog).map (fun p => (p.claim, p.station * fineSt))

/-- The farthest distance ahead that the present limit, or STATION + LIMIT of a record not yet echoed, gives (R636). -/
def profileFar (o : Nat) (s : State) : Int :=
  match (if o / 256 = ownModule s then chan? (o % 256) s else none) with
  | none => 0
  | some ch =>
    let e := tget 0 o s.clm.echo
    ((ch.recs.filter (fun r => e == 0 || decide (0 < sgn 32 (r.1 + 2 ^ 32 - e)))).map (fun r => r.2 - ch.odo)).foldl max ch.lim

/-- The profile still reaches what starts at distance x along the owner's path: beyond the start of its occupied range (R636). -/
def profileReaches (o : Nat) (x : Int) (s : State) : Bool := decide (x - (rearOf o s + margin s) * fineSt < profileFar o s)

/-- R40, R636 for claim k, at distance x. -/
def stillReached (c : Claim) (x : Int) (s : State) : Bool := c.st == .active || c.st == .overdue || profileReaches c.owner x s

/-! ### Leaving the table -/

/-- A note record (Table CLM-17, R120). -/
def clmNote (kind owner k cause : Nat) (s : State) : State :=
  let ws : List Word := [BitVec.ofNat 64 (kind + owner * 2 ^ 16 + k * 2 ^ 32), BitVec.ofNat 64 (cause + claimTime s * 2 ^ 32)]
  if isHead s && owner / 256 != ownModule s then emit (.cas (some (owner / 256)) (.note ws)) s
  else
    let r := pushRecord (rd CLM_FLUME_NOTE s) ws s
    if r.1 then r.2 else count CLM_CNT_NOTE_DROP 1 r.2

/-- The member whose machine an owner is, at the headwater; none for one of its own. -/
def memberOf (o : Nat) (s : State) : Option Nat := if isHead s && o / 256 != ownModule s then some (o / 256) else none

/-- Sends a result: to the result flume, or over the cascade link to the member `via` that asked. -/
def clmResult (via : Option Nat) (r : Req) (ns : Nat) (x : Res) (s : State) : State :=
  let ws := resWords r ns x
  let s :=
    if x.status = 4 then (if 0x809 ≤ x.error ∧ x.error ≤ 0x80B then count CLM_CNT_CONFLICT 1 s else count CLM_CNT_INVALID 1 s)
    else if x.status = 0 ∧ r.op ≤ 2 then count CLM_CNT_GRANT 1 s else s
  match via with
  | some m => emit (.cas (some m) (.result ws)) s
  | none => (pushRecord (rd CLM_FLUME_RES s) ws s).2

/-- Completes each waiting request none of whose claims is held any more (R117). -/
def finishWaits (s : State) : State :=
  let done := s.clm.waits.filter (fun w => w.claims.isEmpty)
  let s := setClm { s.clm with waits := s.clm.waits.filter (fun w => !w.claims.isEmpty) } s
  done.foldl (fun s w => clmResult (memberOf w.owner s) { op := w.op, count := 0, owner := w.owner, tag := w.tag, arg0 := 0, arg1 := 0, els := [], whole := true } w.ns { status := 0 } s) s

/-- Claim k becomes FREE. -/
def freeIt (k : Nat) (s : State) : State :=
  match claim? k s with
  | none => s
  | some c =>
    let s := setClm { s.clm with claims := tdel k s.clm.claims, waits := s.clm.waits.map (fun w => { w with claims := w.claims.filter (· != k) }) } s
    let s := setPath c.owner ((pathOf c.owner s).filter (· != k)) s
    finishWaits (claimCut k c.owner s)

/-- Releases claim k at distance x along its path (R40, Table CLM-8): CUT_HELD while the profile still reaches it, FREE otherwise; an OVERDUE one stays. -/
def release40 (k : Nat) (reached : Bool) (s : State) : State :=
  match claim? k s with
  | none => s
  | some c =>
    match c.st with
    | .overdue => s
    | .cutHeld => s
    | _ =>
      if reached then
        let s := setClaim k { c with st := .cutHeld, open_ := c.open_, next := none, echo := none, cause := none } s
        claimCut k c.owner (setPath c.owner ((pathOf c.owner s).filter (· != k)) s)
      else freeIt k s

/-- Releases the listed claims, each with whether the profile reached it before; those left CUT_HELD. -/
def releaseAll (l : List (Nat × Bool)) (s : State) : List Nat × State :=
  let s := l.foldl (fun s p => release40 p.1 p.2 s) s
  ((l.map Prod.fst).filter (fun k => (claim? k s).any (fun c => c.st == .cutHeld)), s)

/-! ### SHORTEN, RELEASE, SET_REACH -/

/-- Where the channel can come to rest under its stop limits, as a distance ahead (R114). -/
def restAhead (o : Nat) (s : State) : Option Int :=
  if o / 256 = ownModule s then
    (chan? (o % 256) s).bind (fun c => if c.reach.isSome then rampDist (1000 * c.dsUse) c.jsUse 0 { v := c.v, a := c.a } else none)
  else none

/-- The station at a distance ahead along the path. -/
def stationAhead (l : List (Nat × Claim × Int)) (x : Int) : Int :=
  match (l.filter (fun y => !y.2.1.ford && decide (y.2.2 ≤ x))).getLast? with
  | some y => y.2.1.from_ + sg y.2.1.dir * ((x - y.2.2 + fineSt - 1) / fineSt)
  | none => 0

/-- SHORTEN (R113, R114, R627): the result, none while it waits for claims left CUT_HELD (R117). -/
def shortenReq (ns : Nat) (r : Req) (valid : Bool) (s : State) : Option Res × State :=
  if !valid then (some (refuse 0x0D), s)
  else
    let cut := sgn 32 r.arg1
    let l := pathSpans r.owner (planAt r.owner s) s
    match l.find? (fun x => !x.2.1.ford && x.2.1.id == r.arg0 && x.2.1.st != .cutHeld &&
        decide (min x.2.1.from_ x.2.1.to_ ≤ cut ∧ cut ≤ max x.2.1.from_ x.2.1.to_)) with
    | none => (some (refuse 0x10), s)
    | some (k, c, x) =>
      let at_ := x + (cut - c.from_) * sg c.dir * fineSt
      let rest := (restAhead r.owner s).getD 0
      if at_ < 0 ∧ (planAt r.owner s).isSome then (some (refuse 0x10), s)
      else if at_ < rest then (some { refuse 0x14 with earliest := enc 32 (stationAhead l rest) }, s)
      else
        let hold := cut != c.to_ && profileReaches r.owner at_ s
        if hold && decide (131072 ≤ s.clm.claims.length) then (some (refuse 0xF2), s)
        else
          let later := ((l.dropWhile (fun y => y.1 != k)).drop 1).map (fun y => (y.1, stillReached y.2.1 y.2.2 s))
          let st' : ClaimSt := if c.st = .overdue then .active else c.st
          let part : Claim := { c with st := .cutHeld, from_ := cut, stranded := false, next := none, echo := none, cause := none }
          let f := if hold then freeClaim s else (0, s)
          let n := f.2.clm.claims.length
          let s := if hold then heldRise n (setClaim f.1 part f.2) else s
          let s := setClaim k { c with to_ := cut, open_ := true, st := st', next := none } s
          let s := claimCut k r.owner s
          let s := if isHaven c.id s then s else strand k s
          let q := releaseAll later s
          let w := (if hold then [f.1] else []) ++ q.1
          if w.isEmpty then (some { status := 0 }, q.2)
          else (none, setClm { q.2.clm with waits := q.2.clm.waits ++ [{ op := 3, owner := r.owner, tag := r.tag, ns := ns, claims := w }] } q.2)

/-- FORCE frees every claim of an owner at once; each is written to the ledger as a log (R115). -/
def forceFree (o : Nat) (s : State) : State :=
  let ks := (s.clm.claims.filter (fun p => p.2.owner == o)).map Prod.fst
  let s := ks.foldl (fun s k => clmNote 7 o k 0xFFFF (freeIt k s)) s
  if ks.isEmpty then s
  else
    note (.record 2 1 87 0 (leBytes 4 o ++ leBytes 4 ks.length ++ leBytes 16 0)) (raise 87 (count CLM_CNT_FORCE ks.length s))

/-- RELEASE (R115). -/
def releaseReq (ns : Nat) (r : Req) (via : Option Nat) (valid : Bool) (s : State) : Option Res × State :=
  let gone := if r.owner / 256 = ownModule s then
      (idxState (r.owner % 256) s == some .silent || idxState (r.owner % 256) s == some .leaving) else via == some (r.owner / 256)
  let mine := s.clm.claims.filter (fun p => p.2.owner == r.owner)
  if !valid || !gone then (some (refuse 0x0D), s)
  else if mine.isEmpty then (some (refuse 0x10), s)
  else if r.arg0 % 2 = 1 then (some { status := 0 }, forceFree r.owner s)
  else
    let l := (pathSpans r.owner (planAt r.owner s) s).map (fun y => (y.1, stillReached y.2.1 y.2.2 s))
    let q := releaseAll l s
    if q.1.isEmpty then (some { status := 0 }, q.2)
    else (none, setClm { q.2.clm with waits := q.2.clm.waits ++ [{ op := 4, owner := r.owner, tag := r.tag, ns := ns, claims := q.1 }] } q.2)

/-! ### Blocking (R116, R118) -/

def mayBlock (c : Claim) : Bool := c.st == .granted

/-- GRANTED claim k becomes BLOCKED, for the OVERDUE claim of owner o (0xFFFF: a reach or ford DISABLED). -/
def blockIt (k o : Nat) (s : State) : State :=
  match claim? k s with
  | some c =>
    clmNote 2 c.owner k o (raise 83 (count CLM_CNT_BLOCKED 1 (setClaim k { c with st := .blocked, cause := if o = 0xFFFF then none else some o } s)))
  | none => s

/-- The owner of an OVERDUE claim of another owner that conflicts with claim c now. -/
def overdueAgainst (now : Nat) (c : Claim) (s : State) : Option Nat :=
  if !c.ford && isHaven c.id s then none
  else ((othersOn c.ford c.id c.owner s).find? (fun p => p.2.st == .overdue && (conflict (spanOf now c) (spanOf now p.2) s).isSome)).map (fun p => p.2.owner)

/-- The reach or ford of a claim is DISABLED. -/
def disabled (c : Claim) (s : State) : Bool := if c.ford then bit (fordEntry c.id s).flags 1 else bit (reachEntry c.id s).flags 3

/-- Blocks a GRANTED claim that has a cause, and unblocks a BLOCKED one that has none left (Table CLM-8). -/
def reviewBlock (now k : Nat) (s : State) : State :=
  match claim? k s with
  | none => s
  | some c =>
    let o := overdueAgainst now c s
    let dis := disabled c s
    match c.st with
    | .granted => if dis then blockIt k 0xFFFF s else match o with | some o => blockIt k o s | none => s
    | .blocked =>
      if dis || o.isSome || (!c.open_ && decide (relTime now c.leave < 0)) then s
      else clmNote 3 c.owner k 0xFFFF (raise 84 (setClaim k { c with st := .granted, cause := none } s))
    | _ => s

def reviewBlocks (now : Nat) (p : Claim → Bool) (s : State) : State :=
  ((s.clm.claims.filter (fun x => p x.2)).map Prod.fst).foldl (fun s k => reviewBlock now k s) s

/-- SET_REACH (R116). -/
def setReachReq (now : Nat) (r : Req) (s : State) : Res × State :=
  let ford := bit r.arg0 15
  let id := r.arg0 % 8192
  let ok := if ford then decide (id < 4096) && bit (fordEntry id s).flags 0 else bit (reachEntry id s).flags 0
  if !ok then (refuse 0x02, s)
  else
    let a := if ford then fordAddr id else reachAddr id + 8
    let f := (byteAt s.mem a).toNat
    let s := memWrite a (leBytes 1 (setBits f (if ford then 1 else 3) 1 r.arg1)) 8 s
    ({ status := 0 }, raise 90 (reviewBlocks now (fun c => c.ford == ford && c.id == id) s))

/-! ### Taking a request (R101, R109, R117, R123) -/

/-- CLM enters FAULT on an uncorrectable word of its tables (Table CLM-6). -/
def clmFault (s : State) : State :=
  if clmState s = 0 ∨ clmState s = 4 then s
  else
    let s := setClm { s.clm with claims := s.clm.claims.map (fun p =>
      (p.1, if p.2.st = .active ∨ p.2.st = .overdue ∨ p.2.st = .cutHeld then p.2 else { p.2 with st := .blocked })) } s
    raise 93 (report 0x0813 0 (enterClm 4 s))

/-- The table words a request makes CLM read. -/
def reqReads (r : Req) : List (Nat × Nat) :=
  (machAddr (r.owner % 2048), 8) :: r.els.map (fun e => if e.ford then (fordAddr (e.id % 4096), 32) else (reachAddr e.id, 32))

/-- CLM's S-class fields commit at a request boundary (R124). -/
def commitBlk (b : Nat) (s : State) : State :=
  let mine := s.held.filter (fun p => p.1 / 0x100000000 == b)
  mine.foldl (fun s p => wr ⟨b, p.1 % 0x100000000, 32, 0⟩ p.2 { s with held := tdel p.1 s.held }) s

/-- One request, checked in ns; via is the cascade member it came from. -/
def takeReq (r : Req) (ns : Nat) (via : Option Nat) (s : State) : State :=
  let s := commitBlk 8 (count CLM_CNT_REQ 1 s)
  let s := if rd CLM_LAT_MAX s < ns then wr CLM_LAT_MAX (min ns 0xFFFF) s else s
  let now := claimTime s
  if !wellFormed r then clmResult via r ns (refuse 0x01) s
  else
    let rr := clmReads (reqReads r) s
    let s := if rr.1 then rr.2 else clmFault rr.2
    if clmState s = 3 ∧ (r.op = 1 ∨ r.op = 2) then clmResult via r ns (refuse 0x0E) s
    else if ¬(clmState s = 2 ∨ (clmState s = 3 ∧ r.op = 3)) then clmResult via r ns (refuse 0x0F) s
    else
      let m := latchMach (r.owner % 2048) s
      match r.op with
      | 1 => let x := extendReq now r via m.1 m.2; clmResult via r ns x.1 x.2
      | 2 => let x := placeReq now r via m.1 m.2; clmResult via r ns x.1 x.2
      | 3 => let x := shortenReq ns r m.1 m.2; match x.1 with | some y => clmResult via r ns y x.2 | none => x.2
      | 4 => let x := releaseReq ns r via m.1 m.2; match x.1 with | some y => clmResult via r ns y x.2 | none => x.2
      | _ => let x := setReachReq now r s; clmResult via r ns x.1 x.2

/-- CLM takes the record at the head of its request flume, when its OP is op or none of Table CLM-9; a tributary forwards it to the headwater instead, except in ISOLATED. -/
def clmTake (op ns : Nat) (s : State) : State :=
  let f := rd CLM_FLUME_REQ s
  if !on CLM_CTRL_EN s || !inRun s then s
  else
    match enginePeek f s with
    | none => s
    | some w =>
      let o := w.toNat % 256
      if o ≠ op ∧ 1 ≤ o ∧ o ≤ 5 then s
      else
        match engineTake f s with
        | (none, s) => s
        | (some (ws, whole), s) =>
          let r := reqOf ws whole
          if isTributary s && clmState s == 2 && wellFormed r then
            emit (.cas none (.request (ownModule s) ws)) (setClm { s.clm with forwarded := s.clm.forwarded ++ [(r.owner, r.tag, r.op)] } s)
          else takeReq r ns none s

/-! ### States and commands (Table CLM-6, R100, R117) -/

def clmCmdDone (cmd status error : Nat) (s : State) : State := cmdRes 8 0 0x0C 92 cmd status error s

/-- Ticks and requests start afresh: the claim table emptied. -/
def clearClaims (s : State) : State :=
  let ks := keys s.clm.claims
  let s := setClm { s.clm with claims := [], paths := [], prog := [] } s
  ks.foldl (fun s k => (keys s.pro.chans).foldl (fun s n => claimCut k (ownerOf n s) s) s) s

/-- MAP_LOAD. -/
def mapLoad (s : State) : State :=
  if clmState s ≠ 1 then clmCmdDone 1 4 0x08F4 s
  else
    let used := ((List.range 8192).filter (fun n => s.ecc.marks.any (fun m => decide (m.1 / 32 = reachAddr n / 32)))).map (fun n => (reachAddr n, 32)) ++
      ((List.range 4096).filter (fun n => s.ecc.marks.any (fun m => decide (m.1 / 32 = fordAddr n / 32)))).map (fun n => (fordAddr n, 32))
    let rr := if s.ecc.marks.isEmpty then (true, s) else clmReads used s
    if !rr.1 then clmCmdDone 1 4 0x08F4 (clmFault rr.2)
    else
      let s := note (.record 2 1 81 0 (leBytes 4 (rd CLM_MAP_SERIAL_SERIAL rr.2) ++ leBytes 20 0)) rr.2
      match mapError s with
      | some (kind, row, n) =>
        clmCmdDone 1 4 0x0811 (wr CLM_MAP_ERR_KIND kind (wr CLM_MAP_ERR_CHECK row (wr CLM_MAP_ERR_ID n s)))
      | none => clmCmdDone 1 0 0 (enterClm 2 s)

/-- MAP_UNLOAD. -/
def mapUnload (s : State) : State :=
  if clmState s ≠ 2 then clmCmdDone 2 4 0x08F4 s
  else if !s.clm.claims.isEmpty then clmCmdDone 2 4 0x0812 s
  else clmCmdDone 2 0 0 (enterClm 1 s)

/-- CLM_CTRL.EN is set. -/
def clmOn (s : State) : State := if on CLM_CTRL_EN s then s else enterClm 1 (wr CLM_CTRL_EN 1 s)

/-- CLM_CTRL.EN is cleared: the waiting requests end ABANDONED with 0x0815, then the claim table is cleared (R117). -/
def clmOff (s : State) : State :=
  if !on CLM_CTRL_EN s then s
  else
    let s := s.clm.waits.foldl (fun s w =>
      clmResult (memberOf w.owner s) { op := w.op, count := 0, owner := w.owner, tag := w.tag, arg0 := 0, arg1 := 0, els := [], whole := true } w.ns { status := 3, error := 0x0815 } s)
      (setClm { s.clm with waits := [] } s)
    enterClm 0 (clearClaims (wr CLM_CTRL_EN 0 s))

/-! ### The tick (R108) -/

/-- The body of the machine along its path, from its last report: rear and front, none while HPL is unavailable for the clearing test. -/
def bodyAlong (o : Nat) (p : Progress) (s : State) : Int × Int :=
  let h : Int := if p.hpl = 0xFFFF then 0 else 16 * p.hpl
  (-(rearOf o s + h) * fineSt, (frontOf o s + h) * fineSt)

/-- The body range reaches claim c, which starts at distance x: its occupied range, or the ford. -/
def bodyReaches (o : Nat) (p : Progress) (c : Claim) (x : Int) (s : State) : Bool :=
  decide ((if c.ford then x else x - (rearOf o s + margin s) * fineSt) ≤ (bodyAlong o p s).2)

/-- R107: clear of claim c, lying beyond it. -/
def bodyClear (o : Nat) (p : Progress) (c : Claim) (x : Int) (s : State) : Bool :=
  p.hpl != 0xFFFF &&
    decide ((if c.ford then x else x + claimLen c + (frontOf o s + margin s) * fineSt) < (bodyAlong o p s).1)

/-- The claim's leave time has passed. -/
def leavePassed (now : Nat) (c : Claim) : Bool := !c.open_ && decide (relTime now c.leave < 0)

/-- The lapse rule (R119) for claim k of owner o. -/
def lapse (k o : Nat) (s : State) : State :=
  let l := pathSpans o (planAt o s) s
  let later := (l.dropWhile (fun y => y.1 != k)).map (fun y => (y.1, stillReached y.2.1 y.2.2 s))
  let on_ := (tfind o s.clm.prog).bind (fun p => match claim? p.claim s with
    | some c => if c.owner = o ∧ (c.st = .active ∨ c.st = .overdue) then some (p.claim, c) else none
    | none => none)
  let s := match on_ with
    | some (j, c) => strand j (setClaim j { c with open_ := true, st := .active, next := none } s)
    | none => raise 85 (count CLM_CNT_STRANDED 1 s)
  let j := match on_ with | some (j, _) => j | none => k
  clmNote 4 o j 0xFFFF (releaseAll later s).2

/-- The transitions of one claim by progress and time (Table CLM-8); lost says that its owner's module is unreachable (R501). -/
def tickClaim (now o k : Nat) (lost : Bool) (s : State) : State :=
  match claim? k s with
  | none => s
  | some c =>
    let p := if lost then none else tfind o s.clm.prog
    let x := match (pathSpans o (reportedAt o s) s).find? (fun y => y.1 == k) with | some y => y.2.2 | none => 0
    let reached := match p with | some p => bodyReaches o p c x s | none => false
    let clear := match p with | some p => bodyClear o p c x s | none => false
    if lost then
      if leavePassed now c ∧ c.st ≠ .overdue then
        clmNote 1 o k 0xFFFF (raise 82 (count CLM_CNT_OVERDUE 1 (setClaim k { c with st := .overdue, cause := none } s)))
      else s
    else
      match c.st with
      | .granted =>
        if reached then setClaim k { c with st := .active } s
        else if leavePassed now c then lapse k o s else s
      | .blocked => if leavePassed now c then lapse k o s else s
      | .active =>
        if !leavePassed now c then s
        else if clear then freeIt k s
        else clmNote 1 o k 0xFFFF (raise 82 (count CLM_CNT_OVERDUE 1 (setClaim k { c with st := .overdue } s)))
      | .overdue => if clear then clmNote 6 o k 0xFFFF (freeIt k s) else s
      | .cutHeld => s

/-- R118: the leave time of every OVERDUE claim becomes now + HEADWAY. -/
def extendOverdue (now : Nat) (s : State) : State :=
  setClm { s.clm with claims := s.clm.claims.map (fun p =>
    (p.1, if p.2.st = .overdue then { p.2 with leave := closedTime (absTime now (headway s)) } else p.2)) } s

/-- Frees each CUT_HELD claim of owner o whose echo condition holds (R40). -/
def freeEchoed (o : Nat) (s : State) : State :=
  let e := tget 0 o s.clm.echo
  if e = 0 then s
  else
    let ks := (s.clm.claims.filter (fun p => p.2.owner == o && p.2.st == .cutHeld &&
      match p.2.echo with | some c => decide (0 ≤ sgn 32 (e + 2 ^ 32 - c)) | none => false)).map Prod.fst
    ks.foldl (fun s k => clmNote 5 o k 0xFFFF (raise 86 (freeIt k s))) s

/-- An ECHO_CYCLE reaches CLM (R92); 0 echoes nothing. -/
def takeEcho (o cyc : Nat) (s : State) : State :=
  if cyc = 0 then s
  else
    let old := tget 0 o s.clm.echo
    let s := if old = 0 ∨ 0 < sgn 32 (cyc + 2 ^ 32 - old) then setClm { s.clm with echo := tins o cyc s.clm.echo } s else s
    if joinedTrib s then emit (.cas none (.echoes (ownModule s) [(o, cyc)])) s else if clmState s = 4 then s else freeEchoed o s

/-- The module of an owner is unreachable (CAS_STATUS.UNREACH at the headwater). -/
def ownerLost (o : Nat) (s : State) : Bool := o / 256 != ownModule s && bit (rd CAS_STATUS_UNREACH s) (o / 256)

/-- The tick of CLM in RUN, or in ISOLATED for this module's own machines. A tributary in RUN leaves the transitions to the headwater. -/
def clmTick (s : State) : State :=
  let st := clmState s
  if !on CLM_CTRL_EN s || !inRun s || !(st == 2 || st == 3) || (isTributary s && st == 2) then s
  else
    let rr := if s.ecc.marks.isEmpty && s.ecc.badLines.isEmpty then (true, s)
      else clmReads (s.clm.claims.flatMap (fun p => [(claimAddr p.1, 32), if p.2.ford then (fordAddr p.2.id, 32) else (reachAddr p.2.id, 32)])) s
    if !rr.1 then clmFault rr.2
    else
      let s := rr.2
      let now := claimTime s
      let mine := fun (o : Nat) => st == 2 || o / 256 == ownModule s
      let s := (keys s.clm.paths).foldl (fun s o =>
        if mine o then (pathOf o s).foldl (fun s k => tickClaim now o k (ownerLost o s) s) s else s) s
      let s := extendOverdue now s
      let s := reviewBlocks now (fun c => mine c.owner) s
      ((s.clm.claims.map (fun p => p.2.owner)).eraseDups).foldl (fun s o => if mine o then freeEchoed o s else s) s

/-! ### What CLM gives PRO (R121, R122) -/

/-- Claims of the owner's run, in path order: from the present claim on, while neither BLOCKED nor FREE; in FAULT only ACTIVE and OVERDUE ones. -/
def runOf (o : Nat) (s : State) : List (Nat × Claim × Int) :=
  let l := pathSpans o (planAt o s) s
  let l : List (Nat × Claim × Int) := match planAt o s with | some (k, _) => if l.any (fun y => y.1 == k) then l.dropWhile (fun y => y.1 != k) else l | none => l
  l.takeWhile (fun (y : Nat × Claim × Int) => if clmState s = 4 then y.2.1.st == .active || y.2.1.st == .overdue else y.2.1.st != .blocked)

/-- Distance ahead of the end of the run: the TO of its last reach claim. -/
def runEnd (o : Nat) (s : State) : Int :=
  match ((runOf o s).filter (fun y => !y.2.1.ford)).getLast? with
  | some y => y.2.2 + claimLen y.2.1
  | none => 0

/-- How far from the FROM of its claim k an owner's reported control point has driven, along its path. -/
def drivenFrom (k o : Nat) (s : State) : Option Int :=
  if (reportedAt o s).isNone then none else ((pathSpans o (reportedAt o s) s).find? (fun x => x.1 == k)).map (fun x => -x.2.2)

/-- Distance ahead of the follow limit: the nearest leader's reported rear less MARGIN less FRONT, where that lies on a reach of the run; a leader
whose control point has left the shared reach counts by what it has driven past its end (R122). -/
def followLimit (o : Nat) (s : State) : Option Int :=
  if !on CLM_CTRL_FOLLOW s then none
  else
    let ls := (runOf o s).flatMap (fun y =>
      if y.2.1.ford then []
      else (othersOn false y.2.1.id o s).filterMap (fun b =>
        if b.2.st = .active ∧ b.2.dir = y.2.1.dir then
          match drivenFrom b.1 b.2.owner s with
          | some x =>
            let lead := y.2.2 + (b.2.from_ - y.2.1.from_) * sg b.2.dir * fineSt + x
            let lim := lead - (rearOf b.2.owner s + margin s + frontOf o s) * fineSt
            let last : Int := if b.2.dir = 0 then (reachEntry y.2.1.id s).len else 0
            if 0 < lead ∧ lim < y.2.2 + (last - y.2.1.from_) * sg b.2.dir * fineSt then some lim else none
          | none => none
        else none))
    ls.foldl (fun m x => match m with | none => some x | some y => some (min x y)) none

/-- Owners that hold a STRANDED claim. -/
def strandedOwners (s : State) : Nat := (((s.clm.claims.filter (fun p => p.2.stranded)).map (fun p => p.2.owner)).eraseDups).length

/-- The claim entry as the store window and ERD show it (Table CLM-7); a FREE entry reads 0. -/
def claimBytes (k : Nat) (s : State) : List Byte :=
  match claim? k s with
  | none => List.replicate 32 0
  | some c =>
    let st := match c.st with | .granted => 1 | .active => 2 | .overdue => 3 | .blocked => 4 | .cutHeld => 5
    leBytes 2 (c.id + 2 ^ 15 * b2n c.ford) ++ leBytes 1 (c.dir + 2 * st + 16 * b2n c.open_ + 32 * b2n c.stranded) ++ leBytes 1 0 ++
    leBytes 4 (enc 32 c.from_) ++ leBytes 4 (enc 32 c.to_) ++ leBytes 4 c.enter ++ leBytes 4 (if c.open_ then 0xFFFFFFFF else c.leave) ++
    leBytes 2 c.owner ++ leBytes 2 0 ++ leBytes 4 c.tag ++ leBytes 4 (c.next.getD 0xFFFFFFFF)

/-- R98: a store write to the reach or ford table in RUN (and in ISOLATED and FAULT, which keep the tables closed) is discarded and counted. -/
def clmTablesOpen (s : State) : Bool := decide (clmState s ≤ 1)

/-! ### Meanings -/

def execMapLoad (s : State) := run mapLoad s
def execMapUnload (s : State) := run mapUnload s
/-- A store write of n bytes (little-endian value) at offset ofs of the CLM store by the steward: the reach and ford tables as R98 says, the machine table at any time (R99); the claim table is CLM's own. -/
def clmStore (ofs n value : Nat) (s : State) : State :=
  if ofs < 0x60000 ∧ clmTablesOpen s = false then count CLM_CNT_STORE_REFUSED 1 s
  else if ofs + n ≤ 0x80000 then memWrite (clmBase + ofs) (leBytes n value) 16 s
  else s

def execClmStoreWrite (ofs n value : Nat) (s : State) := run (clmStore ofs n value) s
def execClmTick (s : State) := run clmTick s
def execClmExtend (ns : Nat) (s : State) := run (clmTake 1 ns) s
def execClmPlace (ns : Nat) (s : State) := run (clmTake 2 ns) s
def execClmShorten (ns : Nat) (s : State) := run (clmTake 3 ns) s
def execClmRelease (ns : Nat) (s : State) := run (clmTake 4 ns) s
def execSetReach (ns : Nat) (s : State) := run (clmTake 5 ns) s
def execClmDisable (s : State) := run clmOff s
/-- CLM_LAT.CLEAR. -/
def execClmLatClear (s : State) := run (wr CLM_LAT_MAX 0) s

end Sys2Proof.Machine
end

