-- ==== Sys2Proof/Machine/Grid.lean ====
section
/-!
DEFINITION. Sys2Proof/Machine/Grid.lean: where the air cycle places fleet indexes, slots, hops and channels (Tables FLT-1 and FLT-2, R170, R171,
R173, Table AIR-2), as functions of the plan and the overlap group.
-/
namespace Sys2Proof.Machine

def planE (s : State) : Bool := on AIR_CTRL_PLAN s

/-- Members of the overlap group: 1, 2 or 4. -/
def groupN (s : State) : Nat := match rd AIR_CTRL_GROUP s with | 1 => 2 | 2 => 4 | _ => 1

/-- Member number u. -/
def groupU (s : State) : Nat := rd AIR_CTRL_GMEMBER s

/-- Λ, lanes per member (Table AIR-2). -/
def lanesPer (s : State) : Nat := (if planE s then 8 else 16) / groupN s

/-- κ, carriers per member. -/
def carriersPer (s : State) : Nat := max 1 ((if planE s then 2 else 4) / groupN s)

/-- Fleet indexes of this module. -/
def fleetSize (s : State) : Nat := (if planE s then 64 else 256) / groupN s

/-- S, slots in a cycle, and machines in rotation per lane. -/
def slotsPer (s : State) : Nat := if planE s then 9 else 19

/-- Lane of a fleet index (R171). -/
def laneOfIdx (m : Nat) (s : State) : Nat := groupU s * lanesPer s + m % lanesPer s

/-- Regular slot of a fleet index in a cycle. -/
def slotOfIdx (m c : Nat) (s : State) : Nat := (m / lanesPer s + c) % slotsPer s

/-- Carrier and hop of a fleet index's record. -/
def carrierOf (m : Nat) (s : State) : Nat := groupU s * carriersPer s + m % carriersPer s
def hopOf (m : Nat) (s : State) : Nat := m / carriersPer s % 4

/-- Carriers of this module. -/
def carriers (s : State) : List Nat := (List.range (carriersPer s)).map (fun k => groupU s * carriersPer s + k)

/-- Ns of a hop, and slot starts and length in ns from the cycle start. -/
def hopNs (s : State) : Nat := if planE s then 6000000 else 2500000
def slotNs (s : State) : Nat := if planE s then 8000000 else 2000000
def slotsFrom (s : State) : Nat := if planE s then 24000000 else 10000000

/-- Channel index before the permutation P (R170): of an uplink slot and lane, and of a hop and carrier. -/
def upIndex (g sl c : Nat) (s : State) : Nat := if planE s then (g + 5 * sl + 7 * c) % 12 else (g + 5 * sl + 11 * c) % 25
def downIndex (k h c : Nat) (s : State) : Nat := if planE s then (8 + 3 * h + 2 * k + 7 * c) % 12 else (17 + 4 * h + 6 * k + 11 * c) % 25

/-- Owner of spare slot j of lane g in cycle c (R173); none in a contention slot. -/
def spareOwner (g j c : Nat) (s : State) : Option Nat :=
  let own := g - groupU s * lanesPer s
  if planE s then (if j = 0 ∧ c % 2 = 0 then some (own + lanesPer s * (c / 2 % 8)) else none)
  else if j < 2 then some (own + lanesPer s * ((2 * c + j) % 16)) else none

/-- Slot number in cycle c of spare slot j: where m div Λ would be 16 + j in Plan N, 8 in Plan E. -/
def spareSlot (j c : Nat) (s : State) : Nat := ((if planE s then 8 else 16 + j) + c) % slotsPer s

/-- The first cycle, from the present one, whose freeze of hop h lies at or after now (R31: 1.0 ms before the hop). -/
def freezeCycle (h : Nat) (s : State) : Nat :=
  let p : Int := cyclePhase s
  let at0 : Int := h * hopNs s - 1000000
  let k := if p ≤ at0 then 0 else if p ≤ at0 + cycleLen s then 1 else 2
  (cycleNo s + k) % 2 ^ 32

end Sys2Proof.Machine
end

