-- ==== Sys2Proof/Machine/Pro.lean ====
section
/-!
DEFINITION. Sys2Proof/Machine/Pro.lean: PRO's machine channels (05_motion_profiles.md): geometry, segments, limits, the tick, stops, re-anchoring
and the setpoint record.
-/
namespace Sys2Proof.Machine

/-! ### Geometry (Table PRO-2, R129) -/

def geomBase (s : State) : Nat := 0x10000 * rd PRO_GEOM_BASE_ADDR s

/-- The directory entry of a reach: first vertex and count; none when it is not VALID, lies outside the pool, or cannot be read (R326). -/
def geomEntry (reach : Nat) (s : State) : Option (Nat × Nat) × State :=
  let a := geomBase s + 8 * reach
  let r := if s.ecc.marks.isEmpty && s.ecc.badLines.isEmpty then (true, s) else eccRead a 1 9 s
  let m := r.2.mem
  let first := loadLe m a 4
  let cnt := loadLe m (a + 4) 2
  if r.1 && bit (loadLe m (a + 6) 1) 0 && decide (2 ≤ cnt ∧ cnt ≤ 4096 ∧ first + cnt ≤ rd PRO_GEOM_SIZE_VERTS r.2) then (some (first, cnt), r.2) else (none, r.2)

/-- Vertex i of the pool: E, N, STATION. -/
def vertex (i : Nat) (s : State) : Int × Int × Int :=
  let a := geomBase s + 0x10000 + 16 * i
  (sgn 32 (loadLe s.mem a 4), sgn 32 (loadLe s.mem (a + 4) 4), sgn 32 (loadLe s.mem (a + 8) 4))

/-- The point of edge p to q nearest to (e, n): squared distance as a fraction, and station (rounded down). -/
def nearestOn (p q : Int × Int × Int) (e n : Int) : (Int × Int) × Int :=
  let dx := q.1 - p.1
  let dy := q.2.1 - p.2.1
  let len := dx * dx + dy * dy
  let ax := e - p.1
  let ay := n - p.2.1
  let dot := ax * dx + ay * dy
  if len = 0 ∨ dot ≤ 0 then ((ax * ax + ay * ay, 1), p.2.2)
  else if len ≤ dot then (((e - q.1) ^ 2 + (n - q.2.1) ^ 2, 1), q.2.2)
  else
    let cr := ax * dy - ay * dx
    ((cr * cr, len), p.2.2 + (q.2.2 - p.2.2) * dot / len)

/-- Station of (e, n) on a reach: the nearest point of its polyline within 2 m of the station around (anywhere, without one). -/
def project (reach : Nat) (e n : Int) (around : Option Int) (s : State) : Option Int × State :=
  match geomEntry reach s with
  | (none, s) => (none, s)
  | (some (first, cnt), s) =>
    let cands := (List.range (cnt - 1)).map (fun i => nearestOn (vertex (first + i) s) (vertex (first + i + 1) s) e n)
    let cands := match around with
      | none => cands
      | some a => cands.filter (fun c => decide (c.2 - a ≤ 32000 ∧ a - c.2 ≤ 32000))
    let best := cands.foldl (fun (b : Option ((Int × Int) × Int)) c =>
      match b with
      | none => some c
      | some b => if c.1.1 * b.1.2 < b.1.1 * c.1.2 then some c else some b) none
    (best.map Prod.snd, s)

/-! ### Solutions and re-anchoring (R32, R129, R151, R152) -/

/-- Shifts a plan by a measured station and speed difference along its direction. -/
def shiftPlan (d dv : Int) (c : Chan) : Chan :=
  { c with
    st := c.st + d * sg c.dir, odo := c.odo + d, v := max 0 (c.v + dv), delta := c.delta - d, dv := c.dv - dv,
    snaps := c.snaps.map (fun x => if x.reach = c.reach.getD x.reach then { x with st := x.st + d * sg x.dir, v := max 0 (x.v + dv) } else x) }

/-- PRO takes a solution of cycle cyc: HPL (mm), E and N (1/16 mm), VE and VN (1/16 mm/s), against the plan at the start of that cycle (R86, R91). -/
def takeSolution (m cyc hpl : Nat) (e n ve vn : Int) (s : State) : State :=
  match chan? m s with
  | none => s
  | some c =>
    if hpl = 0xFFFF then setChan m { c with hpl := hpl, delta := 0, dv := 0 } s
    else
      match c.reach with
      | none => setChan m { c with hpl := hpl, raw := some (e, n) } s
      | some r =>
        let sn : Snap := (c.snaps.find? (fun x => x.cycle == cyc)).getD { cycle := cyc, reach := r, dir := c.dir, st := c.st, v := c.v }
        match project sn.reach e n (some (sn.st / fineSt)) s with
        | (none, s) => raise 107 (report 0x0909 m (count PRO_CNT_GEOM 1 (setChan m { c with hpl := hpl, raw := some (e, n), delta := 0, dv := 0 } s)))
        | (some p, s) =>
          let v := fineV * (Nat.sqrt (ve * ve + vn * vn).toNat : Int)
          setChan m { c with hpl := hpl, raw := some (e, n), delta := (p * fineSt - sn.st) * sg sn.dir, dv := v - sn.v } s

/-! ### Segments and load records (R131 to R136, Tables PRO-3 to PRO-5) -/

def segOf (b : List Byte) (tag i : Nat) : Seg :=
  { reach := leAt b 0 2 % 8192, dir := leAt b 2 1 % 2, from_ := sgn 32 (leAt b 4 4), to_ := sgn 32 (leAt b 8 4), vseg := leAt b 12 4,
    enter := leAt b 16 4, leave := leAt b 20 4, claim := leAt b 24 4, tag := tag, index := i }

/-- The reserved bits of a descriptor are zero. -/
def segClean (b : List Byte) : Bool := leAt b 0 2 / 2 ^ 13 == 0 && leAt b 2 1 / 2 == 0 && leAt b 3 1 == 0 && leAt b 28 4 == 0

structure Load where
  op : Nat
  chn : Nat
  tag : Nat
  arg : Nat
  segs : List Seg
  ok : Bool
  deriving DecidableEq, Repr

def loadOf (ws : List Word) (whole : Bool) : Load :=
  let b := bytesOf ws
  let n := leAt b 1 1
  let op := leAt b 0 1
  let parts := (List.range n).map (fun i => slice b (16 + 32 * i) 32)
  { op := op, chn := leAt b 2 2, tag := leAt b 4 4, arg := leAt b 8 1,
    segs := parts.zipIdx.map (fun p => segOf p.1 (leAt b 4 4) p.2),
    ok := whole && ws.length == 2 + 4 * n && decide (1 ≤ op ∧ op ≤ 4) && decide (leAt b 2 2 ≤ 263) &&
      (if op = 1 then decide (1 ≤ n ∧ n ≤ 16) else n == 0) && (if op = 3 then decide (leAt b 8 1 < 2) else leAt b 8 1 == 0) &&
      leAt b 9 7 == 0 && parts.all segClean }

/-- R132 for a segment of fleet index m: 0 or the cause. -/
def segCause (m : Nat) (g : Seg) (s : State) : Nat :=
  if (g.to_ - g.from_) * sg g.dir < 0 then 0x05
  else
    match claim? g.claim s with
    | some c =>
      if !c.ford && c.owner == ownerOf m s && c.id == g.reach && c.dir == g.dir && c.st != .cutHeld &&
        decide (0 ≤ (g.from_ - c.from_) * sg g.dir ∧ 0 ≤ (c.to_ - g.to_) * sg g.dir) then 0 else 0x03
    | none => 0x03

/-- The end of a reach that a segment ends at or starts from, as a ford's END. -/
def segEnd (g : Seg) (st : Int) (s : State) : Option Nat :=
  if st = (reachEntry g.reach s).len then some (endId g.reach 1) else if st = 0 then some (endId g.reach 0) else none

/-- R133: g follows p. -/
def segJoins (m : Nat) (p g : Seg) (s : State) : Bool :=
  if p.reach = g.reach ∧ p.claim = g.claim then g.from_ == p.to_ && g.dir == p.dir
  else
    match segEnd p p.to_ s, segEnd g g.from_ s with
    | some a, some b =>
      let path := pathOf (ownerOf m s) s
      let after := (path.dropWhile (· != p.claim)).drop 1
      after.contains g.claim && (List.range 4096).any (fun f => fordOk f s && (usedEnds (fordEntry f s)).contains a && (usedEnds (fordEntry f s)).contains b) && a != b
    | _, _ => g.reach == p.reach && g.from_ == p.to_ && g.dir == p.dir

/-- The cause of the first segment that does not follow on, from segment p or the channel's position. -/
def chainCause (m : Nat) : Seg → List Seg → State → Nat
  | _, [], _ => 0
  | p, g :: t, s => if segJoins m p g s then chainCause m g t s else 0x04

/-- The control point of a channel whose queue is empty, for its first segment (1/16 mm): planned, else measured, else the segment's FROM. -/
def startStation (c : Chan) (g : Seg) (s : State) : Int :=
  match c.reach with
  | some r => if r = g.reach then (c.st + c.delta * sg c.dir) / fineSt else 0x7FFFFFFFFF
  | none =>
    match c.raw with
    | some (e, n) => ((project g.reach e n none s).1).getD g.from_
    | none => g.from_

/-- The first segment of an empty queue must contain the control point's station within TRACK_TOL, at rest (R133). -/
def firstOk (c : Chan) (g : Seg) (s : State) : Bool :=
  let tol : Int := 16 * rd PRO_TRACK_TRACK_TOL s
  let x := startStation c g s
  atRest { v := c.v, a := c.a } && decide (-tol ≤ (x - g.from_) * sg g.dir ∧ -tol ≤ (g.to_ - x) * sg g.dir)

/-- An APPEND on machine channel m (R131). -/
def appendCause (m : Nat) (c : Chan) (segs : List Seg) (s : State) : Nat :=
  match segs.findSome? (fun g => let x := segCause m g s; if x = 0 then none else some x) with
  | some x => x
  | none =>
    let x := match c.queue.getLast?, segs with
      | some p, _ => chainCause m p segs s
      | none, g :: t => if firstOk c g s then chainCause m g t s else 0x04
      | none, [] => 0
    if x ≠ 0 then x else if 16 < c.queue.length + segs.length then 0xF2 else 0

/-- The queue with segments behind it; a channel without a place takes the first segment's. -/
def appendTo (c : Chan) (segs : List Seg) (x : Int) : Chan :=
  let c := match c.queue, segs with
    | [], g :: _ =>
      let c : Chan := if c.reach = some g.reach then { c with dir := g.dir, claim := g.claim, delta := c.delta * sg c.dir * sg g.dir }
        else { c with reach := some g.reach, dir := g.dir, claim := g.claim, st := x * fineSt, delta := 0, dv := 0, snaps := [] }
      if c.mode = ChMode.idle then { c with mode := ChMode.run } else c
    | _, _ => c
  { c with queue := c.queue ++ segs }

/-- A fleet stop is latched: the lane is in LATCHED, RELEASING or FAULT (R216). -/
def stopLatched (s : State) : Bool := decide (2 ≤ rd STP_STATUS_STATE s)

/-- The effect of an operation on an open channel, with an append's cause given: the cause of a refusal, or 0 and the channel. -/
def channelOp (n : Nat) (l : Load) (c : Chan) (appCause : Nat) (s : State) : Nat × State :=
  match l.op with
  | 1 =>
    if appCause ≠ 0 then (appCause, s)
    else
      let x := match l.segs with | g :: _ => startStation c g s | [] => 0
      (0, setChan n (appendTo c l.segs x) s)
  | 2 =>
    if !atRest { v := c.v, a := c.a } then (0x06, s)
    else (0, setChan n { c with queue := [] } (c.queue.foldl (fun s g => segDone n g 2 0 s) s))
  | 3 => (0, if l.arg = 1 then setChan n { c with mode := .stop } s else holdChan n s)
  | _ =>
    let held := decide (n < 256) && !isMember n s
    if (c.mode = .hold ∨ c.mode = .stop) ∧ stopLatched s = false ∧ held = false then
      let c := if c.hpl = 0xFFFF then c else shiftPlan c.delta c.dv c
      (0, setChan n { c with mode := .run } s)
    else (0x06, s)

/-- Completes a load record, and the segments of one that is refused (R136). -/
def loadDone (l : Load) (cause : Nat) (s : State) : State :=
  if cause = 0 then proDone 0 1 l.chn l.tag 0 0xFF s
  else
    let s := raise 106 (count PRO_CNT_LOAD_REFUSED 1 (proDone 4 1 l.chn l.tag (0x900 + cause) 0xFF s))
    l.segs.foldl (fun s g => segDone l.chn g 4 (0x900 + cause) s) s

/-! ### Parameters in use (Table PRO-9, R144, R145) -/

/-- Takes the register limits that may take effect at this tick; in a deceleration ramp a lowered one waits. -/
def takeLimits (n : Nat) (c : Chan) (s : State) : Chan × State :=
  match regLimits n s with
  | (a, d, j, ds, js) =>
    if 5 ≤ c.phase then
      let lower := decide (d < c.dUse ∨ j < c.jUse ∨ ds < c.dsUse ∨ js < c.jsUse)
      let c' := { c with dUse := max c.dUse d, jUse := max c.jUse j, dsUse := max c.dsUse ds, jsUse := max c.jsUse js, deferred := lower }
      if lower && !c.deferred then (c', raise 105 (count PRO_CNT_DEFER 1 s)) else (c', s)
    else
      let c := { c with dUse := d, dsUse := ds, jsUse := js, jUse := if c.deferred ∨ c.phase = 0 then j else c.jUse, deferred := false }
      (if c.phase = 0 ∧ c.queue.isEmpty then { c with aUse := a, jUse := j } else c, s)

/-- The control point enters a segment: A_MAX and J_MAX of the registers apply. -/
def enterSeg (n : Nat) (c : Chan) (s : State) : Chan :=
  match regLimits n s with
  | (a, _, j, _, _) => { c with aUse := a, jUse := if 5 ≤ c.phase then max c.jUse j else j }

/-! ### Limits (R137 to R141, Table PRO-7) -/

/-- Ticks to the second of a channel, and its distance units in 1/16 mm or 1/16 axis step (Table PRO-1). -/
def ticksOf (n : Nat) : Nat := if n < 256 then 1000 else 1000000
def fineOf (n : Nat) : Int := if n < 256 then fineSt else 375000000000000000

/-- Queued segments with the distances ahead at which they start and end, with u distance units to 1/16 mm. -/
def spansBy (u : Int) (c : Chan) : List (Seg × Int × Int) :=
  match c.queue with
  | [] => []
  | g :: t =>
    let d0 := (g.to_ * u - c.st) * sg g.dir
    let s0 := (g.from_ * u - c.st) * sg g.dir
    (t.foldl (fun (acc : List (Seg × Int × Int) × Int) g =>
      let e := acc.2 + (g.to_ - g.from_) * sg g.dir * u
      (acc.1 ++ [(g, acc.2, e)], e)) ([(g, s0, d0)], d0)).1

def segSpans (c : Chan) : List (Seg × Int × Int) := spansBy fineSt c

/-- Speed cap on a segment of a machine channel (R143), in speed units. -/
def capOn (n : Nat) (g : Seg) (s : State) : Int :=
  let v := min (min (rd (PRO_CH_SPEED_V_MAX n) s) 8191) (rd (PRO_CH_SPEED_V_CAP n) s)
  let c : Int := 16 * v
  let c := if g.vseg = 0 then c else min c (max 0 (sgn 32 g.vseg))
  fineV * min c (max 0 (reachEntry g.reach s).speed)

/-- The enabled fences of a reach as station ranges. -/
def fencesOn (reach : Nat) (s : State) : List (Int × Int) :=
  ((List.range 64).filter (fun f => on (PRO_FENCE_CTRL_EN f) s && rd (PRO_FENCE_CTRL_REACH f) s == reach)).map
    (fun f => (rdS (PRO_FENCE_FROM f) s, rdS (PRO_FENCE_TO f) s))

/-- Distance ahead of the fence limit (R138). -/
def fenceLimit (m : Nat) (sp : List (Seg × Int × Int)) (s : State) : Option Int :=
  let o := ownerOf m s
  let ds := sp.flatMap (fun x => (fencesOn x.1.reach s).filterMap (fun f =>
    let near := x.2.1 + ((if x.1.dir = 0 then f.1 else f.2) - x.1.from_) * sg x.1.dir * fineSt
    let far := x.2.1 + ((if x.1.dir = 0 then f.2 else f.1) - x.1.from_) * sg x.1.dir * fineSt
    if 0 ≤ far then some (near - (frontOf o s + margin s) * fineSt) else none))
  ds.foldl (fun m x => match m with | none => some x | some y => some (min x y)) none

/-- The nearest of Table PRO-7's limits but GATE, with its code. -/
def nearestLimit (m : Nat) (sp : List (Seg × Int × Int)) (s : State) : Int × Nat :=
  let o := ownerOf m s
  let q : Int := match sp.getLast? with | some x => x.2.2 | none => 0
  let c := [(q, 0), (runEnd o s, 1)] ++ (match followLimit o s with | some x => [(x, 2)] | none => []) ++
    (match fenceLimit m sp s with | some x => [(x, 3)] | none => [])
  c.foldl (fun b x => if x.1 < b.1 then x else b) (q, 0)

/-- Whole ticks, tn to the second, up to a claim time ahead, rounded up or down. -/
def ticksUntil (tn now t : Nat) (up : Bool) : Nat :=
  let r := (relTime now t).toNat * tn
  if up then (r + 999999) / 1000000 else r / 1000000

/-- A FROM at distance x with a T_ENTER still to come, not waived (R139, R450). -/
def enterDue (waive : Bool) (now : Nat) (x : Seg × Int × Int) : Bool := decide (0 < relTime now x.1.enter) && !(waive && x.1.enter == 0)

/-- The next FROM: the first ahead, or the one the control point stands on while its T_ENTER is still to come. -/
def nextFrom (waive : Bool) (now : Nat) (sp : List (Seg × Int × Int)) : Option (Seg × Int × Int) :=
  sp.find? (fun x => decide (0 < x.2.1) || (x.2.1 == 0 && enterDue waive now x))

/-- R139, R140: the cruise speed for the next FROM with its T_ENTER, and the distance of the first FROM that even 1 mm/s would beat, at tn ticks to
the second; with waive a T_ENTER of 0 says nothing (R450). -/
def gateSpeedBy (tn : Nat) (waive : Bool) (c : Chan) (sp : List (Seg × Int × Int)) (now : Nat) (vc : Int) (a d j : Nat) : Int × Option Int :=
  let k : Kin := { v := c.v, a := c.a }
  let mm : Int := 2 * tn * tn
  let ok := fun (x : Seg × Int × Int) (u : Int) => decide (runFor (tn * a) (tn * d) j u (ticksUntil tn now x.1.enter true) k 0 ≤ x.2.1)
  let cruise := match nextFrom waive now sp with
    | some x =>
      if enterDue waive now x = false ∨ ok x vc = true ∨ ok x mm = false then vc else mm * greatest (fun u => ok x (mm * u)) 20 1 (vc / mm)
    | none => vc
  (cruise, (sp.find? (fun x => decide (0 ≤ x.2.1) && enterDue waive now x && !ok x mm)).map (fun x => x.2.1))

def gateSpeed (c : Chan) (sp : List (Seg × Int × Int)) (now : Nat) (vc : Int) (a d j : Nat) : Int × Option Int := gateSpeedBy 1000 false c sp now vc a d j

/-- R141 for the present segment and those left behind: some leave time cannot be met. extra is REAR + MARGIN, vmax the cap here. -/
def lateBy (tn : Nat) (extra vmax : Int) (c : Chan) (sp : List (Seg × Int × Int)) (gate : Option Int) (lim : Int) (now : Nat) (a d j : Nat) : Bool :=
  let k : Kin := { v := c.v, a := c.a }
  let ahead := match sp with | x :: _ => if x.1.leave = 0xFFFFFFFF then [] else [(x.2.2 + extra, x.1.leave)] | [] => []
  let items := c.watch.map (fun w => (w.1 - c.odo, w.2)) ++ ahead
  items.any (fun x =>
    decide (0 < x.1) &&
      (c.mode != .run || decide (lim < x.1) || gate.isSome ||
        decide (runFor (tn * a) (tn * d) j vmax (ticksUntil tn now x.2 false) k 0 < x.1)))

def isLate (m : Nat) (c : Chan) (sp : List (Seg × Int × Int)) (gate : Option Int) (lim : Int) (now : Nat) (a d j : Nat) (s : State) : Bool :=
  lateBy 1000 ((rearOf (ownerOf m s) s + margin s) * fineSt) (match c.queue with | g :: _ => capOn m g s | [] => 0) c sp gate lim now a d j

/-! ### The tick (R137, R142, R143, R146) -/

/-- A channel at rest less than 1/32 mm short of the TO ahead stands at it: stations are whole sixteenths. -/
def snapTo (u : Int) (g : Seg) (c : Chan) : Chan :=
  let short := (g.to_ * u - c.st) * sg g.dir
  if atRest { v := c.v, a := c.a } ∧ 0 < short ∧ 2 * short < u then { c with st := g.to_ * u, odo := c.odo + short } else c

/-- After a tick: segments passed are completed and the next ones entered (R134); fuel bounds the queue. -/
def passSegs (n : Nat) : Nat → Chan → State → Chan × State
  | 0, c, s => (c, s)
  | f + 1, c, s =>
    match c.queue with
    | [] => (c, s)
    | g :: t =>
      let c := snapTo (fineOf n) g c
      let beyond := (c.st - g.to_ * fineOf n) * sg g.dir
      if beyond < 0 ∨ (t.isEmpty ∧ atRest { v := c.v, a := c.a } = false) then (c, s)
      else
        let extra := if n < 256 then (rearOf (ownerOf n s) s + margin s) * fineSt else 0
        let c := { c with queue := t, watch := if g.leave = 0xFFFFFFFF then c.watch else c.watch ++ [(c.odo - beyond + extra, g.leave)] }
        let s := segDone n g 0 0 s
        match t with
        | [] => (c, s)
        | h :: _ =>
          let c := enterSeg n { c with reach := some h.reach, dir := h.dir, claim := h.claim, st := h.from_ * fineOf n + beyond * sg h.dir } s
          let s := if t.length = rd PRO_QUEUE_LOW s ∧ atRest { v := c.v, a := c.a } = false then raise 98 s else s
          passSegs n f c s

/-- One tick of machine channel m. -/
def tickMachine (m : Nat) (s : State) : State :=
  match chan? m s with
  | none => s
  | some c0 =>
    let r := takeLimits m c0 s
    let c := r.1
    let s := r.2
    let c := if atRest { v := c.v, a := c.a } ∧ c.hpl ≠ 0xFFFF ∧ c.reach.isSome then shiftPlan c.delta 0 { c with dv := 0 } else c
    let now := claimTime s
    let d := if c.mode = .stop then c.dsUse else min c.dUse c.dsUse
    let j := if c.mode = .stop then c.jsUse else min c.jUse c.jsUse
    let a := c.aUse
    let sp := segSpans c
    let lk : Int × Nat := if c.reach.isNone then (0, 0) else
      match nearestLimit m sp (setChan m c s) with | x => x
    let running := decide (c.mode = .run) && !sp.isEmpty
    let cap := match c.queue with | g :: _ => capOn m g s | [] => 0
    let gv : Int × Option Int := if running then gateSpeed c sp now cap a d j else (0, none)
    let lim : Int × Nat := match gv.2 with | some g => if g < lk.1 then (g, 4) else lk | none => lk
    let k : Kin := { v := c.v, a := c.a }
    let breach := !atRest k && c.mode != .stop && !rampFits (1000 * d) j 0 k lim.1
    let hard := breach && !rampFits (1000 * c.dsUse) c.jsUse 0 k lim.1
    let c := if hard then { c with mode := .stop } else c
    let s := if hard then raise 100 (report 0x0908 m (count PRO_CNT_BREACH 1 s)) else s
    let d := if breach then c.dsUse else d
    let j := if breach then c.jsUse else j
    let joints := (sp.drop 1).filterMap (fun x => if x.2.1 < lim.1 ∧ capOn m x.1 s < c.v + endLoss j c.a + 2 * c.a + j then some (x.2.1, capOn m x.1 s) else none)
    let vc : Int := if decide (c.mode = .run) && !hard then (if running then gv.1 else 0) else 0
    let targets := if c.mode = .run ∧ !hard then (lim.1, 0) :: joints else []
    let a2 := planTick (1000 * a) (1000 * d) j targets vc k
    let q := tickKin k a2
    let moved := q.2
    let wasMoving := !atRest k
    let c := { c with v := q.1.v, a := q.1.a, phase := phaseOf k a2, st := c.st + moved * sg c.dir, odo := c.odo + moved, lim := lim.1 - moved, kind := lim.2 }
    let r := passSegs m 17 c s
    let c := { r.1 with watch := r.1.watch.filter (fun w => decide (r.1.odo < w.1)) }
    let s := r.2
    let s := if wasMoving && atRest { v := c.v, a := c.a } && (c.mode == .hold || c.mode == .stop) then raise 102 s else s
    let late := isLate m c (segSpans c) gv.2 lk.1 now a d j s
    let s := if late && !c.late then raise 99 (report 0x0907 m (count PRO_CNT_LATE 1 (setRunBit PRO_LATE m true s))) else s
    let c := { c with late := late }
    let s := if c.cut then setClm { s.clm with claims := s.clm.claims.map (fun p =>
        (p.1, if p.2.owner = ownerOf m s ∧ p.2.st = .cutHeld ∧ p.2.echo = none then { p.2 with echo := some (freezeCycle (hopOf m s) s) } else p.2)) } s else s
    let c := { c with cut := false }
    let s := setChan m c s
    match c.reach with
    | none => s
    | some _ =>
      let p : Progress := { claim := c.claim, station := (c.st + c.delta * sg c.dir) / fineSt, hpl := c.hpl }
      setClm { s.clm with prog := tins (ownerOf m s) p s.clm.prog } s

/-- The plan at a cycle start is kept for the solutions of that cycle (R86), for the last sixteen cycles. -/
def snapAll (cyc : Nat) (s : State) : State :=
  { s with pro := { s.pro with chans := s.pro.chans.map (fun p => (p.1, match p.2.reach with
      | some r => { p.2 with snaps := ({ cycle := cyc, reach := r, dir := p.2.dir, st := p.2.st, v := p.2.v } : Snap) :: p.2.snaps.take 15 }
      | none => p.2)) } }

/-- PRO runs (Table PWR-1). -/
def proOn (s : State) : Bool := on PRO_CTRL_EN s && inRun s

/-- The tick of every open machine channel (R137); the S-class fields commit first (R163), and a tributary forwards its progress. -/
def proTick (s : State) : State :=
  if !proOn s then s
  else
    let s := commitBlk 9 s
    let s := ((keys s.pro.chans).filter (· < 256)).foldl (fun s m => tickMachine m s) s
    if isTributary s && clmState s == 2 then
      emit (.cas none (.progress (ownModule s) ((s.clm.prog.filter (fun p => p.1 / 256 == ownModule s)).map (fun p => (p.1, p.2.claim, p.2.station, p.2.hpl))))) s
    else s

/-! ### Stops and fences (R138, R148) -/

/-- PRO_STATUS.STATE. -/
def enterPro (st : Nat) (s : State) : State := if rd PRO_STATUS_STATE s = st then s else raise 97 (wr PRO_STATUS_STATE st s)

/-- PRO follows the stop lane while it runs. -/
def showPro (s : State) : State := if on PRO_CTRL_EN s then enterPro (if stopLatched s then 2 else 1) s else s

/-- A stop epoch: every open channel enters STOP (R148). -/
def proStopEpoch (s : State) : State :=
  let s := { s with pro := { s.pro with chans := s.pro.chans.map (fun p => (p.1, { p.2 with mode := .stop })) } }
  if on PRO_CTRL_EN s then raise 103 (enterPro 2 s) else s

/-- A fence is enabled: a machine whose body already overlaps it is held (R138). -/
def fenceEnable (f : Nat) (s : State) : State :=
  let s := wr (PRO_FENCE_CTRL_EN f) 1 s
  let reach := rd (PRO_FENCE_CTRL_REACH f) s
  let lo := rdS (PRO_FENCE_FROM f) s
  let hi := rdS (PRO_FENCE_TO f) s
  ((keys s.pro.chans).filter (· < 256)).foldl (fun s m =>
    match chan? m s with
    | some c =>
      let o := ownerOf m s
      let x := c.st / fineSt
      let b := if c.dir = 0 then (x - rearOf o s, x + frontOf o s) else (x - frontOf o s, x + rearOf o s)
      if c.reach = some reach ∧ b.1 ≤ hi ∧ lo ≤ b.2 then raise 104 (holdChan m s) else s
    | none => s) s

/-! ### The setpoint record (R151, R153 to R156, Table PRO-12) -/

/-- The plan after n further ticks under the limits that hold now: state, distance, and the acceleration at the end of the tick after that. -/
def forecast (am d j : Nat) (targets : List (Int × Int)) (vc : Int) : Nat → Kin → Int → Kin × Int × Int
  | 0, k, x => (k, x, planTick am d j (targets.map (fun t => (t.1 - x, t.2))) vc k)
  | n + 1, k, x =>
    let q := tickKin k (planTick am d j (targets.map (fun t => (t.1 - x, t.2))) vc k)
    forecast am d j targets vc n q.1 (x + q.2)

/-- State and distance at n half ticks, in units of one eighth of a distance unit, one quarter of a speed unit and one half of an acceleration unit. -/
def halfState (f : Nat → Kin × Int × Int) (n : Nat) : Int × Int × Int :=
  match f (n / 2) with
  | (k, x, a2) =>
    if n % 2 = 0 then (8 * x, 4 * k.v, 2 * k.a)
    else (8 * x + 12 * k.v + 6 * k.a + (a2 - k.a), 4 * k.v + 4 * k.a + (a2 - k.a), k.a + a2)

/-- Rounds x / y to the nearest whole number, halves up. -/
def roundDiv (x y : Int) : Int := (2 * x + y) / (2 * y)

/-- The cubic keeps a speed at or above 0 within the window (R155): qv in 0.5 mm/s, qa in 2 mm/s², qj in 16 mm/s³, M windows to the second. -/
def speedOk (qv qa : Int) (mw : Int) (qj : Int) : Bool :=
  decide (0 ≤ qv * mw * mw + 4 * qa * mw + 16 * qj) &&
    (!(decide (0 < qj) && decide (qa < 0) && decide (-(2 * qa * mw) < 16 * qj)) || decide (qa * qa ≤ 4 * qv * qj))

/-- The cubic stays within LIMIT of 8 mm units at the end of the window. -/
def limitOk (qv qa : Int) (mw lim : Int) (qj : Int) : Bool := decide (3 * qv * mw * mw + 6 * qa * mw + 16 * qj ≤ 48 * lim * mw ^ 3)

/-- The start state of a freeze against the plan (R151): the re-anchored channel, and whether it was. -/
def reanchor (c : Chan) (s : State) : Chan × Bool :=
  let off := c.hpl != 0xFFFF && c.reach.isSome &&
    (decide ((16 * rd PRO_TRACK_TRACK_TOL s : Nat) * fineSt < c.delta.natAbs) || decide ((16 * rd PRO_TRACK_SPEED_TOL s : Nat) * fineV < c.dv.natAbs))
  if off then (shiftPlan c.delta c.dv c, true) else (c, false)

/-- The reach, DIR and station (1/16 mm) at a distance ahead of the control point, eighths of a distance unit. -/
def placeAhead (c : Chan) (x8 : Int) : Nat × Nat × Int :=
  let at_ := match (segSpans c).filter (fun y => decide (8 * y.2.1 ≤ x8)) |>.getLast? with
    | some y => (y.1.reach, y.1.dir, 8 * y.1.from_ * fineSt + (x8 - 8 * y.2.1) * sg y.1.dir)
    | none => (c.reach.getD 0, c.dir, 8 * c.st + x8 * sg c.dir)
  (at_.1, at_.2.1, roundDiv at_.2.2 (8 * fineSt))

def modeCode (m : ChMode) : Nat := match m with | .idle => 0 | .run => 1 | .hold => 2 | .stop => 3

/-- The record of fleet index m at the freeze of its hop in cycle cyc; twelve bytes of 0xFF when its channel is not open (R153, R179). -/
def setpoint (m cyc : Nat) (s : State) : List Byte × State :=
  match chan? m s with
  | none => (List.replicate 12 0xFF, s)
  | some c0 =>
    if c0.reach.isNone then (leBytes 12 (modeCode c0.mode * 2 ^ 14), s)
    else
      let ra := reanchor c0 s
      let c := ra.1
      let s := if ra.2 then raise 101 (count PRO_CNT_REANCHOR 1 s) else s
      let h := hopOf m s
      let e := planE s
      let half0 := if e then 14 else if h % 2 = 0 then 7 else 8
      let win := if e then 200 else 100
      let mw : Int := if e then 10 else 20
      let stop := decide (c.mode = .stop)
      let d := 1000 * (if stop then c.dsUse else min c.dUse c.dsUse)
      let j := if stop then c.jsUse else min c.jUse c.jsUse
      let sp := segSpans c
      let cap := match c.queue with | g :: _ => capOn m g s | [] => 0
      let vc : Int := if c.mode = .run ∧ c.queue ≠ [] then (gateSpeed c sp (claimTime s) cap c.aUse (d / 1000) j).1 else 0
      let joints := (sp.drop 1).filterMap (fun x => if x.2.1 < c.lim then some (x.2.1, capOn m x.1 s) else none)
      let targets := if c.mode = .run then (c.lim, 0) :: joints else []
      let f := fun (n : Nat) => forecast (1000 * c.aUse) d j targets vc n { v := c.v, a := c.a } 0
      let p0 := halfState f half0
      let p1 := halfState f (half0 + win)
      let pl := placeAhead c p0.1
      let qv := max 0 (min 16383 (roundDiv p0.2.1 4000000))
      let qa := max (-2048) (min 2047 (roundDiv p0.2.2 4000))
      let room := 8 * c.lim - p0.1
      let lim := max 0 (min 0x3FFF (room / (8 * 128 * fineSt)))
      let dist := (p1.1 - p0.1)
      let qj0 := roundDiv (dist * mw ^ 3 - 8 * 3000000000 * qv * mw ^ 2 - 8 * 6000000000 * qa * mw) (8 * 16000000000)
      let qj0 := max (-2048) (min 2047 qj0)
      let qj1 := if lim = 0x3FFF ∨ limitOk qv qa mw lim qj0 then qj0 else greatest (limitOk qv qa mw lim) 14 (-2048) qj0
      let qj := if speedOk qv qa mw qj1 then qj1 else -(greatest (fun x => speedOk qv qa mw (-x)) 14 (-2047) (-qj1))
      let p2 := halfState f (half0 + 2 * win)
      let coast := on PRO_CTRL_COAST_EN s && decide (c.mode = .run) && p1.2.1 == p2.2.1 && p1.2.2 == 0 && p2.2.2 == 0 &&
        p2.1 - p1.1 == 3 * p1.2.1 * (win : Int) && rampFits (1000 * c.dsUse) c.jsUse 0 { v := p2.2.1 / 4, a := 0 } (c.lim - (p2.1 + 7) / 8)
      let w := pl.1 + 2 ^ 13 * pl.2.1 + 2 ^ 14 * modeCode c.mode + 2 ^ 16 * enc 24 pl.2.2 + 2 ^ 40 * qv.toNat + 2 ^ 54 * enc 12 qa +
        2 ^ 66 * enc 12 qj + 2 ^ 78 * lim.toNat + 2 ^ 92 * b2n coast + 2 ^ 93 * b2n ra.2 + 2 ^ 94 * b2n (c.kind == 2)
      let far := c.odo + c.lim
      let e := tget 0 (ownerOf m s) s.clm.echo
      let recs := (c.recs.filter (fun r => decide (far < r.2) && (e == 0 || decide (0 < sgn 32 (r.1 + 2 ^ 32 - e))))) ++ [(cyc, far)]
      (leBytes 12 w, setChan m { c with recs := recs } s)

/-! ### Meanings -/

def execProTick (s : State) := run proTick s
def execFenceEnable (f : Nat) (s : State) := run (fenceEnable (f % 64)) s

end Sys2Proof.Machine
end

