-- ==== Sys2Proof/Machine/Sol.lean ====
section
/-!
DEFINITION. Sys2Proof/Machine/Sol.lean: SOL (03_central_solve.md): observation payloads (Tables SOL-1 to SOL-8), reference records, fix states (Table SOL-11), input cases (Table SOL-12),
publication (Tables SOL-13, SOL-14), commands. The numbers the float64 filter gives come with the command that ends a slot.
-/
namespace Sys2Proof.Machine

def setSol (x : Sol) (s : State) : State := { s with sol := x }
def filt (m : Nat) (s : State) : Filt := tget {} m s.sol.filt
def setFilt (m : Nat) (f : Filt) (s : State) : State := setSol { s.sol with filt := tset {} m f s.sol.filt } s

/-- SOL runs (Table PWR-1). -/
def solOn (s : State) : Bool := on SOL_CTRL_EN s && inRun s

/-! ### The payload (R64 to R68) -/

/-- One signal of a GNSS block: system, satellite, SIG of Table REF-2, ARC, HALF, C/N0 (0.25 dB-Hz), and whether it has a code. -/
structure PSig where
  sys : Nat
  prn : Nat
  sig : Nat
  arc : Nat
  half : Bool
  cn0 : Nat
  code : Bool
  deriving DecidableEq, Repr

/-- SIG of Table REF-2 for a code within a system (Table SOL-6); none where the table has a dash. -/
def sigCode (sys sig : Nat) : Option Nat :=
  match sys with
  | 0 => some sig
  | 1 => if sig < 2 then some (12 + sig) else none
  | 2 => some (4 + sig)
  | 3 => some (8 + sig)
  | 4 => if sig < 3 then some (14 + sig) else none
  | 5 => if sig = 0 then some 17 else none
  | _ => none

/-- The n bits of a payload from stream bit pos. -/
def streamBits (p : Nat) (pos n : Nat) : Nat := bits p pos n

/-- The signal entries of a group from bit pos: n more, the first one carrying PRF. -/
def readSigs (p sys prn : Nat) : Nat → Bool → Nat → List PSig × Nat
  | 0, _, pos => ([], pos)
  | n + 1, first, pos =>
    let sig := streamBits p pos 2
    let g : PSig := {
      sys := sys, prn := prn, sig := (sigCode sys sig).getD 99, arc := streamBits p (pos + 2) 3, half := bit p (pos + 5),
      cn0 := 80 + 8 * streamBits p (pos + 6) 4, code := first || streamBits p (pos + 10) 12 != 2048 }
    let r := readSigs p sys prn n false (pos + 10 + (if first then 20 else 12) + 20)
    (g :: r.1, r.2)

/-- The satellite groups from bit pos. -/
def readGroups (p : Nat) : Nat → Nat → List PSig × Nat
  | 0, pos => ([], pos)
  | n + 1, pos =>
    let r := readSigs p (streamBits p pos 3) (streamBits p (pos + 3) 6) (streamBits p (pos + 9) 2 + 1) true (pos + 11)
    let q := readGroups p n r.2
    (r.1 ++ q.1, q.2)

structure Payload where
  format : Nat
  flags : Nat
  nsat : Nat
  nmark : Nat
  echo : Nat
  job : Nat
  sigs : List PSig
  stop : Nat
  deriving DecidableEq, Repr

def payloadOf (b : List Byte) : Payload :=
  let c := leAt b 2 1
  let nm := bits c 4 2
  let g := readGroups (ofLe (b.take 168)) (bits c 0 4) (8 * (28 + 8 * nm))
  { format := leAt b 0 1, flags := leAt b 1 1, nsat := bits c 0 4, nmark := nm, echo := leAt b 4 4, job := leAt b 8 4,
    sigs := if leAt b 0 1 = 1 then g.1 else [], stop := if leAt b 0 1 = 1 then g.2 else 8 * (28 + 8 * nm + 20) }

/-- Bytes 0 to 11 are sound (Table SOL-12). -/
def headSound (b : List Byte) : Bool := leAt b 1 1 / 8 == 0 && leAt b 2 1 / 64 == 0 && leAt b 3 1 == 0

/-- The cause that makes a payload bad, or 0 (R64, R633, Table SOL-12). -/
def payloadCause (b : List Byte) : Nat :=
  let p := payloadOf b
  let own := 28 + 8 * p.nmark
  if p.format ≠ 1 ∧ p.format ≠ 2 then 0x01
  else if !headSound b || leAt b 27 1 / 16 != 0 || (List.range p.nmark).any (fun i => leAt b (35 + 8 * i) 1 != 0) then 0x02
  else if 8 * 168 < p.stop ∨ ofLe (b.take 168) / 2 ^ p.stop ≠ 0 then 0x02
  else if p.format = 1 then (if (p.nsat == 0) == bit p.flags 2 then 0 else 0x02)
  else if p.nsat ≠ 0 ∨ bit p.flags 2 = false ∨ 4 < leAt b (own + 14) 1 ∨ leAt b (own + 15) 1 ≠ 0 then 0x02
  else 0

/-! ### Reference records (R77, R635, Table SOL-12) -/

def refRecOf (b : List Byte) : RefRec :=
  let n := leAt b 18 2
  { cycle := leAt b 0 4, missing := bit (leAt b 21 1) 4, holdover := bit (leAt b 21 1) 0, ant := leAt b 20 1, serial := leAt b 16 2,
    sigs := (List.range (min n 192)).map (fun i =>
      let o := 32 + 32 * i
      (leAt b o 1, leAt b (o + 1) 1, leAt b (o + 2) 1, bit (leAt b (o + 3) 1) 3)) }

def enterSol (st : Nat) (s : State) : State := if rd SOL_STATUS_STATE s = st then s else raise 65 (wr SOL_STATUS_STATE st s)

def solError (cause m : Nat) (s : State) : State := report (0x700 + cause) m s

/-- The ambiguities of a filter start anew. -/
def clearAmb (f : Filt) : Filt := { f with arcs := [], conf := 0, fixed := false, ambDue := true }

/-- Every ambiguity of every machine is reset: the reference antenna has changed. -/
def resetAllAmb (s : State) : State :=
  raise 69 (count SOL_CNT_AMB_RESET 1 (setSol { s.sol with filt := s.sol.filt.map (fun p => (p.1, clearAmb p.2)) } s))

/-- A reference record reaches SOL. -/
def takeRef (r : RefRec) (s : State) : State :=
  let changed := match s.sol.ref with | some o => o.ant != r.ant | none => false
  let s := setSol { s.sol with ref := some r } s
  let s := if changed then resetAllAmb s else s
  if r.missing then
    enterSol 2 (if s.sol.missed = some r.cycle then s else raise 72 (solError 0x04 (r.cycle % 65536) (setSol { s.sol with missed := some r.cycle } s)))
  else enterSol 1 s

/-- SOL takes what stands on REF_IN. -/
def takeRefs : Nat → State → State
  | 0, s => s
  | n + 1, s =>
    match engineTake (rd SOL_FLUME_REF_IN s) s with
    | (none, s) => s
    | (some (ws, whole), s) =>
      let b := bytesOf ws
      takeRefs n (if whole && decide (32 ≤ b.length) && !bit (leAt b 21 1) 5 then takeRef (refRecOf b) s else s)

/-- The reference record of the present cycle is usable. -/
def refUsable (cyc : Nat) (s : State) : Bool :=
  match s.sol.ref with
  | some r => r.cycle == cyc && !r.missing && s.sol.missed != some cyc
  | none => false

/-- No record has arrived 3.0 ms after the cycle start. -/
def refMissing (s : State) : State :=
  if !solOn s then s
  else
    let s := takeRefs 64 s
    let c := cycleNo s
    let here := match s.sol.ref with | some r => r.cycle == c | none => false
    if here || s.sol.missed == some c then s
    else enterSol 2 (raise 72 (solError 0x04 (c % 65536) (setSol { s.sol with missed := some c } s)))

/-! ### Site tables (R74, R75, Table SOL-9) -/

/-- A VALID marker entry of an identifier. -/
def markerKnown (id : Nat) (s : State) : Bool :=
  (List.range 4096).any (fun i => let a := 0x41000000 + 32 * i; bit (loadLe s.mem (a + 27) 1) 0 && loadLe s.mem (a + 24) 2 == id)

/-- The machine entry is latched when its VALID is 1. -/
def latchEntry (m : Nat) (s : State) : State :=
  let b := bytesAt s.mem (0x41020000 + 64 * m) 64
  if bit (leAt b 35 1) 0 then setFilt m { filt m s with entry := b } s else s

/-! ### The epoch (R77 to R85) -/

/-- Signals above CN0_MIN and the mask, not excluded, with a counterpart at the reference. -/
def usable (z : Solve) (excl : List (Nat × Nat)) (sigs : List PSig) (r : RefRec) (s : State) : List PSig :=
  sigs.filter (fun g =>
    decide (rd SOL_CTRL_CN0_MIN s ≤ g.cn0) && !(z.low.contains (g.sys, g.prn)) && !(excl.contains (g.sys, g.prn)) &&
      r.sigs.any (fun e => e.1 == g.sys && e.2.1 == g.prn && e.2.2.1 == g.sig))

/-- Double differences of a list of signals: in each system and signal, one fewer than the satellites (R77). -/
def ddCount (l : List PSig) : Nat :=
  l.length - ((l.map (fun g => (g.sys, g.sig))).eraseDups).length

/-- The ambiguities after an epoch's signals (R79): kept while absent for at most 6 epochs and unchanged in ARC. -/
def stepArcs (sigs : List PSig) (old : List (Nat × Nat × Nat × Nat × Nat)) : List (Nat × Nat × Nat × Nat × Nat) :=
  sigs.map (fun g => (g.sys, g.prn, g.sig, g.arc, 0)) ++
    (old.filter (fun a => !(sigs.any (fun g => g.sys == a.1 && g.prn == a.2.1 && g.sig == a.2.2.1)) && decide (a.2.2.2.2 < 6))).map
      (fun a => (a.1, a.2.1, a.2.2.1, a.2.2.2.1, a.2.2.2.2 + 1))

/-- Signals whose ambiguity may be fixed (R78). -/
def fixable (l : List PSig) : List PSig := l.filter (fun g => g.sys != 1 && g.half)

/-- What one epoch gives beside the filter itself. -/
structure Epoch where
  flags : Nat := 0
  error : Nat := 0
  nsat : Nat := 0
  nfix : Nat := 0
  ratio : Nat := 0
  markOk : Nat := 0
  own : Bool := false
  deriving DecidableEq, Repr

def addFlag (i : Nat) (x : Epoch) : Epoch := if bit x.flags i then x else { x with flags := x.flags + 2 ^ i }

def addError (e : Nat) (x : Epoch) : Epoch := if x.error = 0 then { x with error := 0x700 + e } else x

/-- The sightings of an epoch: bit i of the result says that sighting i is accepted; the distinct identifiers accepted. -/
def takeMarks (m : Nat) (b : List Byte) (z : Solve) (n : Nat) (s : State) : (Nat × List Nat) × State :=
  (List.range n).foldl (fun acc i =>
    let id := leAt b (28 + 8 * i) 2
    if !markerKnown id acc.2 then (acc.1, solError 0x07 m acc.2)
    else if z.gated.getD i false then (acc.1, raise 73 (solError 0x08 m (count SOL_CNT_MARK_REJECT 1 acc.2)))
    else ((acc.1.1 + 2 ^ i, if acc.1.2.contains id then acc.1.2 else id :: acc.1.2), acc.2)) ((0, []), s)

def setState (m st : Nat) (s : State) : State :=
  let f := filt m s
  let s' := setFilt m { f with st := st } s
  if f.st = st then s' else raise 66 (setRunBit SOL_FIXCHG m true s')

/-- Table SOL-11 for an epoch: validated set, phase and code double differences (none without a GNSS update), distinct markers accepted now, and the age of the last one accepted. -/
def fixState (f : Filt) (gnss : Option (Bool × Nat × Nat)) (marks : Nat) (age : Option Nat) (drAge : Nat) (s : State) : Nat × Bool :=
  let g := match gnss with
    | some (v, ph, cd) => if v then 3 else if 4 ≤ ph then 2 else if 4 ≤ cd then 1 else 0
    | none => 0
  if g ≠ 0 then (g, false)
  else if f.st = 0 then (if 2 ≤ marks then 4 else 0, false)
  else if (match age with | some a => decide (a ≤ rd SOL_MARK_CFG_MARK_AGE s) | none => false) then (4, false)
  else if drAge ≤ rd SOL_MARK_CFG_DR_MAX s then (f.st, true)
  else (0, false)

/-- A RESET_AMB or RESET_ALL waiting for this epoch. -/
def runMachCmd (m : Nat) (s : State) : Nat × State :=
  let f := filt m s
  if f.cmd = 0 then (0, s)
  else
    let s := setFilt m (if f.cmd = 2 then { entry := f.entry, st := f.st, ambDue := true } else { clearAmb f with cmd := 0 }) s
    let s := raise 69 (count SOL_CNT_AMB_RESET 1 s)
    let s := wr SOL_CMD_RES_FLEET m s
    (f.cmd, cmdRes 7 0 0x24 75 f.cmd 0 0 s)

/-- The GNSS update of an epoch (R77 to R80, R84): signals used, and what Table SOL-11 asks of it; none where no update is made. -/
def gnssUpdate (m : Nat) (p : Payload) (z : Solve) (stage : Nat) (x : Epoch) (s : State) : (Option (Bool × Nat × Nat) × Epoch) × State :=
  match s.sol.ref with
  | none => ((none, x), s)
  | some r =>
    let unpaired := p.sigs.filter (fun g => !(r.sigs.any (fun e => e.1 == g.sys && e.2.1 == g.prn && e.2.2.1 == g.sig)))
    let s := count SOL_CNT_UNPAIRED unpaired.length s
    let most := rd SOL_FDE_CFG_EXCL_MAX s
    let depth := if rd SOL_FDE_CFG_DEPTH s = 2 then 2 else 1
    let adopted := decide (z.fde = 1) && decide (1 ≤ z.resolves ∧ z.resolves ≤ most) && decide (1 ≤ z.excl.length ∧ z.excl.length ≤ depth)
    if z.codeFail then ((none, addError 0x03 x), s)
    else if z.fde ≠ 0 ∧ adopted = false then
      let f := filt m s
      let k := f.fails + 1
      let s := raise 68 (count SOL_CNT_FDE_FAIL 1 s)
      let x := addError 0x05 (addFlag 5 x)
      if rd SOL_FDE_CFG_FAIL_RESET s ≤ k then
        ((none, x), raise 69 (count SOL_CNT_AMB_RESET 1 (setFilt m { clearAmb f with fails := 0 } s)))
      else ((none, x), setFilt m { f with fails := k } s)
    else
      let s := if adopted then raise 67 (count SOL_CNT_FDE 1 s) else s
      let x := if adopted then addFlag 4 x else x
      let l := usable z (if adopted then z.excl else []) p.sigs r s
      let f := { filt m s with fails := 0 }
      let f := if bit p.flags 1 then { f with arcs := [], conf := 0, fixed := false } else f
      let f := { f with arcs := stepArcs l f.arcs }
      let most := min z.nfix (ddCount (fixable l))
      let passes := decide (rd SOL_FIX_CFG_RATIO_MIN s ≤ z.ratio) && decide (rd SOL_FIX_CFG_PF_EXP s ≤ z.pfExp) && decide (rd SOL_FIX_CFG_FIX_MIN s ≤ most)
      let f := if f.fixed then (if z.keep then f else { f with fixed := false, conf := 0 })
        else if passes then
          let k := if z.same then f.conf + 1 else 1
          { f with conf := k, fixed := decide (max 1 (rd SOL_FIX_CFG_CONFIRM s) ≤ k) }
        else { f with conf := 0 }
      let valid := f.fixed && decide (stage = 0) && decide (rd SOL_FIX_CFG_FIX_MIN s ≤ most)
      let x := { x with nsat := ((l.map (fun g => (g.sys, g.prn))).eraseDups).length, nfix := if valid then most else 0, ratio := z.ratio }
      let shadow := l.any (fun g => r.sigs.any (fun e => e.1 == g.sys && e.2.1 == g.prn && e.2.2.1 == g.sig && e.2.2.2))
      let x := if shadow then addFlag 9 x else x
      ((some (valid, ddCount l, ddCount (l.filter (fun g => g.code))), x), setFilt m f s)

/-- One epoch of a machine (Tables SOL-11, SOL-12): b is its payload, none when missing; cmd the command executed in it. -/
def epoch (m cyc : Nat) (b : Option (List Byte)) (z : Solve) (stage cmd : Nat) (s : State) : Epoch × State :=
  let s := latchEntry m s
  let refOk := refUsable cyc s
  let x : Epoch := {}
  let x := if (filt m s).ambDue then addFlag 7 x else x
  let s := setFilt m { filt m s with ambDue := false } s
  let x := if refOk then x else addFlag 3 x
  let x := match s.sol.ref with | some r => if r.holdover then addFlag 8 x else x | none => x
  let cause := match b with | some b => payloadCause b | none => 0
  let p := payloadOf (b.getD [])
  let x := if b.isNone then addFlag 0 x else if cause ≠ 0 then addError cause (addFlag 1 x) else x
  let s := if b.isNone then count SOL_CNT_MISSING 1 s else if cause ≠ 0 then raise 71 (count SOL_CNT_BAD 1 s) else s
  let lost := b.isNone || cause != 0
  let bb := b.getD []
  let k := takeMarks m bb z (if lost then 0 else p.nmark) s
  let s := k.2
  let x := { x with markOk := k.1.1 }
  if !lost && p.format == 2 then
    let x := addFlag 6 x
    let st := leAt bb (28 + 8 * p.nmark + 14) 1
    ({ x with own := true }, setState m (if cmd = 2 then 0 else st) (setFilt m { filt m s with drAge := 0 } s))
  else
    let wants := !lost && p.nsat != 0
    let x := if wants && !refOk then addError 0x04 x else x
    let g := if wants && refOk && decide (stage < 2) then gnssUpdate m p z stage x s else ((none, x), s)
    let x := g.1.2
    let s := g.2
    let f := filt m s
    let x := if f.ambDue then addFlag 7 x else x
    let f := { f with ambDue := false }
    let age : Option Nat := if k.1.2 ≠ [] then some 0 else f.marked.map (fun c => (cyc + 2 ^ 32 - c) % 2 ^ 32)
    let dr := f.drAge + 1
    let ns := if cmd = 2 then (0, false) else fixState f g.1.1 k.1.2.length age dr s
    let x := if k.1.1 = 0 then x else addFlag 10 x
    let x := if !lost && bit (leAt bb 27 1) 0 then addFlag 11 x else x
    let updated := g.1.1.isSome || k.1.2 != []
    let x := if (ns.2 || lost || bit x.flags 5) && ns.1 != 0 then addFlag 2 x else x
    let f := { f with drAge := if updated && ns.2 = false then 0 else dr, marked := if k.1.2 ≠ [] then some cyc else f.marked }
    let f := if ns.1 = 0 then { f with drAge := 0, marked := none } else f
    let f := if cmd = 2 then { entry := f.entry, st := f.st } else f
    (x, setState m ns.1 (setFilt m f s))

/-! ### Publication (R82, R83, R89 to R92, R633) -/

/-- sin of 2 pi h / 65536 in units of 2^-60, by the Taylor series after folding into the first half quadrant of each sign. -/
def sin60 (h : Nat) : Int :=
  let q := h % 65536
  let x := if q < 16384 then (q : Int) else if q < 49152 then 32768 - (q : Int) else (q : Int) - 65536
  let t : Int := x * 7244019458077122842 / 65536
  let sq := t * t / 2 ^ 60
  let step := fun (acc : Int × Int) (k : Nat) =>
    let term := -(acc.2 * sq / 2 ^ 60) / ((2 * k) * (2 * k + 1) : Nat)
    (acc.1 + term, term)
  ((List.range 12).foldl (fun acc k => step acc (k + 1)) (t, t)).1

/-- Speed (mm/s) along a heading as a velocity in 1/16 mm/s, to the nearest whole number: east and north. -/
def ownVelocity (heading : Nat) (speed : Int) : Int × Int :=
  (roundDiv (16 * speed * sin60 heading) (2 ^ 60), roundDiv (16 * speed * sin60 (heading + 16384)) (2 ^ 60))

/-- A protection level: K times the deviation plus the slope term (µm), rounded up to mm; unavailable above 65,534 mm (R82, R83). -/
def protect (k sig slope : Nat) : Nat :=
  let mm := (k * sig + 10 * slope + 9999) / 10000
  if 65534 < mm then 0xFFFF else mm

/-- The solution record of an epoch, with HPL, E, N, VE and VN for PRO. -/
def solution (m cyc : Nat) (b : List Byte) (z : Solve) (x : Epoch) (s : State) : List Byte × Nat × Int × Int × Int × Int :=
  let st := (filt m s).st
  let serial := match s.sol.ref with | some r => r.serial | none => 0
  let p := payloadOf b
  let o := 28 + 8 * p.nmark
  let dr := bit x.flags 2
  let hpl := if st = 0 then 0xFFFF else if x.own then leAt b (o + 12) 2 else protect (rd SOL_PL_CFG_K_H s) z.sigMaj (if dr then 0 else z.slopeH)
  let vpl := if st = 0 ∨ x.own then 0xFFFF else protect (rd SOL_PL_CFG_K_V s) z.sigU (if dr then 0 else z.slopeV)
  let ov := ownVelocity (leAt b (o + 16) 2) (sgn 16 (leAt b (o + 18) 2))
  let e := if x.own then 16 * sgn 32 (leAt b o 4) else z.e
  let n := if x.own then 16 * sgn 32 (leAt b (o + 4) 4) else z.n
  let u := if x.own then 16 * sgn 32 (leAt b (o + 8) 4) else z.u
  let ve := if x.own then ov.1 else z.ve
  let vn := if x.own then ov.2 else z.vn
  let vu := if x.own then 0 else z.vu
  let hd := if x.own then leAt b (o + 16) 2 else z.heading
  let sh := if x.own then 0xFFFF else min 0xFFFF (z.sigMaj / 100)
  (leBytes 4 cyc ++ leBytes 1 m ++ leBytes 1 st ++ leBytes 2 x.flags ++ leBytes 2 hpl ++ leBytes 2 vpl ++ leBytes 2 serial ++ leBytes 1 x.nsat ++
    leBytes 1 x.nfix ++ leBytes 8 (enc 64 e) ++ leBytes 8 (enc 64 n) ++ leBytes 8 (enc 64 u) ++ leBytes 4 (enc 32 ve) ++ leBytes 4 (enc 32 vn) ++
    leBytes 4 (enc 32 vu) ++ leBytes 2 hd ++ leBytes 2 sh ++ leBytes 4 z.pubOfs ++ leBytes 2 (min 0xFFFF x.ratio) ++ leBytes 2 x.error,
   hpl, e, n, ve, vn)

/-- The report record of an epoch (Table SOL-14). -/
def reportRec (m cyc : Nat) (b : Option (List Byte)) (x : Epoch) : List Byte :=
  let head := leBytes 4 cyc ++ leBytes 1 m
  match b with
  | none => head ++ leBytes 59 0
  | some b =>
    let p := payloadOf b
    if !headSound b then head ++ leBytes 59 0
    else if payloadCause b ≠ 0 then head ++ leBytes 1 0 ++ slice b 1 1 ++ slice b 0 1 ++ slice b 4 8 ++ leBytes 48 0
    else head ++ leBytes 1 p.nmark ++ slice b 1 1 ++ slice b 0 1 ++ slice b 4 8 ++ slice b 12 16 ++ padTo 24 (slice b 28 (8 * p.nmark)) ++ leBytes 1 x.markOk ++ leBytes 7 0

/-- ECHO_CYCLE of a payload that carries one. -/
def echoOf (b : Option (List Byte)) : Nat := match b with | some b => if headSound b then leAt b 4 4 else 0 | none => 0

/-- Work of one machine added to the last second's (SOL_LOAD): LOAD is 1.95 MFLOP a solve against 128 MFLOP a millisecond. -/
def addWork (solves res : Nat) (s : State) : State :=
  let w := (s.clk.frc, solves, res) :: s.sol.work.filter (fun x => decide (s.clk.frc < x.1 + 500000000))
  let tot := w.foldl (fun a x => (a.1 + x.2.1, a.2 + x.2.2)) ((0, 0) : Nat × Nat)
  let load := (tot.1 + tot.2) * 195 / 12800
  let was := rd SOL_LOAD_LOAD s
  let s := wr SOL_LOAD_LOAD (min load 1023) (wr SOL_LOAD_RESOLVES (min tot.2 0xFFFF) (setSol { s.sol with work := w } s))
  if 800 < load ∧ was ≤ 800 then raise 74 s else s

/-- An epoch solved and published: solution record, PRO's copy, report record, echo (R87, R91, R92). -/
def publish (o : ObsIn) (b : Option (List Byte)) (z : Solve) (stage : Nat) (late : Bool) (s : State) : State :=
  let m := o.fleet
  let c := runMachCmd m s
  let r := epoch m o.cycle b z stage c.1 c.2
  let x := if late then addError 0x06 (addFlag 12 r.1) else r.1
  let s := if late then raise 70 (count SOL_CNT_DEADLINE 1 r.2) else r.2
  let st := (filt m s).st
  let s := setSol { s.sol with tally := (s.sol.tally.1 + 1, s.sol.tally.2.1 + b2n (st == 3), s.sol.tally.2.2 + b2n (st == 4)) } s
  let s := wr SOL_LAT_MAX (max (rd SOL_LAT_MAX s) (min 0xFFFF (z.pubOfs / 1000))) (addWork 1 z.resolves s)
  let rec_ := solution m o.cycle (b.getD []) z x s
  let s := setSol { s.sol with newest := tins m rec_.1 s.sol.newest } s
  let s := (pushBytes (rd SOL_FLUME_SOLN s) rec_.1 s).2
  let s := takeSolution m o.cycle rec_.2.1 rec_.2.2.1 rec_.2.2.2.1 rec_.2.2.2.2.1 rec_.2.2.2.2.2 s
  let s := (pushBytes (rd SOL_FLUME_REPORT s) (reportRec m o.cycle b x) s).2
  takeEcho (ownerOf m s) (echoOf b) s

/-- A frame from a spare slot (R632): its echo, and the filter where nothing of its cycle has updated it. -/
def spareFrame (o : ObsIn) (z : Option Solve) (s : State) : State :=
  let s := takeEcho (ownerOf o.fleet s) (echoOf (some o.payload)) s
  match z with
  | some z => if o.update && payloadCause o.payload == 0 && isMember o.fleet s then (epoch o.fleet o.cycle (some o.payload) z 0 0 s).2 else s
  | none => s

/-- The members whose regular slot in a cycle is sl (R171). -/
def slotMembers (sl cyc : Nat) (s : State) : List Nat :=
  (keys s.air.idx).filter (fun m => isMember m s && slotOfIdx m cyc s == sl)

/-- A slot ends: one record of each kind for each member whose regular slot it is (R87), unless its solution is unfinished. -/
def slotEnd (sl : Nat) (l : List Solve) (s : State) : State :=
  if !solOn s then setSol { s.sol with obs := s.sol.obs.filter (fun o => o.slot != sl) } s
  else
    let s := takeRefs 64 s
    let cyc := cycleNo s
    let s := (slotMembers sl cyc s).foldl (fun s m =>
      match l.find? (fun z => z.fleet == m) with
      | none => s
      | some z =>
        let s := match s.sol.open_.find? (fun o => o.fleet == m) with
          | some o => publish o (if o.payload = [] then none else some o.payload) z 2 true (setSol { s.sol with open_ := s.sol.open_.filter (fun o => o.fleet != m) } s)
          | none => s
        let got := s.sol.obs.find? (fun o => o.fleet == m && o.regular && o.cycle == cyc)
        let o : ObsIn := got.getD { fleet := m, cycle := cyc, slot := sl, regular := true, update := true, payload := [] }
        if z.ready then publish o (got.map ObsIn.payload) z 0 false s
        else setSol { s.sol with open_ := s.sol.open_ ++ [o] } s) s
    let s := (s.sol.obs.filter (fun o => o.slot == sl && !o.regular)).foldl (fun s o => spareFrame o (l.find? (fun z => z.fleet == o.fleet)) s) s
    setSol { s.sol with obs := s.sol.obs.filter (fun o => o.slot != sl) } s

/-- R90: an unfinished solution goes out at its best finished stage. -/
def solDeadline (z : Solve) (stage : Nat) (s : State) : State :=
  match s.sol.open_.find? (fun o => o.fleet == z.fleet) with
  | some o =>
    let s := setSol { s.sol with open_ := s.sol.open_.filter (fun o => o.fleet != z.fleet) } s
    publish o (if o.payload = [] then none else some o.payload) z (min stage 2) true s
  | none => s

/-- At a cycle start: SOL_STATUS shows the cycle now complete, and the S-class fields commit (R94). -/
def solCycle (s : State) : State :=
  let t := s.sol.tally
  let s := wr SOL_STATUS_ACTIVE t.1 (wr SOL_STATUS_FIXED t.2.1 (wr SOL_STATUS_MARKED t.2.2 s))
  commitBlk 7 (setSol { s.sol with tally := (0, 0, 0) } s)

/-! ### Commands (R95, R634) -/

/-- SOL_CMD_RES with its FLEET field, and CMD_DONE. -/
def solCmdDone (m cmd status error : Nat) (s : State) : State := cmdRes 7 0 0x24 75 cmd status error (wr SOL_CMD_RES_FLEET m s)

/-- RESET_AMB (1) or RESET_ALL (2) for a fleet index. -/
def machCmd (cmd m : Nat) (s : State) : State :=
  if !isMember m s then solCmdDone m cmd 4 0x0709 s
  else
    let f := filt m s
    let s := if f.cmd ≠ 0 then solCmdDone m f.cmd 2 0 s else s
    setFilt m { filt m s with cmd := cmd } s

/-- A fleet index becomes GRANTED: its filter is cleared (Table SOL-11); a command still pending ends CANCELLED. -/
def clearFilter (m : Nat) (s : State) : State :=
  let f := filt m s
  let s := if f.cmd ≠ 0 then solCmdDone m f.cmd 2 0 s else s
  setFilt m {} (setState m 0 s)

def execSlotEnd (sl : Nat) (l : List Solve) (s : State) := run (slotEnd sl l) s
def execSolDeadline (z : Solve) (stage : Nat) (s : State) := run (solDeadline z stage) s
def execSolRefMissing (s : State) := run refMissing s
def execResetAmb (fleet : Nat) (s : State) := run (machCmd 1 (fleet % 256)) s
def execResetAll (fleet : Nat) (s : State) := run (machCmd 2 (fleet % 256)) s
def execSolLatClear (s : State) := run (wr SOL_LAT_MAX 0) s

end Sys2Proof.Machine
end

