-- ==== Sys2Proof/Machine/Air.lean ====
section
/-!
DEFINITION. Sys2Proof/Machine/Air.lean: AIR's receiving side (06_fleet_radio.md, 01_fleet_cycle.md): fleet indexes (Table FLT-7), joins, uplink frames and their protection, orders, replies and
acknowledgements, AIR's states and commands.
-/
namespace Sys2Proof.Machine

def setAir (a : Air) (s : State) : State := { s with air := a }

/-! ### States of AIR (R626) -/

/-- The burst on air has not ended. -/
def bursting (s : State) : Bool := match s.air.burstEnd with | some e => decide (siteNs s < e) | none => false

/-- Table AIR-16. -/
def airStateNow (s : State) : Nat :=
  if !on AIR_CTRL_EN s then 0
  else if !s.air.calDone then 1
  else if bursting s then 4
  else if inRun s && s.clk.siteSet && on AIR_CTRL_TX_EN s && !s.air.withheld then 2
  else 3

/-- AIR_STATUS follows what it reports. -/
def airRefresh (s : State) : State :=
  let s := wr AIR_STATUS_PERMIT (b2n (on STP_STATUS_PERMIT s && decide (airStateNow s = 2))) s
  if rd AIR_STATUS_STATE s = airStateNow s then s else raise 113 (wr AIR_STATUS_STATE (airStateNow s) s)

/-- AIR receives the slot phase (Tables PWR-1, AIR-16). -/
def receiving (s : State) : Bool := on AIR_CTRL_EN s && on AIR_CTRL_RX_EN s && inRun s && s.air.calDone

/-! ### Fleet indexes (Table FLT-7) -/

def idx? (m : Nat) (s : State) : Option Idx := tfind m s.air.idx

def stCode (i : IdxSt) : Nat := match i with | .granted => 1 | .member => 2 | .silent => 3 | .leaving => 4

/-- AIR_STATUS.MEMBERS and AIR_IDX_STATE_n follow the indexes. -/
def showIdx (m : Nat) (s : State) : State :=
  let v := match idx? m s with | some i => stCode i.st | none => 0
  let r := AIR_IDX_STATE (m / 8)
  wr AIR_STATUS_MEMBERS (s.air.idx.filter (fun p => p.2.st == .member)).length (wr r (setBits (rd r s) (4 * (m % 8)) 4 v) s)

def setIdx (m : Nat) (i : Idx) (s : State) : State := showIdx m (setAir { s.air with idx := tins m i s.air.idx } s)

/-- An index enters a state, with its event. -/
def enterIdx (m : Nat) (st : IdxSt) (event : Nat) (s : State) : State :=
  match idx? m s with
  | some i => raise event (setIdx m { i with st := st } s)
  | none => s

/-! ### Order completions (06_fleet_radio.md, "Orders"; R640) -/

def orderDone (o : Order) (status error cycle : Nat) (s : State) : State :=
  let b := leBytes 1 status ++ leBytes 1 o.kind ++ leBytes 2 o.target ++ leBytes 4 o.tag ++ leBytes 2 error ++ leBytes 2 0 ++ leBytes 4 cycle
  let s := (pushBytes (rd AIR_FLUME_DONE s) b s).2
  if status = 1 then raise 123 (count AIR_CNT_ORDER_FAILED 1 s) else s

/-- Takes an order out of the list and out of the items. -/
def dropOrder (o : Order) (s : State) : State :=
  setAir { s.air with orders := s.air.orders.filter (fun x => x != o), items := s.air.items.filter (fun i => i != { target := o.target, kind := .order o.num }) } s

/-- Every order of a target completes CANCELLED (R640). -/
def cancelOrders (target : Nat) (s : State) : State :=
  (s.air.orders.filter (fun o => o.target == target)).foldl (fun s o => orderDone o 2 0x0A0F (cycleNo s) (dropOrder o s)) s

/-- A fleet index returns to FREE. -/
def freeIdx (m : Nat) (s : State) : State :=
  let s := cancelOrders m s
  let s := closeChan m s
  showIdx m (setAir { s.air with idx := tdel m s.air.idx, items := s.air.items.filter (fun i => i.target != m) } s)

/-- The owner holds a claim (R38). -/
def ownerHolds (o : Nat) (s : State) : Bool := s.clm.claims.any (fun p => p.2.owner == o)

/-! ### Uplink frames (R177, R185, R188, R628, R630) -/

structure Up where
  kind : Nat
  ver : Nat
  flags : Nat
  source : Nat
  cycle : Nat
  fcnt : Nat
  site : Nat
  bkey : Nat
  deriving DecidableEq, Repr

def upOf (b : List Byte) : Up :=
  { kind := leAt b 0 1 % 16, ver := leAt b 0 1 / 16, flags := leAt b 1 1, source := leAt b 2 2, cycle := leAt b 4 4, fcnt := leAt b 8 4,
    site := leAt b 12 2, bkey := leAt b 14 1 }

/-- The nonce of an uplink frame (R185). -/
def upNonce (u : Up) : List Byte := leBytes 1 1 ++ leBytes 2 u.source ++ leBytes 4 u.fcnt ++ leBytes 4 u.cycle ++ leBytes 2 0

/-- The EUI-64 whose link key protects a frame that is not a join; none where SOURCE names no joined index (R630). -/
def sourceEui (source : Nat) (s : State) : Option (List Byte) :=
  if bit source 15 then (tfind (source % 512) s.wkr.ptr).map Ptr.eui
  else if source % 2 ^ 15 < fleetSize s then (idx? (source % 2 ^ 15) s).map Idx.eui
  else none

/-- The payload of a frame under a link key, when its MIC holds: decrypted, or of a join as it stands. -/
def openUp (eui : List Byte) (join : Bool) (b : List Byte) (s : State) : Option (List Byte) :=
  let u := upOf b
  let head := b.take 16
  let body := slice b 16 168
  let mic := slice b 184 8
  match linkKey eui s with
  | none => none
  | some k => if join then (ccmOpen 8 k (upNonce u) (head ++ body) [] mic).map (fun _ => body) else ccmOpen 8 k (upNonce u) head body mic

/-- A frame is dropped: counted, its error recorded (R21, R562). -/
def airDrop (f : Fld) (cause source : Nat) (s : State) : State := report (0xA00 + cause) source (count f 1 s)

/-- The sync word ended inside the window of R177: off is its distance from the nominal instant (ns). -/
def inTime (off : Int) (s : State) : Bool := decide (off.natAbs ≤ (if planE s then 100000 else 40000))

/-- The lane is one of this module's and the slot one of the plan's. -/
def ownLane (lane sl : Nat) (s : State) : Bool :=
  decide (groupU s * lanesPer s ≤ lane ∧ lane < (groupU s + 1) * lanesPer s) && decide (sl < slotsPer s)

/-- The contention slot of a cycle, if it has one. -/
def contentionSlot (c : Nat) (s : State) : Option Nat :=
  if planE s then (if c % 2 = 1 then some (spareSlot 0 c s) else none) else some (spareSlot 2 c s)

def isRegular (m lane sl c : Nat) (s : State) : Bool := laneOfIdx m s == lane && slotOfIdx m c s == sl

def isSpare (m lane sl c : Nat) (s : State) : Bool :=
  (List.range (if planE s then 1 else 2)).any (fun j => spareSlot j c s == sl && spareOwner lane j c s == some m)

/-- The duplicate filter of R188: 0 NEW, 1 DUPLICATE, 2 STALE, with TOP and window after it. -/
def dupFilter (top win fcnt : Nat) : Nat × Nat × Nat :=
  let d := sgn 32 (fcnt + 2 ^ 32 - top)
  if 0 < d then (0, fcnt, ((if 64 ≤ d then 0 else win * 2 ^ d.toNat % 2 ^ 64) ||| 1))
  else if d ≤ -64 then (2, top, win)
  else if bit win (-d).toNat then (1, top, win)
  else (0, top, win ||| 2 ^ (-d).toNat)

/-- A record on AIR_FLUME.RX (R645). -/
def rxRecord (source kind type cycle fcnt : Nat) (data : List Byte) (s : State) : State :=
  let b := leBytes 2 source ++ leBytes 1 kind ++ leBytes 1 type ++ leBytes 4 cycle ++ leBytes 4 fcnt ++ leBytes 2 data.length ++ leBytes 2 0 ++ data
  let r := pushBytes (rd AIR_FLUME_RX s) b s
  if r.1 then r.2 else raise 128 (count AIR_CNT_RX_DROP 1 r.2)

def queueItem (i : DItem) (s : State) : State := setAir { s.air with items := s.air.items ++ [i] } s

def ackBody (fcnt result old error : Nat) : List Byte := leBytes 4 fcnt ++ leBytes 1 result ++ leBytes 1 old ++ leBytes 2 error

/-- An ACK to an index: stored unless OLD, and placed from the next cycle on (R190). -/
def sendAck (m fcnt : Nat) (old : Bool) (s : State) : State :=
  match idx? m s with
  | none => s
  | some i =>
    let b := ackBody fcnt 0 (b2n old) 0
    let s := if old then s else setIdx m { i with acks := ((fcnt, b) :: i.acks).take 4 } s
    queueItem { target := m, kind := .ack b } s

/-- The target has not shown the newest broadcast key: a KEY item is due, unless one waits (R192). -/
def offerKey (target shown : Nat) (s : State) : State :=
  match s.key.bkey with
  | some k => if shown = k.1 ∨ s.air.items.contains { target := target, kind := .key } then s else queueItem { target := target, kind := .key } s
  | none => s

/-- The in-flight order of a target: the first whose echo has not arrived (R194). -/
def inFlight (target : Nat) (s : State) : Option Order := s.air.orders.find? (fun o => o.target == target && !o.echoed)

/-- An order echo from a target (R194, R195). -/
def orderEcho (target echo : Nat) (s : State) : State :=
  match inFlight target s with
  | none => s
  | some o =>
    if o.num % 2 ^ 16 ≠ echo then s
    else if bit o.flags 0 then
      setAir { s.air with
        orders := s.air.orders.map (fun x => if x = o then { o with echoed := true } else x),
        items := s.air.items.filter (fun i => i != { target := o.target, kind := .order o.num }) } s
    else orderDone o 0 0 (cycleNo s) (dropOrder o s)

/-- A JOB_REPLY from a target (R195). -/
def jobReply (target num status error : Nat) (s : State) : State :=
  match s.air.orders.find? (fun o => o.target == target && bit o.flags 0 && o.num == num) with
  | some o => orderDone o status error (cycleNo s) (dropOrder o s)
  | none => s

/-- What every valid frame of a fleet index does to it (Table FLT-7): the index as it stands after, with verdict 0 NEW or 1 DUPLICATE. -/
def validFrame (m : Nat) (i : Idx) (u : Up) (regular : Bool) (top win : Nat) (s : State) : State :=
  let i := { i with top := top, win := win, last := cycleNo s, bkey := u.bkey }
  let s := setIdx m i s
  let s := offerKey m u.bkey s
  match i.st with
  | .granted => enterIdx m .member 115 (openChan m s)
  | .silent => if regular then enterIdx m .member 117 (setIdx m { i with rejoin := false } s) else s
  | .leaving => if regular && i.rejoin then enterIdx m .member 117 (setIdx m { i with rejoin := false } s) else s
  | .member => s

/-- An uplink frame from a fleet index as far as it is the same for OBSERVATION and REPLY: the payload, the index number, whether the slot is its regular one, and the verdict, when it passes
MIC, timing, place and filter. -/
def takeUp (kind lane sl : Nat) (off : Int) (b : List Byte) (s : State) : Option (List Byte × Nat × Bool × Nat) × State :=
  let u := upOf b
  if !receiving s || !ownLane lane sl s || u.kind != kind || b.length != 192 then (none, s)
  else
    match sourceEui u.source s with
    | none => (none, airDrop AIR_CNT_RX_UNKNOWN 0x0E u.source s)
    | some eui =>
      match openUp eui false b s with
      | none => (none, raise 121 (airDrop AIR_CNT_RX_MIC 0x01 u.source s))
      | some p =>
        let m := u.source
        match idx? m s with
        | none => (none, airDrop AIR_CNT_RX_TIMING 0x0C u.source s)
        | some i =>
          let c := cycleNo s
          let reg := isRegular m lane sl c s
          let spare := isSpare m lane sl c s
          let place := if kind = 1 then reg || (spare && i.st != .granted) else spare && i.st != .granted
          if !inTime off s || !place then (none, airDrop AIR_CNT_RX_TIMING 0x0C u.source s)
          else
            let f := if i.st = .granted then dupFilter i.join 1 u.fcnt else dupFilter i.top i.win u.fcnt
            if f.1 = 2 then (none, airDrop AIR_CNT_RX_STALE 0x03 u.source s)
            else
              let s := validFrame m i u reg f.2.1 f.2.2 s
              if f.1 = 1 then (some (p, m, reg, 1), raise 122 (airDrop AIR_CNT_RX_DUP 0x02 u.source s))
              else
                let s := count AIR_CNT_RX_OK 1 s
                let s := if bit u.flags 2 then count STP_CNT_WD_TRIP 1 s else s
                (some (p, m, reg, 0), s)

/-- A NEW frame with LEAVE from a MEMBER (Table FLT-7). -/
def leaveFlag (m : Nat) (u : Up) (acked : Bool) (s : State) : State :=
  if bit u.flags 0 && isMember m s then
    let s := holdChan m (enterIdx m .leaving 118 s)
    if acked then s else sendAck m u.fcnt false s
  else s

/-- OBSERVATION_FRAME. -/
def observation (lane sl : Nat) (off : Int) (b : List Byte) (s : State) : State :=
  match takeUp 1 lane sl off b s with
  | (none, s) => s
  | (some (p, m, reg, v), s) =>
    if v = 1 then s
    else
      let c := cycleNo s
      let had := s.sol.obs.any (fun o => o.fleet == m && o.cycle == c) || s.sol.open_.any (fun o => o.fleet == m && o.cycle == c && o.payload != [])
      let o : ObsIn := { fleet := m, cycle := c, slot := sl, regular := reg && !had, update := !had && decide (slotOfIdx m c s < sl), payload := p }
      let s := if isMember m s then setSol { s.sol with obs := s.sol.obs ++ [o] } s else takeEcho (ownerOf m s) (echoOf (some p)) s
      let s := if headSound p then orderEcho m (leAt p 8 2) s else s
      leaveFlag m (upOf b) false s

/-- The reply items of a REPLY payload from position i (R621): each goes to the program whole. -/
def replyItems (m : Nat) (u : Up) (p : List Byte) : Nat → Nat → State → State
  | 0, _, s => s
  | n + 1, i, s =>
    let t := leAt p i 1
    if 168 ≤ i ∨ t = 0 then s
    else
      let len := leAt p (i + 1) 1
      if 168 < i + 2 + len then count AIR_CNT_RX_DROP 1 s
      else
        let s := if t = 1 then jobReply m (leAt p (i + 2) 4) (leAt p (i + 6) 1) (leAt p (i + 8) 2) s else s
        let s := rxRecord m 2 t (cycleNo s) u.fcnt (slice p i (2 + len)) s
        replyItems m u p n (i + 2 + len) s

/-- REPLY_FRAME. -/
def replyFrame (lane sl : Nat) (off : Int) (b : List Byte) (s : State) : State :=
  let u := upOf b
  match takeUp 2 lane sl off b s with
  | (none, s) => s
  | (some (p, m, _, v), s) =>
    if v = 1 then
      match idx? m s with
      | some i =>
        match i.acks.find? (fun a => a.1 == u.fcnt) with
        | some a => queueItem { target := m, kind := .ack a.2 } s
        | none => sendAck m u.fcnt true s
      | none => s
    else leaveFlag m u true (sendAck m u.fcnt false (replyItems m u p 84 0 s))

/-! ### Joins (R34 to R37, R629) -/

/-- A partner has a lane's contention slot of a cycle: by its rendezvous, its fallback, or a call (R174, R202, R206). -/
def holdsSlot (p : Ptr) (c lane : Nat) : Bool :=
  (p.lane == lane && (p.next == c || p.fallback == some c || (match p.began with | some b => b.1 == c | none => false))) || p.callAt == some (c, lane)

def reservedLane (c lane : Nat) (s : State) : Bool := s.wkr.ptr.any (fun q => holdsSlot q.2 c lane)

/-- A frame in a contention slot that no partner has reserved (R628). -/
def contentionOk (lane sl : Nat) (s : State) : Bool :=
  contentionSlot (cycleNo s) s == some sl && !reservedLane (cycleNo s) lane s

/-- The GRANT item after its header, but for its MIC (Table AIR-6). -/
def grantBody (eui : List Byte) (index status lane error first period fcnt : Nat) : List Byte :=
  eui ++ leBytes 2 index ++ leBytes 1 status ++ leBytes 1 lane ++ leBytes 2 error ++ leBytes 4 first ++ leBytes 4 period ++ leBytes 4 fcnt

/-- An item MIC (R186). -/
def itemMic (key : List Byte) (target type nonce : Nat) (ad payload : List Byte) (s : State) : List Byte × List Byte :=
  ccmSeal 4 key (leBytes 1 3 ++ leBytes 2 target ++ leBytes 1 type ++ leBytes 4 nonce ++ leBytes 2 (rd AIR_SITE_SITE_ID s) ++ leBytes 3 0) ad payload

/-- The whole GRANT body with its MIC under the joiner's link key. -/
def grantItem (eui : List Byte) (body : List Byte) (fcnt : Nat) (s : State) : List Byte :=
  let head := leBytes 1 2 ++ leBytes 1 30 ++ leBytes 2 0xFFFF
  body ++ (itemMic ((linkKey eui s).getD []) 0xFFFF 2 fcnt (head ++ body) [] s).2

/-- A join is ignored, or answered REFUSED; INDEX and FIRST, and a partner's LANE and PERIOD, are then free values. -/
def joinIgnored (source : Nat) (s : State) : State := raise 120 (airDrop AIR_CNT_JOIN_IGNORED 0x0B source s)

def joinRefused (partner : Bool) (eui : List Byte) (fcnt error : Nat) (s : State) : State :=
  let s := raise 120 (count AIR_CNT_JOIN_REFUSED 1 s)
  let x := Config.refusedGrant eui fcnt
  let body := grantBody eui (x 0) 4 (if partner then x 2 else 0) error (x 1) (if partner then x 3 else 0) fcnt
  queueItem { target := 0xFFFF, kind := .grant (grantItem eui body fcnt s) none } s

/-- The cycle of a join's FIRST: after every cycle in which its grant may go out (R36). -/
def firstCycle (s : State) : Nat := (cycleNo s + 5) % 2 ^ 32

/-- A grant of fleet index m to the sender of a join (R36, R645). -/
def grantIdx (m : Nat) (p : List Byte) (u : Up) (s : State) : State :=
  let eui := slice p 0 8
  let first := firstCycle s
  let notice := leBytes 2 m ++ leBytes 1 3 ++ leBytes 1 0 ++ leBytes 4 (cycleNo s) ++ leBytes 4 u.fcnt ++ leBytes 2 10 ++ leBytes 2 0 ++ eui ++ leBytes 2 m
  let i : Idx := match idx? m s with
    | some i => { i with first := first, join := u.fcnt, top := u.fcnt, win := 1, rejoin := i.st == .silent || i.st == .leaving }
    | none => { st := .granted, eui := eui, first := first, join := u.fcnt, top := u.fcnt }
  let i := { i with last := if i.st = .granted then cycleNo s else i.last, wdog := leAt p 10 2, dec := leAt p 12 2, jerk := leAt p 14 2, fw := leAt p 16 4 }
  let fresh_ := (idx? m s).isNone
  let s := setIdx m i s
  let s := if fresh_ then clearFilter m s else s
  raise 114 (queueItem { target := 0xFFFF, kind := .grant (grantItem eui (grantBody eui m 0 0 0 first 0 u.fcnt) u.fcnt s) (some notice) } s)

/-- JOIN_FRAME. -/
def joinFrame (lane sl : Nat) (off : Int) (b : List Byte) (s : State) : State :=
  let u := upOf b
  if !receiving s || !ownLane lane sl s || u.kind != 3 || b.length != 192 then s
  else
    let p := slice b 16 168
    let eui := slice p 0 8
    match openUp eui true b s with
    | none => raise 121 (airDrop AIR_CNT_RX_MIC 0x01 u.source s)
    | some p =>
      if !inTime off s || !contentionOk lane sl s then airDrop AIR_CNT_RX_TIMING 0x0C u.source s
      else if !on AIR_CTRL_JOIN_EN s || leAt p 8 1 != 0 || leAt p 9 1 != 1 then joinIgnored u.source s
      else
        match s.site.admitted.find? (fun a => a.1 == eui) with
        | none => joinIgnored u.source s
        | some (_, pin) =>
          match s.air.idx.find? (fun q => q.2.eui == eui) with
          | some (m, i) =>
            let ok := if i.st = .granted then decide (0 < sgn 32 (u.fcnt + 2 ^ 32 - i.join)) else (dupFilter i.top i.win u.fcnt).1 == 0
            if ok then grantIdx m p u (count AIR_CNT_RX_OK 1 s) else raise 120 (count AIR_CNT_JOIN_IGNORED 1 s)
          | none =>
            let s := count AIR_CNT_RX_OK 1 s
            match pin with
            | some m => if fleetSize s ≤ m ∨ (idx? m s).isSome then joinRefused false eui u.fcnt 0x0A06 s else grantIdx m p u s
            | none =>
              match (List.range (fleetSize s)).find? (fun m => (idx? m s).isNone) with
              | some m => grantIdx m p u s
              | none => joinRefused false eui u.fcnt 0x0AF2 s

/-- GRANT_LAPSE: no valid frame by FIRST + 4 (R36). -/
def grantLapse (m : Nat) (s : State) : State :=
  match idx? m s with
  | some i => if i.st = .granted ∧ 0 < sgn 32 (cycleNo s + 2 ^ 32 - (i.first + 4) % 2 ^ 32) then raise 119 (count AIR_CNT_GRANT_LAPSED 1 (freeIdx m s)) else s
  | none => s

/-- INDEX_SILENT: 40 consecutive cycles without a valid frame (R38). -/
def indexSilent (m : Nat) (s : State) : State :=
  match idx? m s with
  | some i => if i.st = .member ∧ 40 < sgn 32 (cycleNo s + 2 ^ 32 - i.last) then holdChan m (enterIdx m .silent 116 s) else s
  | none => s

/-! ### Commands and orders (R193 to R195, R210, R640) -/

def airCmdDone (m cmd status error : Nat) (s : State) : State := cmdRes 10 0 0x20 129 cmd status error (wr AIR_CMD_RES_INDEX m s)

def releaseIndex (m : Nat) (s : State) : State :=
  match idx? m s with
  | some i =>
    if i.st ≠ .silent ∧ i.st ≠ .leaving then airCmdDone m 1 4 0x0A06 s
    else if ownerHolds (ownerOf m s) s then airCmdDone m 1 4 0x0A0A s
    else airCmdDone m 1 0 0 (freeIdx m s)
  | none => airCmdDone m 1 4 0x0A06 s

def cancelOrdersCmd (m : Nat) (s : State) : State :=
  match idx? m s with
  | some i => if i.st = .granted then airCmdDone m 2 4 0x0A06 s else airCmdDone m 2 0 0 (cancelOrders m s)
  | none => airCmdDone m 2 4 0x0A06 s

/-- The greatest length of an order's DATA in the plan. -/
def orderLimit (s : State) : Nat := if planE s then 28 else 72

/-- A target may take orders: a MEMBER index or a joined partner. -/
def orderTarget (t : Nat) (s : State) : Bool :=
  if bit t 15 then (match tfind (t % 512) s.wkr.ptr with | some p => p.st != .granted | none => false) else isMember t s

/-- ORDER_RECORD: the next record on AIR_FLUME.ORD (R193). -/
def orderRecord (s : State) : State :=
  if !on AIR_CTRL_EN s then s
  else
    match engineTake (rd AIR_FLUME_ORD s) s with
    | (none, s) => s
    | (some (ws, whole), s) =>
      if !whole then s
      else
        let b := bytesOf ws
        let len := leAt b 14 1
        let c := cycleNo s
        let o : Order := {
          target := leAt b 0 2, kind := leAt b 2 1, flags := leAt b 3 1, num := leAt b 4 4, tag := leAt b 8 4,
          due := (c + max 1 (leAt b 12 2)) % 2 ^ 32, data := padTo len (slice b 16 len), echoed := false }
        let e := if !orderTarget o.target s then 0x0A06
          else if orderLimit s < len then 0x0A05
          else if 8 ≤ (s.air.orders.filter (fun x => x.target == o.target)).length then 0x0AF2 else 0
        if e ≠ 0 then orderDone o 4 e c s
        else queueItem { target := o.target, kind := .order o.num } (setAir { s.air with orders := s.air.orders ++ [o] } s)

/-- ORDER_DEADLINE: at a cycle start every order whose cycle is reached fails (R195). -/
def orderDeadline (s : State) : State :=
  (s.air.orders.filter (fun o => decide (0 ≤ sgn 32 (cycleNo s + 2 ^ 32 - o.due)))).foldl (fun s o => orderDone o 1 0x0A04 o.due (dropOrder o s)) s

/-! ### Calibration and keys -/

/-- GUARD_CALIBRATION: one lane's step (R41). -/
def guardCal (s : State) : State :=
  let s := if twnRole s = 2 ∧ rd TWN_MIRROR_SIZE s ≠ 0 then
      issue (.region (bytesAt s.mem (4096 * rd TWN_MIRROR_BASE s) (4096 * min 512 (rd TWN_MIRROR_SIZE s)))) s else s
  if on AIR_CTRL_EN s && inRun s then setAir { s.air with calLane := (s.air.calLane + 1) % (if planE s then 8 else 16) } s else s

/-- AIR_CAL_DONE (R626). -/
def calDone (s : State) : State := if on AIR_CTRL_EN s && !s.pwr.off then airRefresh (setAir { s.air with calDone := true } s) else s

/-- BROADCAST_KEY_SWITCH: every MEMBER shows the new key, or 200 cycles have passed since its first KEY item (R192). -/
def keySwitch (s : State) : State :=
  match s.key.bkey with
  | none => s
  | some k =>
    let all := (s.air.idx.filter (fun p => p.2.st == .member)).all (fun p => p.2.bkey == k.1)
    let late := match s.air.keyFrom with | some c => decide (200 ≤ sgn 32 (cycleNo s + 2 ^ 32 - c)) | none => false
    if all || late then setAir { s.air with keyUse := true } s else s

/-- The broadcast key that protects frames now (R192). -/
def txKey (s : State) : Nat × List Byte :=
  match s.key.bkey, s.key.bprev with
  | some k, some p => if s.air.keyUse then k else p
  | some k, none => k
  | none, _ => (0, [])

/-- BROADCAST_KEY_ROTATE: BK_PERIOD hours after the last rotation (R514). -/
def keyRotateDue (s : State) : State :=
  if !on KEY_CTRL_EN s || s.pwr.off then s
  else if siteNs s < s.key.rotated + 3600000000000 * rd KEY_CTRL_BK_PERIOD s ∧ s.key.bkey.isSome then s
  else rotateBkey s

def execGuardCalibration (s : State) := run guardCal s
def execAirCalDone (s : State) := run calDone s
def execObservationFrame (lane sl : Nat) (off : Int) (b : List Byte) (s : State) := run (observation lane sl off b) s
def execReplyFrame (lane sl : Nat) (off : Int) (b : List Byte) (s : State) := run (replyFrame lane sl off b) s
def execJoinFrame (lane sl : Nat) (off : Int) (b : List Byte) (s : State) := run (joinFrame lane sl off b) s
def execGrantLapse (m : Nat) (s : State) := run (grantLapse (m % 256)) s
def execIndexSilent (m : Nat) (s : State) := run (indexSilent (m % 256)) s
def execReleaseIndex (m : Nat) (s : State) := run (releaseIndex (m % 256)) s
def execCancelOrders (m : Nat) (s : State) := run (cancelOrdersCmd (m % 256)) s
def execOrderRecord (s : State) := run orderRecord s
def execOrderDeadline (s : State) := run orderDeadline s
def execBroadcastKeyRotate (s : State) := run keyRotateDue s
def execBroadcastKeySwitch (s : State) := run keySwitch s

end Sys2Proof.Machine
end

