-- ==== Sys2Proof/Machine/Axs.lean ====
section
/-!
DEFINITION. Sys2Proof/Machine/Axs.lean: AXS (14_local_axes_and_io.md): the local axes, their channels 256 to 263 in PRO, the step generator, limits and homing,
and the load records of every channel (Tables PRO-3, PRO-5).
-/
namespace Sys2Proof.Machine

def axis (n : Nat) (s : State) : Axis := tget {} n s.axs.axes
def setAxis (n : Nat) (a : Axis) (s : State) : State := { s with axs := { s.axs with axes := tset {} n a s.axs.axes } }

/-- STATE of axis n (Table AXS-1). -/
def axisSt (n : Nat) (s : State) : Nat := rd (AXS_STAT_STATE n) s

/-- Axis n enters a state; AXS_STATUS shows it. -/
def enterAxis (n st : Nat) (s : State) : State :=
  if axisSt n s = st then s
  else raise 205 (wr AXS_STATUS_STATE (setBits (rd AXS_STATUS_STATE s) (4 * n) 4 st) (wr (AXS_STAT_STATE n) st s))

def axsCmdDone (n cmd status error : Nat) (s : State) : State := cmdRes 22 0 0x10 212 cmd status error (wr AXS_CMD_RES_AXIS n s)

/-- AXS runs: enabled, and the module in Ready or Run (Table PWR-1). -/
def axsOn (s : State) : Bool := on AXS_CTRL_EN s && awake s

/-- Distance units in one output pulse (R445), and the pulse count nearest a planned position. -/
def pulseUnits (n : Nat) (s : State) : Int := 16 * fineOf 256 / 2 ^ rd (AXS_CFG_SCALE n) s
def pulsesAt (n : Nat) (x : Int) (s : State) : Int := roundDiv x (pulseUnits n s)

/-- PRO STOP on the channel of axis n (R148). -/
def stopAxis (n : Nat) (s : State) : State :=
  match chan? (256 + n) s with
  | some c => setChan (256 + n) { c with mode := .stop } s
  | none => s

/-- The planned position of axis n (distance units). -/
def axisPos (n : Nat) (s : State) : Int := match chan? (256 + n) s with | some c => c.st | none => rdS (AXS_POS n) s * pulseUnits n s

def axisAtRest (n : Nat) (s : State) : Bool := match chan? (256 + n) s with | some c => atRest { v := c.v, a := c.a } | none => true

/-! ### Enabling (Table AXS-1) -/

/-- EN set: the axis is UNHOMED, and its channel opens where AXS_POS_n stands. -/
def axisOn (n : Nat) (s : State) : State :=
  let s := wr (AXS_CFG_EN n) 1 s
  if axisSt n s ≠ 0 then s
  else
    let s := openChan (256 + n) s
    let s := match chan? (256 + n) s with
      | some c => setChan (256 + n) { c with reach := some 0, mode := if c.mode = .stop then .idle else c.mode, st := rdS (AXS_POS n) s * pulseUnits n s } s
      | none => s
    enterAxis n 1 (wr (AXS_STAT_HOMED n) 0 s)

/-- A disabled axis at rest: its queued segments end CANCELLED and its channel closes. -/
def axisRest (n : Nat) (s : State) : State := if axisSt n s = 0 && axisAtRest n s then closeChan (256 + n) s else s

/-- EN cleared. -/
def axisOff (n : Nat) (s : State) : State :=
  let s := wr (AXS_CFG_EN n) 0 s
  if axisSt n s = 0 then s
  else axisRest n (enterAxis n 0 (setAxis n { axis n s with home := none } (stopAxis n s)))

/-! ### Inputs (R455 to R459) -/

def inp? (i : Nat) (s : State) : Option Inp := tfind i s.axs.inp

/-- QUAL in FRC ticks. -/
def qualTicks (n : Nat) (s : State) : Nat := min 500 (rd (AXS_CFG_QUAL n) s) * 50000

/-- What a raw state says of input i: a limit tripped, a home input active (R455). -/
def asserted (i : Nat) (closed : Bool) (s : State) : Bool :=
  if i < 16 then (if on (AXS_CFG_LIM_POL (i / 2)) s then closed else !closed) else (if on (AXS_CFG_HOME_POL (i - 16)) s then !closed else closed)

def axisOfInp (i : Nat) : Nat := if i < 16 then i / 2 else i - 16

/-- The qualified state of input i. -/
def qualified (i : Nat) (s : State) : Bool := if i < 16 then bit (rd AXS_INPUTS_LIMIT s) i else bit (rd AXS_INPUTS_HOME s) (i - 16)

def setQualified (i : Nat) (b : Bool) (s : State) : State :=
  if i < 16 then wr AXS_INPUTS_LIMIT (setBits (rd AXS_INPUTS_LIMIT s) i 1 (b2n b)) s
  else wr AXS_INPUTS_HOME (setBits (rd AXS_INPUTS_HOME s) (i - 16) 1 (b2n b)) s

/-- The raw state of input i has held for QUAL: the qualified state it asks for. -/
def settled (i : Nat) (s : State) : Option Bool :=
  match inp? i s with
  | none => none
  | some x => if qualTicks (axisOfInp i) s ≤ s.clk.frc - x.since then some (asserted i x.closed s) else none

/-- Untripped with no raw transition for QUAL (R457). -/
def quiet (i : Nat) (s : State) : Bool := settled i s == some false

/-- The input that serves axis n as homing reference (Table AXS-3): none for NONE and for the modes refused as NONE. -/
def homeRef (n : Nat) (s : State) : Option Nat :=
  match rd (AXS_CFG_HOME_MODE n) s with
  | 1 => some (16 + n)
  | 2 => some (2 * n)
  | 3 => some (2 * n + 1)
  | _ => none

/-- The search direction (0 increasing, 1 decreasing). -/
def homeDir (n : Nat) (s : State) : Nat :=
  match rd (AXS_CFG_HOME_MODE n) s with
  | 1 => if on (AXS_CFG_HOME_DIR n) s then 0 else 1
  | 3 => 0
  | _ => 1

def isHoming (n : Nat) (s : State) : Bool := axisSt n s == 2

/-- A homing fails (R463): UNHOMED, HOMED clear, the cause recorded, HOME completed; it goes to rest on the homing ramp, or in STOP. -/
def homeFail (n status code : Nat) (hard : Bool) (s : State) : State :=
  let h := (axis n s).home
  let s := setAxis n { axis n s with home := if hard then none else h.map (fun h => { h with ramp := true, failed := true }) } s
  let s := count AXS_CNT_HOME_FAIL 1 (wr (AXS_STAT_CAUSE n) (code % 256) (wr (AXS_STAT_HOMED n) 0 s))
  axsCmdDone n 1 status code (raise 210 (enterAxis n 1 s))

def latchBit (i : Nat) : Fld := if i % 2 = 0 then AXS_STAT_LATCH_A (i / 2) else AXS_STAT_LATCH_B (i / 2)

/-- Records the position and latches limit i. -/
def latchLimit (i : Nat) (s : State) : State := wr (latchBit i) 1 (wrS (AXS_TRIP (i / 2)) (axisPos (i / 2) s / fineOf 256) s)

/-- Limit i trips (R456, R462, R463, Table AXS-1). -/
def limitTrips (i : Nat) (s : State) : State :=
  let n := i / 2
  let s := setQualified i true s
  let st := axisSt n s
  if st = 0 then s
  else if qualified (2 * n) s && qualified (2 * n + 1) s then
    if st = 6 then s
    else
      let s := if st = 2 then homeFail n 1 0x1604 true s else s
      let s := stopAxis n (latchLimit i (setAxis n { axis n s with home := none } s))
      raise 211 (report 0x1603 n (count AXS_CNT_FAULT 1 (wr (AXS_STAT_CAUSE n) 3 (enterAxis n 6 s))))
  else if st = 2 then
    if homeRef n s = some i then s else homeFail n 1 0x1604 false (latchLimit i s)
  else
    let s := stopAxis n (latchLimit i s)
    let s := if st = 3 then enterAxis n 4 s else s
    raise 206 (report 0x1601 n (count AXS_CNT_TRIP 1 (wr (AXS_STAT_CAUSE n) 1 s)))

/-- Limit i qualifies as tripped, when its raw state has held for QUAL. -/
def limitTrip (i : Nat) (s : State) : State :=
  if axsOn s && settled i s == some true && !qualified i s && !(isHoming (i / 2) s && homeRef (i / 2) s == some i) then limitTrips i s else s

/-- Trips due on axis n come before any operation on it (R459). -/
def tripsFirst (n : Nat) (s : State) : State := limitTrip (2 * n + 1) (limitTrip (2 * n) s)

/-- The planned position lies at least CLEAR axis steps from AXS_TRIP_n, away from limit i (R457). -/
def isClear (i : Nat) (s : State) : Bool :=
  let n := i / 2
  let d := (axisPos n s - rdS (AXS_TRIP n) s * fineOf 256) * (if i % 2 = 0 then 1 else -1)
  decide ((16 * rd (AXS_HOME2_CLEAR n) s : Nat) * fineOf 256 ≤ d)

/-- A latched limit clears (R457). -/
def limitClear (i : Nat) (s : State) : State :=
  let n := i / 2
  if axsOn s && on (latchBit i) s && quiet i s && isClear i s then
    let s := wr (latchBit i) 0 (setQualified i false s)
    let s := raise 207 s
    if axisSt n s = 4 && !on (AXS_STAT_LATCH_A n) s && !on (AXS_STAT_LATCH_B n) s then enterAxis n 3 s else s
  else s

/-- Raw transitions of an input inside the window of CHAT_WIN ms. -/
def recentTrans (x : Inp) (s : State) : List Nat := x.trans.filter (fun t => decide (s.clk.frc - t < ticksOfMs (rd AXS_CHAT_CHAT_WIN s)))

/-- A limit chatters (R458). -/
def limitChatter (i : Nat) (s : State) : State :=
  let n := i / 2
  match inp? i s with
  | none => s
  | some x =>
    if axsOn s && decide (rd AXS_CHAT_CHAT_MAX s < (recentTrans x s).length) && !(axisSt n s == 0 || axisSt n s == 5 || axisSt n s == 6) then
      let s := if isHoming n s then axsCmdDone n 1 1 0x1602 s else s
      let s := stopAxis n (setAxis n { axis n s with home := none } s)
      raise 208 (report 0x1602 n (count AXS_CNT_CHATTER 1 (wr (AXS_STAT_CAUSE n) 2 (enterAxis n 5 s))))
    else s

/-! ### Homing (R460 to R463) -/

/-- The homing of axis n begins a stage. -/
def homeStage (n stage : Nat) (s : State) : State := setAxis n { axis n s with home := some { stage := stage, from_ := axisPos n s } } s

/-- The stage HOME begins with: the second when the reference is already active. -/
def firstStage (n : Nat) (s : State) : Nat := match homeRef n s with | some i => if qualified i s then 2 else 1 | none => 1

/-- A latched limit lies in the search direction. -/
def latchAhead (n : Nat) (s : State) : Bool := if homeDir n s = 0 then on (AXS_STAT_LATCH_B n) s else on (AXS_STAT_LATCH_A n) s

/-- HOME. -/
def homeCmd (n : Nat) (s : State) : State :=
  let s := if axsOn s then tripsFirst n s else s
  let st := axisSt n s
  if !axsOn s then axsCmdDone n 1 4 0x16F4 s
  else if (homeRef n s).isNone || !(st == 1 || (st == 3 && axisAtRest n s)) then axsCmdDone n 1 4 0x1608 s
  else if latchAhead n s then axsCmdDone n 1 4 0x1609 s
  else homeStage n (if axisAtRest n s then firstStage n s else 0) (enterAxis n 2 s)

/-- The position becomes p axis-step sixteenths at the point that stood at pulse count at_. -/
def setPosition (n : Nat) (at_ : Int) (p : Int) (s : State) : State :=
  let x := axisPos n s - at_ * pulseUnits n s + p * fineOf 256
  let s := match chan? (256 + n) s with
    | some c => setChan (256 + n) { c with st := x } s
    | none => s
  wrS (AXS_POS n) (pulsesAt n x s) s

/-- The homing of axis n has come to rest on its ramp. -/
def homeRest (n : Nat) (h : Homing) (s : State) : State :=
  if h.failed then setAxis n { axis n s with home := none } s
  else if h.stage = 0 then homeStage n (firstStage n s) s
  else if h.stage = 1 then homeStage n 2 s
  else
    let s := setPosition n h.cap (rdS (AXS_HOME_OFS n) s) (setAxis n { axis n s with home := none } s)
    let s := count AXS_CNT_HOME_DONE 1 (wr (AXS_STAT_HOMED n) 1 s)
    axsCmdDone n 1 0 0 (raise 209 (enterAxis n 3 s))

/-- The homing reference of axis n qualifies, active or not: stage 1 ends at the former, stage 2 at the latter, with the position at the raw edge captured. -/
def homeReference (n : Nat) (s : State) : State :=
  match homeRef n s with
  | none => s
  | some i =>
    match settled i s, inp? i s, (axis n s).home with
    | some b, some x, some h =>
      if axsOn s && isHoming n s && b != qualified i s then
        let s := setQualified i b s
        if !h.ramp && ((h.stage == 1 && b) || (h.stage == 2 && !b)) then
          let h := { h with ramp := true, cap := x.pos }
          let s := setAxis n { axis n s with home := some h } s
          if axisAtRest n s then homeRest n h s else s
        else s
      else s
    | _, _, _ => s

/-- SET_POS. -/
def setPosCmd (n : Nat) (s : State) : State :=
  let s := if axsOn s then tripsFirst n s else s
  let st := axisSt n s
  if !axsOn s then axsCmdDone n 2 4 0x16F4 s
  else if st = 1 ∨ (st = 3 ∧ axisAtRest n s = true) then
    let s := setPosition n 0 (rdS (AXS_HOME_OFS n) s) (match chan? (256 + n) s with
      | some c => setChan (256 + n) { c with st := 0 } s
      | none => wrS (AXS_POS n) 0 s)
    axsCmdDone n 2 0 0 (enterAxis n 3 (wr (AXS_STAT_HOMED n) 1 s))
  else axsCmdDone n 2 4 0x1608 s

/-- CLEAR_FAULT. -/
def clearFaultCmd (n : Nat) (s : State) : State :=
  let s := if axsOn s then tripsFirst n s else s
  let st := axisSt n s
  if !axsOn s then axsCmdDone n 3 4 0x16F4 s
  else if st = 5 && quiet (2 * n) s && quiet (2 * n + 1) s then
    axsCmdDone n 3 0 0 (enterAxis n (if on (AXS_STAT_HOMED n) s then 3 else 1) (setQualified (2 * n) false (setQualified (2 * n + 1) false s)))
  else if st = 6 && !qualified (2 * n) s && !qualified (2 * n + 1) s then
    axsCmdDone n 3 0 0 (enterAxis n 1 (wr (AXS_STAT_HOMED n) 0 s))
  else axsCmdDone n 3 4 0x1608 s

/-- ABORT_HOME: the homing fails, and the abort completes. -/
def abortHomeCmd (n : Nat) (s : State) : State :=
  let s := if axsOn s then tripsFirst n s else s
  if !axsOn s then axsCmdDone n 4 4 0x16F4 s
  else if isHoming n s then axsCmdDone n 4 0 0 (homeFail n 2 0x1607 false s)
  else axsCmdDone n 4 4 0x1608 s

/-- A stop epoch at the axes (R464): an axis in HOMING fails. The channels are in STOP by R148. -/
def axsStopEpoch (s : State) : State := (List.range 8).foldl (fun s n => if isHoming n s then homeFail n 3 0x1606 true s else s) s

/-! ### The tick (R446 to R453) -/

/-- V_MAX of axis n (R447), in axis steps per second. -/
def axisVmax (n : Nat) (s : State) : Nat :=
  min (rd (PRO_CH_SPEED_V_MAX (256 + n)) s) (min 4000000 (50000000 / max 1 (rd (AXS_TIMING_PULSE n) s)) / 2 ^ rd (AXS_CFG_SCALE n) s)

/-- Speed units to one axis step per second. -/
def stepV : Int := 2000000000000

/-- The cap on a segment of axis n, in speed units. -/
def axisCap (n : Nat) (g : Seg) (s : State) : Int :=
  let c : Int := 16 * min (axisVmax n s) (rd (PRO_CH_SPEED_V_CAP (256 + n)) s)
  stepV / 16 * (if g.vseg = 0 then c else min c (max 0 (sgn 32 g.vseg)))

/-- The limit of an axis but for GATE: the end of the queue or the first reversal in it (R449), and the soft limit ahead (R453). -/
def axisLimit (n : Nat) (c : Chan) (sp : List (Seg × Int × Int)) (s : State) : Int × Nat :=
  let turn := (sp.drop 1).find? (fun x => x.1.dir != c.dir)
  let q : Int := match turn with | some x => x.2.1 | none => (match sp.getLast? with | some x => x.2.2 | none => 0)
  if on (AXS_CFG_SOFT_EN n) s then
    let soft := ((if c.dir = 0 then rdS (AXS_SOFT_HI n) s else rdS (AXS_SOFT_LO n) s) * fineOf 256 - c.st) * sg c.dir
    if soft < q then (soft, 1) else (q, 0)
  else (q, 0)

/-- One tick of the homing of axis n. -/
def tickHoming (n : Nat) (h : Homing) (c : Chan) (s : State) : State :=
  let dir := if h.stage = 1 then homeDir n s else if h.stage = 2 then 1 - homeDir n s else c.dir
  let dir := if atRest { v := c.v, a := c.a } && !h.ramp then dir else c.dir
  let speed : Nat := if h.stage = 1 then rd (AXS_HOME_HOME_FAST n) s else rd (AXS_HOME_HOME_SLOW n) s
  let vc : Int := if h.ramp || h.stage = 0 then 0 else min speed (axisVmax n s) * stepV
  let k : Kin := { v := c.v, a := c.a }
  let a2 := steerTo (1000000 * rd (PRO_CH_ACC_A_MAX (256 + n)) s) (1000000 * rd (AXS_HOME2_HOME_DEC n) s) (rd (PRO_CH_JERK_J_MAX (256 + n)) s) k.v k.a vc
  let q := tickKin k a2
  let c := { c with dir := dir, v := q.1.v, a := q.1.a, phase := phaseOf k a2, st := c.st + q.2 * sg dir, odo := c.odo + q.2, kind := 0 }
  let s := setChan (256 + n) c s
  if (h.ramp || h.stage = 0) && atRest q.1 then homeRest n h s
  else if !h.ramp && (h.stage == 1 || h.stage == 2) && decide ((rd (AXS_HOME_RANGE_RANGE n) s : Int) * 16 * fineOf 256 < (c.st - h.from_).natAbs) then homeFail n 1 0x1605 false s
  else s

/-- One tick of axis n along its queue (as tickMachine for a machine). -/
def tickSegs (n : Nat) (c0 : Chan) (s : State) : State :=
  let m := 256 + n
  let r := takeLimits m c0 s
  let c := r.1
  let s := r.2
  let now := claimTime s
  let stop := decide (c.mode = .stop)
  let d := if stop then c.dsUse else min c.dUse c.dsUse
  let j := if stop then c.jsUse else min c.jUse c.jsUse
  let sp := spansBy (fineOf m) c
  let lk := axisLimit n c sp s
  let running := decide (c.mode = .run) && !sp.isEmpty
  let cap := match c.queue with | g :: _ => axisCap n g s | [] => 0
  let gv : Int × Option Int := if running then gateSpeedBy (ticksOf m) true c sp now cap c.aUse d j else (0, none)
  let lim : Int × Nat := match gv.2 with | some g => if g < lk.1 then (g, 4) else lk | none => lk
  let k : Kin := { v := c.v, a := c.a }
  let breach := !atRest k && !stop && !rampFits (1000000 * d) j 0 k lim.1
  let hard := breach && !rampFits (1000000 * c.dsUse) c.jsUse 0 k lim.1
  let c := if hard then { c with mode := .stop } else c
  let s := if hard then raise 100 (report 0x0908 m (count PRO_CNT_BREACH 1 s)) else s
  let d := if breach then c.dsUse else d
  let j := if breach then c.jsUse else j
  let joints := (sp.drop 1).filterMap (fun x => if x.2.1 < lim.1 ∧ axisCap n x.1 s < c.v + endLoss j c.a + 2 * c.a + j then some (x.2.1, axisCap n x.1 s) else none)
  let go := decide (c.mode = .run) && !hard
  let vc : Int := if go && running then gv.1 else 0
  let a2 := planTick (1000000 * c.aUse) (1000000 * d) j (if go then (lim.1, 0) :: joints else []) vc k
  let q := tickKin k a2
  let moving := !atRest k
  let c := { c with v := q.1.v, a := q.1.a, phase := phaseOf k a2, st := c.st + q.2 * sg c.dir, odo := c.odo + q.2, lim := lim.1 - q.2, kind := lim.2 }
  let turn := match c.queue with | _ :: h :: _ => h.dir != c.dir | _ => false
  let r := if turn && !atRest { v := c.v, a := c.a } then (c, s) else passSegs m 17 c s
  let c := { r.1 with watch := r.1.watch.filter (fun w => decide (r.1.odo < w.1)) }
  let s := r.2
  let s := if moving && atRest { v := c.v, a := c.a } && (c.mode == .hold || c.mode == .stop) then raise 102 s else s
  let late := lateBy (ticksOf m) 0 cap c (spansBy (fineOf m) c) gv.2 lk.1 now c.aUse d j
  let s := if late && !c.late then raise 99 (report 0x0907 m (count PRO_CNT_LATE 1 (setRunBit PRO_LATE m true s))) else s
  setChan m { c with late := late } s

/-- The step generator in one tick (R446, R448): DIR first, then the pulses that bring AXS_POS_n to the planned position. -/
def stepGen (n : Nat) (s : State) : State :=
  let a := axis n s
  let want := pulsesAt n (axisPos n s) s
  let diff := want - rdS (AXS_POS n) s
  let a := { a with sincePulse := min 1000 (a.sincePulse + 10), sinceDir := min 1000 (a.sinceDir + 10) }
  let down := match chan? (256 + n) s with | some c => c.dir == 1 | none => false
  let low := if diff < 0 then false else if 0 < diff then true else !down
  let a := if low != a.dirLow && decide (rd (AXS_TIMING_DIR_HOLD n) s ≤ a.sincePulse) then { a with dirLow := low, sinceDir := 0 } else a
  if diff ≠ 0 ∧ low = a.dirLow ∧ rd (AXS_TIMING_DIR_SETUP n) s ≤ a.sinceDir then setAxis n { a with sincePulse := 0 } (wrS (AXS_POS n) want s)
  else setAxis n a s

/-- Takes a raw sample of input i (R455, R458, R461). -/
def sampleInp (i : Nat) (closed : Bool) (s : State) : State :=
  let put := fun (x : Inp) (s : State) => { s with axs := { s.axs with inp := tins i x s.axs.inp } }
  match inp? i s with
  | none => put { closed := closed, since := s.clk.frc, pos := rdS (AXS_POS (axisOfInp i)) s } s
  | some x =>
    if x.closed = closed then put { x with trans := recentTrans x s } s
    else put { closed := closed, since := s.clk.frc, pos := rdS (AXS_POS (axisOfInp i)) s, trans := recentTrans x s ++ [s.clk.frc] } s

/-- The inputs change their qualified state where neither a trip nor a homing reference is due. -/
def requalify (i : Nat) (s : State) : State :=
  let n := axisOfInp i
  match settled i s with
  | some b =>
    if b = qualified i s ∨ (isHoming n s = true ∧ homeRef n s = some i) ∨ (i < 16 ∧ b = true) then s else setQualified i b s
  | none => s

/-- Most raw limit transitions of axis n in the window (AXS_STAT_n.TRANS). -/
def showTrans (n : Nat) (s : State) : State :=
  let f := fun i => match inp? i s with | some x => (recentTrans x s).length | none => 0
  wr (AXS_STAT_TRANS n) (min 65535 (max (f (2 * n)) (f (2 * n + 1)))) s

/-- The S-class fields of an axis commit at a tick at which it is at rest (R473). -/
def commitAxis (n : Nat) (s : State) : State :=
  if axisAtRest n s then
    [AXS_CFG_SOFT_EN n, AXS_CFG_HOME_MODE n, AXS_CFG_HOME_DIR n, AXS_CFG_QUAL n, AXS_SOFT_LO n, AXS_SOFT_HI n, AXS_HOME_OFS n, AXS_HOME_HOME_FAST n,
     AXS_HOME_HOME_SLOW n, AXS_HOME2_HOME_DEC n, AXS_HOME2_CLEAR n, AXS_HOME_RANGE_RANGE n].foldl (fun s f => commitFld f s) s
  else s

/-- One axis in one tick. -/
def tickAxis (n : Nat) (s : State) : State :=
  let s := commitAxis n s
  let s := match chan? (256 + n) s with
    | none => s
    | some c =>
      match (axis n s).home with
      | some h => tickHoming n h c s
      | none => if on PRO_CTRL_EN s then tickSegs n c s else s
  axisRest n (showTrans n (stepGen n s))

/-- A 1 µs tick: block-wide fields commit, the inputs are sampled (bits 15:0 limits, 23:16 home inputs; 1 closed), and every axis moves. In Watch nothing steps (R465). -/
def axisTick (raw : Nat) (s : State) : State :=
  if !axsOn s then s
  else
    let s := commitFld AXS_CHAT_CHAT_MAX (commitFld AXS_CHAT_CHAT_WIN s)
    let s := (List.range 24).foldl (fun s i => requalify i (sampleInp i (bit raw i) s)) s
    (List.range 8).foldl (fun s n => tickAxis n s) s

/-! ### Load records (R131, R136, R149, R450, R452, R453) -/

/-- Table AXS-2 and R450 for one segment on axis n: 0 or the cause. -/
def axisSegCause (n : Nat) (g : Seg) (s : State) : Nat :=
  let st := axisSt n s
  let away := (g.dir == 0 || !on (AXS_STAT_LATCH_A n) s) && (g.dir == 1 || !on (AXS_STAT_LATCH_B n) s)
  if g.reach ≠ 0 ∨ g.claim ≠ 0 then 0x01
  else if !(st == 3 || (st == 4 && away)) then 0x06
  else if on (AXS_CFG_SOFT_EN n) s && (decide (g.to_ < rdS (AXS_SOFT_LO n) s) || decide (rdS (AXS_SOFT_HI n) s < g.to_)) then 0x03
  else if (g.to_ - g.from_) * sg g.dir < 0 then 0x05
  else 0

/-- Each segment begins where the one before ends (R133). -/
def axisChain : Int → List Seg → Bool
  | _, [] => true
  | x, g :: t => g.from_ == x && axisChain g.to_ t

/-- An APPEND on axis n. -/
def axisAppendCause (n : Nat) (c : Chan) (segs : List Seg) (s : State) : Nat :=
  match segs.findSome? (fun g => let x := axisSegCause n g s; if x = 0 then none else some x) with
  | some x => x
  | none =>
    let tol : Int := 16 * rd PRO_TRACK_TRACK_TOL s
    let ok := match c.queue.getLast?, segs with
      | some p, _ => axisChain p.to_ segs
      | none, g :: t => atRest { v := c.v, a := c.a } &&
          decide (-tol * fineOf 256 ≤ (c.st - g.from_ * fineOf 256) * sg g.dir ∧ -tol * fineOf 256 ≤ (g.to_ * fineOf 256 - c.st) * sg g.dir) && axisChain g.to_ t
      | none, [] => true
    if !ok then 0x04 else if 16 < c.queue.length + segs.length then 0xF2 else 0

/-- An operation on axis n: Table AXS-2 refuses a RESUME outside READY and LIMIT. -/
def axisOp (n : Nat) (l : Load) (c : Chan) (s : State) : Nat × State :=
  if l.op = 4 ∧ axisSt n s ≠ 3 ∧ axisSt n s ≠ 4 then (0x06, s)
  else if l.op = 1 ∧ axisSt n s ≠ 3 ∧ axisSt n s ≠ 4 then (0x06, s)
  else channelOp (256 + n) l c (if l.op = 1 then axisAppendCause n c l.segs s else 0) s

/-- PRO takes the load record ready on its flume, if its OP is op or no row's (R131 to R136). -/
def proTake (op : Nat) (s : State) : State :=
  let f := rd PRO_FLUME_LOAD s
  if !on PRO_CTRL_EN s || !awake s then s
  else
    match enginePeek f s with
    | none => s
    | some w =>
      let o := w.toNat % 256
      if o ≠ op ∧ 1 ≤ o ∧ o ≤ 4 then s
      else
        match engineTake f s with
        | (none, s) => s
        | (some (ws, whole), s) =>
          let l := loadOf ws whole
          let s := count PRO_CNT_LOAD 1 s
          if !l.ok then loadDone l 0x01 s
          else
            let s := if 256 ≤ l.chn && axsOn s then tripsFirst (l.chn - 256) s else s
            match chan? l.chn s with
            | none => loadDone l 0x02 s
            | some c =>
              let r := if l.chn < 256 then channelOp l.chn l c (if l.op = 1 then appendCause l.chn c l.segs s else 0) s else axisOp (l.chn - 256) l c s
              loadDone l r.1 r.2

/-! ### Meanings -/

def execAxisTick (raw : Nat) (s : State) := run (axisTick raw) s
def execProAppend (s : State) := run (proTake 1) s
def execProClear (s : State) := run (proTake 2) s
def execProHalt (s : State) := run (proTake 3) s
def execProResume (s : State) := run (proTake 4) s
def execHome (n : Nat) (s : State) := run (homeCmd (n % 8)) s
def execSetPos (n : Nat) (s : State) := run (setPosCmd (n % 8)) s
def execClearFault (n : Nat) (s : State) := run (clearFaultCmd (n % 8)) s
def execAbortHome (n : Nat) (s : State) := run (abortHomeCmd (n % 8)) s
def execLimitTrip (n l : Nat) (s : State) := run (limitTrip (2 * (n % 8) + l % 2)) s
def execLimitClear (n l : Nat) (s : State) := run (limitClear (2 * (n % 8) + l % 2)) s
def execLimitChatter (n l : Nat) (s : State) := run (limitChatter (2 * (n % 8) + l % 2)) s
def execHomeReference (n : Nat) (s : State) := run (homeReference (n % 8)) s

end Sys2Proof.Machine
end

