-- ==== Sys2Proof/Machine/Can.lean ====
section
/-!
DEFINITION. Sys2Proof/Machine/Can.lean: the CAN FD ports and the RS-485 ports (13_can_and_rs485.md).
-/
namespace Sys2Proof.Machine

def canPort (p : Nat) (s : State) : CanPort := tget {} p s.can.ports
def setCan (p : Nat) (x : CanPort) (s : State) : State := { s with can := { s.can with ports := tset {} p x s.can.ports } }

/-- MODE of port p (Table CAN-2): 0 OFF, 1 NORMAL, 2 LISTEN, 3 AUTO, 4 SLEEP, 5 BUS_OFF. -/
def canMode (p : Nat) (s : State) : Nat := rd (CAN_STATUS_MODE p) s

def setCanMode (p m : Nat) (s : State) : State := if canMode p s = m then s else raise (193 + 4 * p) (wr (CAN_STATUS_MODE p) m s)

def canError (p cause detail : Nat) (s : State) : State := report (0x1200 + 0x100 * p + cause) detail s

/-! ### Mailboxes (R426 to R432) -/

/-- Data bytes of a DLC. -/
def dlcLen (d : Nat) : Nat := match d with | 9 => 12 | 10 => 16 | 11 => 20 | 12 => 24 | 13 => 32 | 14 => 48 | 15 => 64 | n => min n 8

def mbData (p n : Nat) (s : State) : List Byte :=
  (((List.range 16).map (fun w => leBytes 4 (rd (CAN_MB_DATA p n w) s))).flatten).take (dlcLen (rd (CAN_MB_CTRL_DLC p n) s))

/-- Pending program mailboxes of port p. -/
def mbPending (p : Nat) (s : State) : List Nat := (List.range 64).filter (fun n => on (CAN_MB_CTRL_PEND p n) s)

def showCanPending (p : Nat) (s : State) : State := wr (CAN_STATUS_PENDING p) (mbPending p s).length s

/-- Key by which a frame wins arbitration: its base identifier, then a base frame before an extended one, then the extension. -/
def arbKey (id : Nat) (ext : Bool) : Nat := if ext then id / 2 ^ 18 % 2 ^ 11 * 2 ^ 19 + 2 ^ 18 + id % 2 ^ 18 else id % 2 ^ 11 * 2 ^ 19

def mbKey (p n : Nat) (s : State) : Nat := arbKey (rd (CAN_MB_ID_ID p n) s) (on (CAN_MB_ID_IDE p n) s)

/-- The mailbox offered to arbitration (R426). -/
def mbOffer (p : Nat) (s : State) : Option Nat :=
  (mbPending p s).foldl (fun (b : Option Nat) n => match b with | none => some n | some m => if mbKey p n s < mbKey p m s then some n else b) none

/-- A mailbox ends (R430). -/
def mbEnd (p n status cause : Nat) (s : State) : State :=
  let s := wr (CAN_MB_CTRL_PEND p n) 0 (wr (CAN_MB_CTRL_ABORT p n) 0 (wr (CAN_MB_CTRL_STATUS p n) status s))
  let err := if cause = 0 then 0 else 0x1200 + 0x100 * p + cause
  let r := leBytes 1 status ++ leBytes 1 n ++ leBytes 2 err ++ leBytes 4 (rd (CAN_MB_TAG p n) s) ++ leBytes 4 (claimTime s) ++ leBytes 4 0
  showCanPending p (pushBytes (rd (CAN_FLUME_DONE p) s) r s).2

/-- Setting PEND: the mailbox is pending, or its format is refused (R431). -/
def mbPend (p n : Nat) (s : State) : State :=
  if on (CAN_MB_CTRL_PEND p n) s then s
  else
    let fdf := on (CAN_MB_CTRL_FDF p n) s
    if (!fdf && decide (8 < rd (CAN_MB_CTRL_DLC p n) s)) || (fdf && !on (CAN_CTRL_FD_EN p) s) then mbEnd p n 4 0x05 s
    else showCanPending p (wr (CAN_MB_CTRL_PEND p n) 1 s)

/-- Setting ABORT; onBus says that the mailbox's frame is on the bus (R428). -/
def mbAbort (p n : Nat) (onBus : Bool) (s : State) : State :=
  if !on (CAN_MB_CTRL_PEND p n) s then s
  else if onBus && mbOffer p s == some n then wr (CAN_MB_CTRL_ABORT p n) 1 s
  else mbEnd p n 2 0x02 s

/-! ### Error confinement (R435) -/

/-- ERR_STATE of error counts: 0 active, 1 warning, 2 passive, 3 bus-off. -/
def errState (tec rec_ : Nat) : Nat := if 255 < tec then 3 else if 127 < tec ∨ 127 < rec_ then 2 else if 95 < tec ∨ 95 < rec_ then 1 else 0

/-- Sets the error counts; above 255 transmit errors the port enters BUS_OFF, and recovers at once with AUTO_RECOVER. -/
def setErr (p tec rec_ : Nat) (s : State) : State :=
  let st := errState tec rec_
  let s := wr (CAN_STATUS_TEC p) (min 255 tec) (wr (CAN_STATUS_REC p) (min 255 rec_) s)
  let s := if rd (CAN_STATUS_ERR_STATE p) s = st then s else raise (193 + 4 * p) (wr (CAN_STATUS_ERR_STATE p) st s)
  if st = 3 ∧ canMode p s ≠ 5 then
    setCan p { canPort p s with recovering := on (CAN_CTRL_AUTO_RECOVER p) s } (setCanMode p 5 (canError p 0x01 tec (count (CAN_CNT_BUS_OFF p) 1 s)))
  else s

def tecOf (p : Nat) (s : State) : Nat := rd (CAN_STATUS_TEC p) s
def recOf (p : Nat) (s : State) : Nat := rd (CAN_STATUS_REC p) s

/-- The port's transceiver is in use: Ready or Run, or in Watch for stop frames (R639). -/
def canUp (p : Nat) (s : State) : Bool := on (CAN_CTRL_EN p) s && !s.pwr.off && (awake s || !(canPort p s).express.isEmpty)

def commitCan (p : Nat) (s : State) : State :=
  [CAN_CTRL_DWELL p, CAN_CTRL_WAKE_MODE p, CAN_CTRL_AUTO_JOIN p].foldl (fun s f => commitFld f s) s

/-- An attempt of port p to send ends: 0 the frame went out, 1 it lost arbitration, 2 an error frame; the frame is the express mailbox's, else the mailbox R426 offers. -/
def canTxEnd (p outcome : Nat) (s : State) : State :=
  if !canUp p s || canMode p s != 1 then s
  else
    let x := canPort p s
    match x.express, mbOffer p s with
    | f :: t, _ =>
      let s := commitCan p s
      match outcome with
      | 0 => emit (.can p f.1 f.2.1 f.2.2) (setErr p (tecOf p s - 1) (recOf p s) (count (CAN_CNT_STOP_SENT p) 1 (setCan p { x with express := t } s)))
      | 1 => count (CAN_CNT_ARB_LOST p) 1 s
      | _ => setErr p (tecOf p s + 8) (recOf p s) (count (CAN_CNT_ERR_FRAME p) 1 s)
    | [], some n =>
      let s := commitCan p s
      match outcome with
      | 0 =>
        let s := emit (.can p (rd (CAN_MB_ID_ID p n) s) (on (CAN_MB_ID_IDE p n) s) (mbData p n s)) s
        mbEnd p n 0 0 (setErr p (tecOf p s - 1) (recOf p s) (count (CAN_CNT_TX_OK p) 1 s))
      | 1 =>
        let s := count (CAN_CNT_ARB_LOST p) 1 s
        if on (CAN_MB_CTRL_ABORT p n) s then mbEnd p n 2 0x02 s else s
      | _ =>
        let s := setErr p (tecOf p s + 8) (recOf p s) (count (CAN_CNT_ERR_FRAME p) 1 s)
        if on (CAN_MB_CTRL_ABORT p n) s then mbEnd p n 2 0x02 s else s
    | [], none => s

def canCmdDone (p cmd status cause : Nat) (s : State) : State := cmdResQuiet 18 p 0x14 cmd status (if cause = 0 then 0 else 0x1200 + 0x100 * p + cause) s

/-- RECOVER. -/
def canRecover (p : Nat) (s : State) : State :=
  if canMode p s = 5 ∧ (canPort p s).recovering = false then canCmdDone p 1 0 0 (setCan p { canPort p s with recovering := true } s)
  else canCmdDone p 1 4 0xF4 s

/-- 128 occurrences of 11 recessive bits have been seen. -/
def canRecovered (p : Nat) (s : State) : State :=
  if canMode p s = 5 ∧ (canPort p s).recovering = true then setCanMode p 1 (setErr p 0 0 (setCan p { canPort p s with recovering := false } s)) else s

/-! ### Modes (R422, R424, R425, R429, R437 to R439) -/

/-- Bit rate of a timing register's fields. -/
def canRate (brp t1 t2 : Nat) : Nat := 80000000 / ((brp + 1) * (t1 + t2 + 3))

/-- Time quanta in a bit times the prescaler, so that rate limits compare exactly. -/
def canDiv (brp t1 t2 : Nat) : Nat := (brp + 1) * (t1 + t2 + 3)

def timingOk (p : Nat) (s : State) : Bool :=
  let n := canDiv (rd (CAN_NBT_BRP p) s) (rd (CAN_NBT_TSEG1 p) s) (rd (CAN_NBT_TSEG2 p) s)
  let d := canDiv (rd (CAN_DBT_BRP p) s) (rd (CAN_DBT_TSEG1 p) s) (rd (CAN_DBT_TSEG2 p) s)
  decide (80 ≤ n ∧ n ≤ 8000 ∧ 16 ≤ d)

/-- Setting EN (R422). -/
def canEnable (p : Nat) (s : State) : State :=
  if on (CAN_CTRL_EN p) s then s
  else if !timingOk p s then raise (192 + 4 * p) (canError p 0x09 0 s)
  else
    let s := setCan p { canPort p s with cand := 0, good := 0, recovering := false } (wr (CAN_CTRL_EN p) 1 s)
    let m := if on (CAN_CTRL_SLEEP p) s then 4 else match rd (CAN_CTRL_REQ_MODE p) s with | 1 => 2 | 2 => 3 | _ => 1
    setCanMode p m (setErr p 0 0 (wr (CAN_STATUS_RATE_LOCKED p) 0 s))

/-- Clearing EN (R429); onBus says that the offered mailbox's frame is on the bus. -/
def canDisable (p : Nat) (onBus : Bool) (s : State) : State :=
  if !on (CAN_CTRL_EN p) s then s
  else
    let o := if onBus && (canPort p s).express.isEmpty then mbOffer p s else none
    let s := (mbPending p s).foldl (fun s n => if some n = o then mbEnd p n 3 0x04 s else mbEnd p n 2 0x03 s) s
    setCanMode p 0 (setCan p {} (wr (CAN_CTRL_EN p) 0 s))

/-- The series of R424 as prescaler and quanta: BRP, TSEG1, TSEG2 (fields, less 1), each with an 87.5 % sample point. -/
def rateTiming (i : Nat) : Nat × Nat × Nat :=
  match i with
  | 0 => (4, 12, 1) | 1 => (4, 26, 3) | 2 => (9, 26, 3) | 3 => (19, 26, 3) | 4 => (24, 26, 3) | 5 => (49, 26, 3) | 6 => (124, 26, 3) | _ => (249, 26, 3)

/-- DWELL ms have passed at the candidate rate: the next one (R424). -/
def rateDwell (p : Nat) (s : State) : State :=
  if on (CAN_CTRL_EN p) s && awake s && canMode p s == 3 then
    let c := (canPort p s).cand
    let s := setCan p { canPort p s with cand := (c + 1) % 8, good := 0 } s
    if c = 7 then count (CAN_CNT_RATE_MISS p) 1 s else s
  else s

/-- The candidate rate locks (R424, R425). -/
def rateLock (p : Nat) (s : State) : State :=
  let c := (canPort p s).cand
  match rateTiming c with
  | (b, t1, t2) =>
    let s := wr (CAN_NBT_BRP p) b (wr (CAN_NBT_TSEG1 p) t1 (wr (CAN_NBT_TSEG2 p) t2 (wr (CAN_NBT_SJW p) t2 s)))
    let s := wr (CAN_STATUS_RATE p) c (wr (CAN_STATUS_RATE_LOCKED p) 1 s)
    raise (193 + 4 * p) (wr (CAN_STATUS_MODE p) (if on (CAN_CTRL_AUTO_JOIN p) s then 1 else 2) s)

/-- Setting SLEEP (R437): the port sleeps after the frame on the bus. -/
def canSleep (p : Nat) (s : State) : State :=
  let s := wr (CAN_CTRL_SLEEP p) 1 s
  if on (CAN_CTRL_EN p) s then setCanMode p 4 s else s

/-- SLEEP ends: by the program, by a wake, or by a stop epoch. -/
def canUnsleep (p : Nat) (s : State) : State :=
  let s := wr (CAN_CTRL_SLEEP p) 0 s
  if canMode p s = 4 then setCanMode p 1 s else s

/-- A wake-up pattern (wup), or a frame with identifier word idw, data and perhaps a bit error, reaches a sleeping port (R438, R439). -/
def canWake (p idw : Nat) (data : List Byte) (wup err : Bool) (s : State) : State :=
  let asleep := canMode p s == 4 || (on (CAN_CTRL_EN p) s && inWatch s)
  if !asleep then s
  else
    let hit := match rd (CAN_CTRL_WAKE_MODE p) s with
      | 1 => wup
      | 2 => !wup && !err && (bits idw 0 30 ^^^ rd (CAN_WAKE_ID p) s) &&& rd (CAN_WAKE_MASK p) s == 0 &&
          (data.headD 0).toNat &&& rd (CAN_WAKE_DATA p) s / 256 % 256 == rd (CAN_WAKE_DATA p) s % 256 && decide (0 < data.length)
      | _ => false
    if hit then raise (194 + 4 * p) (canUnsleep p s)
    else if !wup && err && rd (CAN_CTRL_WAKE_MODE p) s == 2 then count (CAN_CNT_WAKE_ERR p) 1 s
    else s

/-! ### Receiving (R423, R436) -/

def fltAccepts (p f idw : Nat) (s : State) : Bool :=
  let id := rd (CAN_FLT_ID p f) s
  on (CAN_FLT_CTRL_EN p f) s && (bits idw 0 29 ^^^ bits id 0 29) &&& bits (rd (CAN_FLT_MASK p f) s) 0 29 == 0 && bit idw 29 == bit id 29

/-- Routes a frame (Table CAN-3). -/
def canRoute (p idw fmt : Nat) (data : List Byte) (age : Nat) (s : State) : State :=
  match (List.range 128).find? (fun f => fltAccepts p f idw s) with
  | none => count (CAN_CNT_RX_UNMATCHED p) 1 s
  | some f =>
    let a := rd (CAN_FLT_CTRL_ACTION p f) s
    if a = 2 ∨ a = 3 then s
    else
      let site : Nat := if s.clk.siteSet then (((s.clk.siteAcc : Int) - age * s.clk.incSite + s.clk.siteOfs) / 2 ^ 32).toNat else 0
      let r := leBytes 4 (idw % 2 ^ 31) ++ leBytes 1 (fmt % 128) ++ leBytes 1 f ++ leBytes 1 data.length ++ leBytes 1 0 ++ leBytes 8 site ++ data
      let q := pushBytes (if a = 0 then rd (CAN_FLUME_RXA p) s else rd (CAN_FLUME_RXB p) s) r s
      if q.1 then q.2 else raise (195 + 4 * p) (canError p 0x07 f (count (CAN_CNT_RX_DROP p) 1 q.2))

/-- A frame ends on the bus of port p: ID word and format byte as in Table CAN-3, data, whether it met an error, FRC ticks since its start-of-frame. -/
def canFrameRx (p idw fmt : Nat) (data : List Byte) (err : Bool) (age : Nat) (s : State) : State :=
  if !on (CAN_CTRL_EN p) s || !awake s || !(canMode p s == 1 || canMode p s == 2 || canMode p s == 3) then s
  else
    let s := commitCan p s
    if err then
      let s := setCan p { canPort p s with good := 0 } (count (CAN_CNT_ERR_FRAME p) 1 s)
      if canMode p s = 3 then s else setErr p (tecOf p s) (recOf p s + 1) s
    else
      let s := if canMode p s = 3 then (let s := setCan p { canPort p s with good := (canPort p s).good + 1 } s; if 2 ≤ (canPort p s).good then rateLock p s else s)
        else setErr p (tecOf p s) (recOf p s - 1) s
      let s := count (CAN_CNT_RX_OK p) 1 s
      let s := if bit idw 30 then count (CAN_CNT_RX_RTR p) 1 s else s
      canRoute p idw fmt data age s

/-! ### Stop frames (R432 to R435, R639) -/

/-- n copies of a stop frame are handed to the express mailbox of port p. -/
def canStop (p n ident : Nat) (ext : Bool) (data : List Byte) (s : State) : State :=
  if !on (CAN_CTRL_EN p) s then s
  else if canMode p s = 2 ∨ canMode p s = 3 then canError p 0x06 n (count (CAN_CNT_STOP_SUPPRESSED p) n s)
  else
    let s := canUnsleep p s
    setCan p { canPort p s with express := (canPort p s).express ++ List.replicate n (ident, ext, data) } s

/-! ### RS-485 (R440 to R443) -/

/-- CRC-16 with reflected polynomial 0xA001 and initial value 0xFFFF. -/
def crc16Bit (c : Nat) : Nat := if c % 2 = 1 then c / 2 ^^^ 0xA001 else c / 2
def crc16 (l : List Byte) : Nat :=
  l.foldl (fun c b => crc16Bit (crc16Bit (crc16Bit (crc16Bit (crc16Bit (crc16Bit (crc16Bit (crc16Bit (c ^^^ b.toNat))))))))) 0xFFFF

def serOn (p : Nat) (s : State) : Bool := on (SER_CTRL_EN p) s && awake s

def serMax (p : Nat) (s : State) : Nat := max 1 (rd (SER_FRAME_MAX_LEN p) s)

def commitSer (p : Nat) (s : State) : State :=
  [SER_CTRL_CRC p, SER_FRAME_MODE p, SER_FRAME_MAX_LEN p, SER_FRAME_LEN_OFS p, SER_FRAME_GAP_DELIM_ADDR p, SER_FRAME_TURN p, SER_DE_DE_LEAD p, SER_DE_DE_LAG p].foldl (fun s f => commitFld f s) s

/-- How many of the characters that arrived form the frame under the mode (Table CAN-5). -/
def serEnd (p : Nat) (cs : List Nat) (s : State) : Nat :=
  let g := rd (SER_FRAME_GAP_DELIM_ADDR p) s
  let o := rd (SER_FRAME_LEN_OFS p) s
  match rd (SER_FRAME_MODE p) s with
  | 1 => match cs.findIdx? (fun c => c % 256 == g) with | some i => i + 1 | none => cs.length
  | 2 => if o < cs.length then min cs.length (o + 1 + cs.getD o 0 % 256) else cs.length
  | 3 => match (cs.drop 1).findIdx? (fun c => decide (256 ≤ c)) with | some i => i + 1 | none => cs.length
  | _ => cs.length

/-- The receiver ends a frame of characters (bit 8 the ninth bit); err: 0 none, 1 parity, 2 framing, 5 break; age: FRC ticks since its first start bit (R442). -/
def serFrameRx (p : Nat) (cs : List Nat) (err age : Nat) (s : State) : State :=
  if !serOn p s || !on (SER_CTRL_RX_EN p) s then s
  else
    let cs := cs.take (serEnd p cs s)
    let long := decide (serMax p s < cs.length)
    let b : List Byte := (cs.take (serMax p s)).map (BitVec.ofNat 8)
    let n := b.length
    let crcOn := on (SER_CTRL_CRC p) s
    let bad := crcOn && (decide (n < 2) || crc16 (b.take (n - 2)) != leAt b (n - 2) 2)
    let body := if crcOn then b.take (n - 2) else b
    let cause := if err ≠ 0 then err else if long then 4 else if bad then 3 else 0
    if rd (SER_FRAME_MODE p) s = 3 ∧ cs.headD 0 ≠ 256 + rd (SER_FRAME_GAP_DELIM_ADDR p) s then commitSer p s
    else
      let s := match cause with
        | 0 => count (SER_CNT_RX_OK p) 1 s
        | 1 => count (SER_CNT_PARITY p) 1 s
        | 2 => count (SER_CNT_FRAMING p) 1 s
        | 5 => count (SER_CNT_FRAMING p) 1 s
        | 4 => count (SER_CNT_OVERLONG p) 1 s
        | _ => count (SER_CNT_CRC p) 1 s
      let s := if cause = 0 then s else raise (201 + 2 * p) (report (0x1400 + 0x100 * p + cause) n s)
      let site : Nat := if s.clk.siteSet then (((s.clk.siteAcc : Int) - age * s.clk.incSite + s.clk.siteOfs) / 2 ^ 32).toNat else 0
      let r := leBytes 2 body.length ++ leBytes 1 (if cause = 0 then 0 else 1) ++ leBytes 1 cause ++ leBytes 4 (site / 1000) ++ body
      let q := pushBytes (rd (SER_FLUME_RX p) s) r s
      let s := if q.1 then q.2 else raise (201 + 2 * p) (report (0x1406 + 0x100 * p) n (count (SER_CNT_RX_DROP p) 1 q.2))
      commitSer p s

/-- One completion word per transmit record (R443): LEN, status, cause and time placed as in a receive record's header. -/
def serDone (p len status cause : Nat) (s : State) : State :=
  (pushBytes (rd (SER_FLUME_DONE p) s) (leBytes 2 len ++ leBytes 1 status ++ leBytes 1 cause ++ leBytes 4 (siteNs s / 1000)) s).2

/-- The port takes the transmit record ready on its flume, once none waits (R443). -/
def serTxRecord (p : Nat) (s : State) : State :=
  if !serOn p s || (tfind p s.ser.wait).isSome then s
  else
    match engineTake (rd (SER_FLUME_TX p) s) s with
    | (none, s) => s
    | (some (ws, whole), s) =>
      let b := bytesOf ws
      let len := leAt b 0 2
      if !whole || len == 0 || decide (serMax p s < len) || decide (ws.length ≠ 1 + (len + 7) / 8) then
        serDone p len 4 0x07 (report (0x1407 + 0x100 * p) len s)
      else { s with ser := { s.ser with wait := tins p (slice b 8 len) s.ser.wait } }

/-- The line has been idle for TURN bit times: the waiting record goes out (R440, R441). -/
def serTxStart (p : Nat) (s : State) : State :=
  match tfind p s.ser.wait with
  | none => s
  | some b =>
    if serOn p s && on (SER_CTRL_TX_EN p) s then
      let w := if on (SER_CTRL_CRC p) s then b ++ leBytes 2 (crc16 b) else b
      let s := emit (.ser p w) { s with ser := { s.ser with wait := tdel p s.ser.wait } }
      commitSer p (serDone p b.length 0 0 (count (SER_CNT_TX_OK p) 1 s))
    else s

/-! ### Meanings -/

def execCanFrameRx (p idw fmt : Nat) (data : List Byte) (err : Bool) (age : Nat) (s : State) := run (canFrameRx (p % 2) idw fmt data err age) s
def execRateDwell (p : Nat) (s : State) := run (rateDwell (p % 2)) s
def execMailboxPend (p n : Nat) (s : State) := run (mbPend (p % 2) (n % 64)) s
def execMailboxAbort (p n : Nat) (onBus : Bool) (s : State) := run (mbAbort (p % 2) (n % 64) onBus) s
def execMailboxEnd (p outcome : Nat) (s : State) := run (canTxEnd (p % 2) outcome) s
def execRecover (p : Nat) (s : State) := run (canRecover (p % 2)) s
def execBusOffRecovery (p : Nat) (s : State) := run (canRecovered (p % 2)) s
def execCanSleep (p : Nat) (s : State) := run (canSleep (p % 2)) s
def execCanWake (p idw : Nat) (data : List Byte) (wup err : Bool) (s : State) := run (canWake (p % 2) idw data wup err) s
def execCanEnable (p : Nat) (s : State) := run (canEnable (p % 2)) s
def execCanDisable (p : Nat) (onBus : Bool) (s : State) := run (canDisable (p % 2) onBus) s
def execSerFrameRx (p : Nat) (cs : List Nat) (err age : Nat) (s : State) := run (serFrameRx (p % 2) cs err age) s
def execSerTxRecord (p : Nat) (s : State) := run (serTxRecord (p % 2)) s
def execSerTxStart (p : Nat) (s : State) := run (serTxStart (p % 2)) s

end Sys2Proof.Machine
end

