-- ==== Sys2Proof/Machine/Dio.lean ====
section
/-!
DEFINITION. Sys2Proof/Machine/Dio.lean: DIO (14_local_axes_and_io.md): the sixteen digital inputs and the eight digital outputs (R466 to R474).
-/
namespace Sys2Proof.Machine

/-- The stop lane is in PERMIT, or holds a double fault (Table STP-2). -/
def laneInPermit (s : State) : Bool := rd STP_STATUS_STATE s == 1
def doubleFaulted (s : State) : Bool := rd STP_STATUS_FAULT s == 2

/-- DIO runs: enabled in any state but Off (Table PWR-1). -/
def dioOn (s : State) : Bool := on DIO_CTRL_EN s && !s.pwr.off

/-- Bit i of a field, and the state with it set. -/
def fbit (f : Fld) (i : Nat) (s : State) : Bool := bit (rd f s) i
def wrBit (f : Fld) (i : Nat) (b : Bool) (s : State) : State := wr f (setBits (rd f s) i 1 (b2n b)) s

/-- The level of output k as driven: commanded on, outputs driven, and not switched off by its limiter. -/
def outLevel (k : Nat) (s : State) : Bool := on DIO_CTRL_EN s && on DIO_CTRL_OUT_EN s && fbit DIO_OUT_OUT k s && !fbit DIO_OUT_STAT_OVERCURRENT k s

/-- READBACK shows what the outputs drive. -/
def showOut (s : State) : State :=
  wr DIO_OUT_STAT_READBACK ((List.range 8).foldl (fun (a : Nat) k => a + b2n (outLevel k s) * 2 ^ k) 0) s

/-- The present state of output k never changes under a stop (STOP_STATE other than HOLD). -/
def stopHeld (k : Nat) (s : State) : Bool := rd (DIO_OUT_CFG_STOP_STATE k) s != 2

/-- An edge of a filtered input (R466). -/
def diEdge (i : Nat) (level : Bool) (s : State) : State :=
  if !dioOn s || fbit DIO_IN_FILT i s == level then s
  else
    let s := wrBit DIO_IN_FILT i level (wrBit DIO_IN_RAW i level s)
    let s := wrBit (if level then DIO_EDGE_RISE else DIO_EDGE_FALL) i true s
    if fbit (if level then DIO_EDGE_EN_RISE else DIO_EDGE_EN_FALL) i s then raise 217 s else s

/-- Bit k of DIO_OUT written with b: in PULSE mode a rise starts the pulse and a 0 ends it (R467). -/
def writeOut (k : Nat) (b : Bool) (s : State) : State :=
  if fbit DIO_OUT_OUT k s = b then s
  else
    let pulse : Tbl Nat :=
      if b && rd (DIO_OUT_CFG_MODE k) s == 1 then tins k (s.clk.frc + ticksOfMs (rd (DIO_OUT_CFG_PULSE k) s)) s.dio.pulse
      else tdel k s.dio.pulse
    wrBit DIO_OUT_OUT k b { s with dio := { s.dio with pulse := pulse } }

/-- The bits of a write that R469 ignores. -/
def ignoredBits (v : Nat) (s : State) : List Nat :=
  if laneInPermit s then [] else (List.range 8).filter (fun k => stopHeld k s && bit v k != fbit DIO_OUT_OUT k s)

/-- A write to DIO_OUT (R467, R469; R219 after a double fault). -/
def dioWrite (v : Nat) (s : State) : State :=
  if s.pwr.off then s
  else if doubleFaulted s then report 0x1705 (v % 256) s
  else
    let ign := ignoredBits v s
    let s := showOut ((List.range 8).foldl (fun s k => if ign.contains k then s else writeOut k (bit v k) s) s)
    if ign.isEmpty then s
    else report 0x1704 (ign.foldl (fun (a : Nat) k => a + 2 ^ k) 0) (raise 221 (count DIO_CNT_STOP_REFUSED ign.length s))

/-- The end of a pulse (R467): it runs in any state but Off, also under HOLD at a stop epoch (R468). -/
def pulseEnd (k : Nat) (s : State) : State :=
  if s.pwr.off then s
  else match tfind k s.dio.pulse with
  | some t => if t ≤ s.clk.frc then showOut (writeOut k false s) else s
  | none => s

/-- Outputs at a stop epoch (R468). -/
def dioStopEpoch (s : State) : State :=
  showOut ((List.range 8).foldl (fun s k =>
    if stopHeld k s then
      wrBit DIO_OUT_OUT k (rd (DIO_OUT_CFG_STOP_STATE k) s == 1) { s with dio := { s.dio with pulse := tdel k s.dio.pulse } }
    else s) s)

/-- Overcurrent on an output that is on (R470, R472). -/
def overcurrent (k : Nat) (s : State) : State :=
  if !dioOn s || !outLevel k s || on DIO_OUT_STAT_SUPPLY_LOW s then s
  else report 0x1701 k (raise 218 (count DIO_CNT_OVERCURRENT 1 (showOut (wrBit DIO_OUT_STAT_OVERCURRENT k true s))))

/-- Writing 1 to an OVERCURRENT bit (R470): the output is on again where DIO_OUT holds it on; after a double fault such a write would change
an output, and it is refused (R219). -/
def overcurrentClear (k : Nat) (s : State) : State :=
  if s.pwr.off || !fbit DIO_OUT_STAT_OVERCURRENT k s then s
  else if doubleFaulted s && fbit DIO_OUT_OUT k s then report 0x1705 k s
  else showOut (wrBit DIO_OUT_STAT_OVERCURRENT k false s)

/-- Open load (R471, R472). -/
def openLoad (k : Nat) (low : Bool) (s : State) : State :=
  if !dioOn s || !outLevel k s then s
  else if !low then wrBit DIO_OUT_STAT_OPEN k false s
  else if on DIO_OUT_STAT_SUPPLY_LOW s then s
  else report 0x1702 k (raise 219 (count DIO_CNT_OPEN 1 (wrBit DIO_OUT_STAT_OPEN k true s)))

/-- The output supply falls, or returns (R472, Table AXS-7). -/
def supplyLow (s : State) : State :=
  if !dioOn s || on DIO_OUT_STAT_SUPPLY_LOW s then s
  else report 0x1703 0 (raise 220 (count DIO_CNT_SUPPLY_LOW 1 (wr DIO_OUT_STAT_SUPPLY_LOW 1 s)))

def supplyReturn (s : State) : State := if !dioOn s || !on DIO_OUT_STAT_SUPPLY_LOW s then s else raise 220 (wr DIO_OUT_STAT_SUPPLY_LOW 0 s)

def execDiEdge (i : Nat) (level : Bool) (s : State) := run (diEdge (i % 16) level) s
def execDoWrite (v : Nat) (s : State) := run (dioWrite v) s
def execDoPulseEnd (k : Nat) (s : State) := run (pulseEnd (k % 8)) s
def execDoOvercurrent (k : Nat) (s : State) := run (overcurrent (k % 8)) s
def execDoOvercurrentClear (k : Nat) (s : State) := run (overcurrentClear (k % 8)) s
def execDoOpen (k : Nat) (low : Bool) (s : State) := run (openLoad (k % 8) low) s
def execOutSupplyLow (s : State) := run supplyLow s
def execOutSupplyReturn (s : State) := run supplyReturn s

end Sys2Proof.Machine
end

