-- ==== Sys2Proof/Machine/Ref.lean ====
section
/-!
DEFINITION. Sys2Proof/Machine/Ref.lean: the reference station (02_reference_station.md, R44 to R63, R624, R643, R644): antennas, reference
position, observation records, the multipath map, the time discipline and the caster.
-/
namespace Sys2Proof.Machine

def setRef (r : Ref) (s : State) : State := { s with ref := r }

/-- States of Table REF-3. -/
def refState (s : State) : Nat := rd REF_STATUS_STATE s

/-- Enters a state of Table REF-3; a change raises REF_STATE. -/
def enterRef (st : Nat) (s : State) : State :=
  if refState s = st then s else raise 49 (wr REF_STATUS_STATE st s)

/-! ### Signals and channels (R47, Table REF-2) -/

/-- Multipath group of a signal code (Table REF-2). -/
def sigGroup (c : Nat) : Nat :=
  match c with
  | 2 => 2 | 13 => 2 | 15 => 2
  | 3 => 3 | 5 => 3 | 10 => 3 | 16 => 3
  | 6 => 4
  | 7 => 5 | 11 => 5
  | 8 => 1 | 12 => 1
  | _ => 0

/-- The signals an antenna tracks: enabled, above the masks, and of those the 192 of greatest elevation, at equal elevation the lowest SIG codes (R47). -/
def tracked (l : List Sig) (s : State) : List Sig :=
  let ok := l.filter (fun g => bit (rd REF_SIG_EN_SIG s) g.sig && decide (1000 * rd REF_CTRL_ELEV_MASK s ≤ g.el) && decide (rd REF_CTRL_CN0_MASK s ≤ g.cn0))
  (sortBy (fun a b => decide (b.el < a.el ∨ (a.el = b.el ∧ a.sig ≤ b.sig))) ok).take 192

/-- Satellites among signals. -/
def satCount (l : List Sig) : Nat := ((l.map (fun g => (g.sys, g.prn))).eraseDups).length

/-! ### Multipath map (Tables REF-6, REF-7) -/

def mapBase (s : State) : Nat := 0x1000 * rd REF_MPM_BASE_ADDR s

/-- Address of the cell of a signal on antenna a (0 A1, 1 A2). -/
def cellAddr (a sig el az : Nat) (s : State) : Nat :=
  mapBase s + 64 + 8 * (7776 * a + 1296 * sigGroup sig + 72 * (el / 5000) + az / 5000)

/-- A cell as REF reads it: CODE_MP, CN0_DEF, CARR_SD, COUNT, PASSES, FLAGS; an uncorrectable cell is empty (Table MEM-3). -/
def readCell (addr : Nat) (s : State) : (Int × Int × Nat × Nat × Nat × Nat) × State :=
  let r := eccRead addr 1 6 s
  if r.1 then
    let m := r.2.mem
    ((sgn 16 (loadLe m addr 2), sgn 8 (loadLe m (addr + 2) 1), loadLe m (addr + 3) 1, loadLe m (addr + 4) 2, loadLe m (addr + 6) 1, loadLe m (addr + 7) 1), r.2)
  else ((0, 0, 0, 0, 0, 0), r.2)

/-- The quotient of a correction by n, rounded as the model leaves open where it is not exact. -/
def divOpen (i : Int) (n : Nat) : Int :=
  if i % n = 0 then i / n else i / n + (if Config.mpRound i n then 1 else 0)

/-- The square root of a sum, rounded likewise. -/
def rootOpen (n : Nat) : Nat :=
  let r := Nat.sqrt n
  if r * r = n then r else r + (if Config.mpRound n 0 then 1 else 0)

/-- One sample of the learning code of the chapter, for a signal in lock for at least 60 s above the mask. -/
def learn (x : MpSample) (s : State) : State :=
  if x.lock < 60 ∨ x.el < 1000 * rd REF_CTRL_ELEV_MASK s ∨ x.el ≥ 90000 ∨ x.az ≥ 360000 then s
  else
    let addr := cellAddr (x.ant % 2) x.sig x.el x.az s
    match readCell addr s with
    | ((code, def0, sd, cnt, passes, flags), s) =>
      let n := max 1 (min (cnt + 1) (rd REF_MPM_CFG_N_TAU s))
      let code' := satS 16 (code + divOpen (x.cmc - code) n)
      let def' := satS 8 (def0 + divOpen (x.deficit - def0) n)
      let sd' := if rd REF_STATUS_MON s = 2 then
          min 255 (rootOpen ((sd * sd : Int) + divOpen ((x.res * x.res : Int) - sd * sd) n).toNat) else sd
      let cnt' := min (cnt + 1) 65535
      let passes' := if x.newPass then min (passes + 1) 255 else passes
      let mature := decide (rd REF_MPM_CFG_MATURE s ≤ passes')
      let shadow := mature && decide ((rd REF_MPM_CFG_SHADOW_CN0 s : Int) < def')
      let s := memWrite addr (leBytes 2 (enc 16 code') ++ leBytes 1 (enc 8 def') ++ leBytes 1 sd' ++ leBytes 2 cnt' ++ leBytes 1 passes' ++
        leBytes 1 (b2n mature + 2 * b2n shadow)) 6 s
      let d (b : Bool) (i : Nat) (f : Fld) (s : State) : State :=
        if b && !bit flags i then count f 1 s else if !b && bit flags i then wr f (rd f s - 1) s else s
      wr REF_STATUS_MP_DIRTY 1 (d mature 0 REF_MPM_STATUS_MATURE (d shadow 1 REF_MPM_STATUS_SHADOW s))

/-- MULTIPATH_LEARNING while REF runs with MP_LEARN set. -/
def learnAll (l : List MpSample) (s : State) : State :=
  if on REF_CTRL_EN s && on REF_CTRL_MP_LEARN s && awake s then l.foldl (fun s x => learn x s) s else s

/-- The whole map as offsets and bytes, and a copy of it laid down. -/
def mapCells (s : State) : List Host.Cell :=
  (s.mem.filter (fun c => decide (mapBase s ≤ c.1 ∧ c.1 < mapBase s + 124480))).map (fun c => (c.1 - mapBase s, c.2))

def clearMapMem (s : State) : State :=
  s.setMem (s.mem.filter (fun c => decide (c.1 < mapBase s ∨ mapBase s + 124480 ≤ c.1)))

/-- Writes the map's header for an ARP (Table REF-6), its CRC left to the save. -/
def writeMapHeader (p : Int × Int × Int) (s : State) : State :=
  memWrite (mapBase s + 8) (leBytes 2 1 ++ leBytes 2 7776 ++ leBytes 8 (enc 64 p.1) ++ leBytes 8 (enc 64 p.2.1) ++ leBytes 8 (enc 64 p.2.2)) 6 s

/-- Clears the whole map, its header keeping the present ARP (R57). -/
def clearMap (s : State) : State :=
  let s := wr REF_MPM_STATUS_MATURE 0 (wr REF_MPM_STATUS_SHADOW 0 (clearMapMem s))
  wr REF_STATUS_MP_DIRTY 1 (match s.ref.pos with | some p => writeMapHeader p s | none => s)

/-- Saves the map over the older of its two copies, with the next SEQ (R56), and raises MPM_SAVED; a save that fails leaves both copies. -/
def saveMap (ok : Bool) (s : State) : State :=
  if !ok then report 0x0604 0 s
  else
    let seqOf := fun (c : Option (Nat × List Host.Cell)) => match c with | some x => x.1 + 1 | none => 0
    let a := seqOf s.site.mapA
    let b := seqOf s.site.mapB
    let seq := max a b
    let s := memWrite (mapBase s) (leBytes 4 seq) 6 s
    let copy := some (seq, mapCells s)
    let site := if a ≤ b then { s.site with mapA := copy } else { s.site with mapB := copy }
    raise 61 (wr REF_STATUS_MP_DIRTY 0 { s with site := site })

/-! ### Reference position (R46, R48, R49, R51, R57) -/

def dist2 (p q : Int × Int × Int) : Nat :=
  ((p.1 - q.1) ^ 2 + (p.2.1 - q.2.1) ^ 2 + (p.2.2 - q.2.2) ^ 2).toNat

/-- A new POS_SERIAL (R46, R49). -/
def bumpSerial (s : State) : State := raise 56 (countWrap REF_POS_SERIAL_SERIAL 1 s)

/-- Takes a position of A1's ARP into use at a cycle start: POS_SERIAL, POS_CHANGED, and a clear map when the header's ARP lies more than
50 mm away (R51, R57). -/
def adoptPos (p : Int × Int × Int) (s : State) : State :=
  let b := mapBase s
  let old : Int × Int × Int := (sgn 64 (loadLe s.mem (b + 12) 8), sgn 64 (loadLe s.mem (b + 20) 8), sgn 64 (loadLe s.mem (b + 28) 8))
  let s := bumpSerial (setRef { s.ref with pos := some p, nextPos := none } s)
  if 800 * 800 < dist2 p old then clearMap s else s

/-- The staged reference position (REF_POS registers). -/
def stagedPos (s : State) : Int × Int × Int :=
  (sgn 64 (rd64 REF_POS_X_LO REF_POS_X_HI s), sgn 64 (rd64 REF_POS_Y_LO REF_POS_Y_HI s), sgn 64 (rd64 REF_POS_Z_LO REF_POS_Z_HI s))

def refCmdDone (cmd status error : Nat) (s : State) : State := cmdResQuiet 6 0 0x58 cmd status error s

/-- POS_LOAD at its cycle start: refused with 0x0605 when more than 50 m from the single-point solution, and with 0x06F4 when there is none (R48, R623). -/
def runPosLoad (spp : Option (Int × Int × Int)) (s : State) : State :=
  match spp with
  | none => refCmdDone 2 4 0x06F4 s
  | some q =>
    let p := stagedPos s
    if 800000 * 800000 < dist2 p q then refCmdDone 2 4 0x0605 s
    else refCmdDone 2 0 0 (adoptPos p s)

/-- Starts averaging anew (R50). -/
def startSurvey (s : State) : State :=
  enterRef 2 (wr REF_SURV_STATUS_SIGMA 0xFFFF (wr REF_SURV_STATUS_ELAPSED 0 (setRef { s.ref with surveyFrom := s.clk.frc } s)))

/-! ### Time discipline (Table REF-8) -/

def timeState (s : State) : Nat := rd REF_STATUS_TIME_STATE s

/-- Enters a time state, with the event of its entry. -/
def enterTime (t : Nat) (s : State) : State :=
  if timeState s = t then s
  else
    let s := wr REF_STATUS_TIME_STATE t s
    match t with | 1 => raise 57 s | 2 => raise 58 s | 3 => raise 59 s | _ => s

/-- Nanoseconds by which slewing has moved site time against the FRC. -/
def slewed (s : State) : Int := ((s.clk.siteAcc : Int) - s.clk.frc * 0x200000000) / 2 ^ 32

/-- The increment for a rate offset in 2^-32 ns per tick, held within 500 ppm of 2 ns (R6, R380). -/
def siteInc (d : Int) : Nat := (0x200000000 + max (-4294967) (min 4294967 d)).toNat

def setSiteInc (d : Int) (s : State) : State := { s with clk := { s.clk with incSite := siteInc d } }

/-- The first setting of site time (R5, R380, R597): its offset is written once. -/
def firstSetting (t : Nat) (s : State) : State :=
  wr PWR_STATUS_TIME_SET 1 { s with clk := { s.clk with siteSet := true, siteAcc := 0, siteOfs := t * 2 ^ 32 } }

/-- The SUSPECT limit in ns. -/
def suspectNs (s : State) : Nat := 1000 * rd REF_TIME_CFG_SUSPECT s

/-- |TIME_ERR − ACCEPT_REM| lies above SUSPECT. -/
def isSuspect (err : Int) (s : State) : Bool := decide (suspectNs s < (err - s.ref.acceptRem).natAbs)

/-- Moves ACCEPT_REM toward 0 by what the slew has removed since the last solution, and clears it once |TIME_ERR| is within SUSPECT (R58). -/
def decayAccept (err : Int) (s : State) : State :=
  let d := (slewed s - s.ref.slewMark).natAbs
  let r := s.ref.acceptRem
  let r' := if r.natAbs ≤ d then 0 else if 0 < r then r - d else r + d
  let r' := if err.natAbs ≤ suspectNs s then 0 else r'
  setRef { s.ref with acceptRem := r', slewMark := slewed s } s

/-- The loop of R59 sets the rate. -/
def steer (err : Int) (s : State) : State :=
  let r := fresh s
  wr PTC_STATUS_SITE_SRC 0 (setSiteInc (Config.siteLoop r.1 err) r.2)

/-- The rate of holdover (R60). -/
def coast (s : State) : State := let r := fresh s; setSiteInc (Config.holdRate r.1) r.2

/-- Seconds in holdover (REF_HOLD_TIME). -/
def holdSeconds (s : State) : Nat := match s.ref.holdFrom with | some f => (s.clk.frc - f) / 500000000 | none => 0

/-- Enters LOCKED: holdover ends, the hold time starts afresh. -/
def lockTime (err : Int) (s : State) : State :=
  steer err (enterTime 1 (setRef { s.ref with holdFrom := none, returned := false, agreeFrom := none, refusing := false } s))

/-- A solution is held suspect: event 60, its count, cause 0x06 (Table REF-8, Table REF-12). -/
def suspectSolution (alarm : Bool) (s : State) : State :=
  note (.event 60 alarm) (count REF_CNT_TIME_SUSPECT 1 (report 0x0606 0 s))

/-- The HOLDOVER rows for a solution: LOCKED within SUSPECT; otherwise CONFIRM counts while two constellations agree. -/
def holdoverSolution (err : Int) (agree : Bool) (s : State) : State :=
  if !isSuspect err s then lockTime err s
  else setRef { s.ref with agreeFrom := if agree then some (s.ref.agreeFrom.getD s.clk.frc) else none } s

/-- REF has a time solution: TAI in ns (Table REF-8, R624, R643). -/
def timeSolution (tai : Nat) (agree : Bool) (freq : Int) (s : State) : State :=
  if !on REF_CTRL_EN s || !awake s then s
  else
    let fresh_ := match s.ref.lastSol with | some f => decide (s.clk.frc - f < 1000000000) | none => false
    let s := setRef { s.ref with lastSol := some s.clk.frc, refusing := s.ref.refusing && fresh_ } s
    let err : Int := (siteNs s : Int) - tai
    let s := wrS REF_FREQ_ERR (satS 32 freq) s
    let s := if s.clk.siteSet then wrS REF_TIME_ERR (satS 32 err) s else s
    if !on REF_CTRL_TIME_MASTER s || linkTime s then s
    else
      match timeState s with
      | 0 =>
        if s.clk.siteSet then lockTime err s
        else if s.nv.time ≤ tai then
          lockTime 0 (wrS REF_TIME_ERR 0 (firstSetting tai s))
        else if s.ref.refusing then s
        else suspectSolution false (setRef { s.ref with refusing := true } s)
      | 1 =>
        let s := decayAccept err s
        if isSuspect err s then
          coast (suspectSolution true (enterTime 2 (setRef { s.ref with holdFrom := some s.clk.frc, agreeFrom := if agree then some s.clk.frc else none } s)))
        else steer err s
      | 2 => holdoverSolution err agree s
      | _ => holdoverSolution err agree (enterTime 2 (setRef { s.ref with returned := true, agreeFrom := none } s))

/-- No time solution for 2 s: LOCKED runs on, a return from FREE ends, an episode of refusal ends (Table REF-8, R624, R643). -/
def timeLoss (s : State) : State :=
  let gone := match s.ref.lastSol with | some f => decide (1000000000 ≤ s.clk.frc - f) | none => true
  if !on REF_CTRL_EN s || !gone then s
  else
    let s := setRef { s.ref with refusing := false, agreeFrom := none } s
    match timeState s with
    | 1 => coast (enterTime 2 (setRef { s.ref with holdFrom := some s.clk.frc } s))
    | 2 => if s.ref.returned then raiseFree s else s
    | _ => s
where
  raiseFree (s : State) : State := raiseAlarm 59 (wr REF_STATUS_TIME_STATE 3 s)

/-- REF_HOLD_TIME has reached HOLD_LIMIT hours without a return from FREE (Table REF-8). -/
def holdoverLimit (s : State) : State :=
  if timeState s = 2 ∧ s.ref.returned = false ∧ 3600 * rd REF_TIME_CFG_HOLD_LIMIT s ≤ holdSeconds s then
    raiseAlarm 59 (wr REF_STATUS_TIME_STATE 3 s)
  else s

/-- The accepting row of Table REF-8: an alarm, ACCEPT_REM set to TIME_ERR, LOCKED, slewing (R58). -/
def acceptJump (s : State) : State :=
  let err := rdS REF_TIME_ERR s
  let s := setRef { s.ref with acceptRem := err, slewMark := slewed s } s
  let s := setRef { s.ref with holdFrom := none, returned := false, agreeFrom := none } s
  steer err (raiseAlarm 57 (wr REF_STATUS_TIME_STATE 1 s))

/-- A solution not older than 2 s is held. -/
def holdsSolution (s : State) : Bool := match s.ref.lastSol with | some f => decide (s.clk.frc - f < 1000000000) | none => false

/-- HOLDOVER with a suspect solution held (R644). -/
def mayAccept (s : State) : Bool :=
  timeState s == 2 && on REF_CTRL_TIME_MASTER s && holdsSolution s && isSuspect (rdS REF_TIME_ERR s) s

/-- CONFIRM seconds of agreement (Table REF-8). -/
def timeConfirm (s : State) : State :=
  match s.ref.agreeFrom with
  | some f =>
    if mayAccept s && decide (500000000 * rd REF_TIME_CFG_CONFIRM s ≤ s.clk.frc - f) then acceptJump s else s
  | none => s

/-- TIME_ACCEPT at its execution (R644). -/
def runTimeAccept (s : State) : State :=
  if mayAccept s then refCmdDone 5 0 0 (acceptJump s) else refCmdDone 5 4 0x06F4 s

/-! ### Commands -/

/-- REF_CMD: the command waits for the next cycle start. Before site time is set no cycle starts, and TIME_ACCEPT is refused at once
(R644); a command while one waits is refused with 0x06F4 (R623). -/
def refCmd (c : Nat) (s : State) : State :=
  if c = 0 ∨ 5 < c then refCmdDone c 4 0x06F3 s
  else if s.ref.pendingCmd ≠ 0 then refCmdDone c 4 0x06F4 s
  else if c = 5 ∧ s.clk.siteSet = false then refCmdDone 5 4 0x06F4 s
  else setRef { s.ref with pendingCmd := c } s

/-- Executes the command that waits, at a cycle start. -/
def refCmdRun (spp : Option (Int × Int × Int)) (s : State) : State :=
  let c := s.ref.pendingCmd
  let s := setRef { s.ref with pendingCmd := 0 } s
  match c with
  | 1 => if on REF_CTRL_EN s then refCmdDone 1 0 0 (startSurvey s) else refCmdDone 1 4 0x06F4 s
  | 2 => runPosLoad spp s
  | 3 => refCmdDone 3 0 0 (clearMap s)
  | 4 => refCmdDone 4 0 0 (saveMap true s)
  | 5 => runTimeAccept s
  | _ => s

/-! ### Antennas (R44, R45, Table REF-1) -/

def biasField (n : Nat) : Fld := if n = 0 then REF_STATUS_BIAS1 else REF_STATUS_BIAS2

/-- One bias sample of antenna n. -/
def biasSample (n cur : Nat) (s : State) : State :=
  if !awake s then s
  else
  let en := if n = 0 then on REF_CTRL_BIAS1_EN s else on REF_CTRL_BIAS2_EN s
  let low := if n = 0 then s.ref.low1 else s.ref.low2
  let low' := if cur < 40 then low + 1 else 0
  let s := setRef (if n = 0 then { s.ref with low1 := low' } else { s.ref with low2 := low' }) s
  let old := rd (biasField n) s
  let new := if !en then 0 else if 1200 < cur then 3 else if cur < 40 then (if 10 ≤ low' then 1 else old)
    else if cur ≤ 1000 then 2 else old
  let s := wr (biasField n) new s
  if new ≠ old ∧ (new = 1 ∨ new = 3) then raise (50 + n) (count REF_CNT_ANT_FAULT 1 s) else s

/-- Antenna n is in OPEN or SHORT. -/
def biasFault (n : Nat) (s : State) : Bool := let b := rd (biasField n) s; b == 1 || b == 3

/-- The antenna in use: 0 A1, 1 A2. -/
def antInUse (s : State) : Nat := rd REF_STATUS_ANT_IN_USE s

def satsOn (n : Nat) (s : State) : Nat := if n = 0 then s.ref.sats1 else s.ref.sats2

/-- The reference antenna is faulted: bias, or no satellite for 10 cycles (R45). -/
def refFaulted (s : State) : Bool := biasFault (antInUse s) s || decide (10 ≤ s.ref.noSat)

/-- R45's other conditions for a swap. -/
def maySwap (s : State) : Bool :=
  on REF_CTRL_AUTO_SWAP s && on REF_CTRL_MON_EN s && decide (5 ≤ satsOn (1 - antInUse s) s)

/-- Changes the reference antenna (R46). -/
def swapAntenna (n : Nat) (s : State) : State :=
  raise 52 (bumpSerial (count REF_CNT_SWAP 1 (wr REF_STATUS_ANT_IN_USE n (setRef { s.ref with noSat := 0 } s))))

/-- Monitor test of one epoch: the resolved baseline against the surveyed one (REF_MON_CFG). -/
def monitorTest (b : Option (Int × Int × Int)) (s : State) : State :=
  if !on REF_CTRL_MON_EN s then wr REF_STATUS_MON 0 s
  else
    match b with
    | none => if rd REF_STATUS_MON s = 0 then wr REF_STATUS_MON 1 s else s
    | some v =>
      let sv : Int × Int × Int := (rdS REF_MON_E s, rdS REF_MON_N s, rdS REF_MON_U s)
      let lim := 16 * rd REF_MON_CFG_LIMIT s
      let bad := decide (lim * lim < dist2 v sv)
      let s := setRef { s.ref with monFail := if bad then s.ref.monFail + 1 else 0, monPass := if bad then 0 else s.ref.monPass + 1 } s
      let k := rd REF_MON_CFG_EPOCHS s
      let m := rd REF_STATUS_MON s
      if bad then
        if k ≤ s.ref.monFail ∧ m ≠ 3 then raise 53 (count REF_CNT_MON_ALARM 1 (wr REF_STATUS_MON 3 s))
        else if m = 0 then wr REF_STATUS_MON 1 s else s
      else if k ≤ s.ref.monPass ∧ m ≠ 2 then
        let s := wr REF_STATUS_MON 2 s
        if m = 3 then raise 54 s else s
      else if m = 0 then wr REF_STATUS_MON 1 s else s

/-- Table REF-3 at a cycle start. -/
def refStates (s : State) : State :=
  let sats := satsOn (antInUse s) s
  let usable := !refFaulted s || maySwap s
  match refState s with
  | 1 =>
    if s.ref.pos.isSome && decide (5 ≤ sats) then enterRef 3 s
    else if rd REF_CTRL_POS_MODE s = 1 ∧ s.ref.pos = none ∧ 5 ≤ sats then startSurvey s
    else s
  | 2 => if !usable then enterRef 5 (report 0x0602 0 s) else s
  | 3 =>
    if !usable then enterRef 5 (report (if biasFault 0 s && biasFault 1 s then 0x0602 else 0x0601) 0 s)
    else if rd REF_STATUS_MON s = 3 ∨ antInUse s = 1 then enterRef 4 s else s
  | 4 =>
    if !usable then enterRef 5 (report (if biasFault 0 s && biasFault 1 s then 0x0602 else 0x0601) 0 s)
    else if rd REF_STATUS_MON s ≠ 3 ∧ antInUse s = 0 then enterRef 3 s else s
  | 5 => if usable then enterRef 1 s else s
  | _ => s

/-! ### Observation records (Tables REF-4, REF-5; R52, R53, R55) -/

/-- The mature cell that corrects a signal, when MP_APPLY is 1 (R55): CODE_MP, CARR_SD, SHADOW. -/
def matureCell (a : Nat) (g : Sig) (s : State) : Option (Int × Nat × Bool) × State :=
  if !on REF_CTRL_MP_APPLY s then (none, s)
  else
    match readCell (cellAddr a g.sig g.el g.az s) s with
    | ((code, _, sd, _, _, flags), s) => (if bit flags 0 then some (code, sd, bit flags 1) else none, s)

/-- One observation entry (Table REF-5). -/
def obsEntry (a : Nat) (g : Sig) (s : State) : List Byte × State :=
  match matureCell a g s with
  | (c, s) =>
    let r := fresh s
    let fl (mp sh : Bool) := b2n g.lli + 2 * b2n g.half + 4 * b2n mp + 8 * b2n sh + 16 * (if g.sys = 1 then g.glo % 16 else 0)
    let line (flags : Nat) (pr : Int) (spr scp : Nat) : List Byte :=
      leBytes 1 g.sys ++ leBytes 1 g.prn ++ leBytes 1 g.sig ++ leBytes 1 flags ++ leBytes 8 (enc 64 pr) ++ leBytes 8 (enc 64 g.cp) ++
      leBytes 4 (enc 32 g.dop) ++ leBytes 1 (min g.cn0 255) ++ leBytes 1 0 ++ leBytes 2 (min g.lock 65535) ++ leBytes 2 (min spr 65535) ++ leBytes 2 (min scp 65535)
    match c with
    | some (code, sd, sh) => (line (fl true sh) ((g.pr : Int) - 16 * code) (Config.mpSigma r.1 % 65536) (10 * sd), r.2)
    | none => (line (fl false false) g.pr g.sigPr g.sigCp, s)

def obsEntries (a : Nat) : List Sig → State → List Byte × State
  | [], s => ([], s)
  | g :: t, s => let x := obsEntry a g s; let y := obsEntries a t x.2; (x.1 ++ y.1, y.2)

/-- A record header (Table REF-4). -/
def obsHeader (n ant : Nat) (missing raw : Bool) (s : State) : List Byte :=
  let fl := b2n (timeState s != 1) + 2 * b2n (on REF_CTRL_MP_APPLY s) + 4 * b2n (rd REF_STATUS_MON s == 3) + 8 * b2n (refState s == 2) +
    16 * b2n missing + 32 * b2n raw
  leBytes 4 (cycleNo s) ++ leBytes 8 (siteNs s) ++ leBytes 4 (rd REF_TIME_ERR s) ++ leBytes 2 (rd REF_POS_SERIAL_SERIAL s) ++
    leBytes 2 n ++ leBytes 1 (ant + 1) ++ leBytes 1 fl ++ leBytes 10 0

/-- A full record of one antenna's tracked signals. -/
def obsRecord (a : Nat) (l : List Sig) (raw : Bool) (s : State) : List Byte × State :=
  let t := tracked l s
  let e := obsEntries a t s
  (obsHeader t.length a false raw e.2 ++ e.1, e.2)

/-- The cycle's reference record goes to REF_FLUME.SOL_FLUME (R52); a record with MISSING in FAULT (Table REF-3). -/
def refRecord (m : Meas) (s : State) : State :=
  let st := refState s
  let a := antInUse s
  let s := setRef { s.ref with recordCycle := some (cycleNo s) } s
  if st = 5 then (pushBytes (rd REF_FLUME_SOL_FLUME s) (obsHeader 0 a true false s) s).2
  else if st = 2 ∨ st = 3 ∨ st = 4 then
    let r := obsRecord a (if a = 0 then m.a1 else m.a2) false s
    (pushBytes (rd REF_FLUME_SOL_FLUME s) r.1 r.2).2
  else s

/-- REF's S-class fields take effect at a cycle start (R63). -/
def commitRef (s : State) : State :=
  let mine := s.held.filter (fun p => p.1 / 0x100000000 == 6)
  let s := mine.foldl (fun s p => wr ⟨6, p.1 % 0x100000000, 32, 0⟩ p.2 s) s
  { s with held := s.held.filter (fun p => p.1 / 0x100000000 != 6) }

/-- A program's choice of reference antenna takes effect at a cycle start, as a swap does (R46). -/
def followRefAnt (was : Nat) (s : State) : State :=
  let want := rd REF_CTRL_REF_ANT s
  if want ≠ was ∧ want ≠ antInUse s then swapAntenna want s else s

/-- What REF does at a cycle start. -/
def refCycle (m : Option Meas) (s : State) : State :=
  let was := rd REF_CTRL_REF_ANT s
  let s := followRefAnt was (commitRef s)
  if !awake s then s
  else if !on REF_CTRL_EN s then refCmdRun none s
  else
    let s := match s.ref.nextPos with | some p => adoptPos p s | none => s
    let x : Meas := m.getD { a1 := [], a2 := [], baseline := none, spp := none }
    let s := refCmdRun x.spp s
    let s := match m with
      | some x =>
        let s := setRef { s.ref with sats1 := satCount (tracked x.a1 s), sats2 := satCount (tracked x.a2 s) } s
        let n := satsOn (antInUse s) s
        let s := setRef { s.ref with noSat := if n = 0 then s.ref.noSat + 1 else 0 } s
        let l := if antInUse s = 0 then x.a1 else x.a2
        monitorTest x.baseline (wr REF_STATUS_SATS n (wr REF_STATUS_TRACKED (tracked l s).length s))
      | none => s
    let s := if refFaulted s && maySwap s then swapAntenna (1 - antInUse s) s else s
    let s := refStates s
    match m with
    | some x => refRecord x s
    | none => s

/-- EPOCH_LATE: a header alone with MISSING in place of a record not complete 3.0 ms after its cycle start (R53). -/
def epochLate (s : State) : State :=
  if !on REF_CTRL_EN s || !awake s || s.ref.recordCycle == some (cycleNo s) || refState s < 2 then s
  else
    let s := setRef { s.ref with recordCycle := some (cycleNo s) } s
    let s := raise 62 (count REF_CNT_EPOCH_LATE 1 (report 0x0603 0 s))
    (pushBytes (rd REF_FLUME_SOL_FLUME s) (obsHeader 0 (antInUse s) true false s) s).2

/-- A raw-stream epoch: one record per antenna that REF_RAW.ANT names (R54). -/
def rawEpoch (m : Meas) (s : State) : State :=
  let ant := rd REF_RAW_ANT s
  if !on REF_CTRL_EN s || !awake s || rd REF_RAW_RATE s = 0 || rd REF_RAW_RATE s = 7 then s
  else
    let one (a : Nat) (l : List Sig) (s : State) : State :=
      let r := obsRecord a l true s
      (pushBytes (rd REF_FLUME_RAW_FLUME s) r.1 r.2).2
    let s := if ant = 0 ∨ ant = 2 then one 0 m.a1 s else s
    if ant = 1 ∨ ant = 2 then one 1 m.a2 s else s

/-- The survey's end (R49): adopted at the next cycle start, written into site data with the tag SURVEYED. -/
def surveyComplete (x y z : Int) (sigma : Nat) (s : State) : State :=
  let min_ := (s.clk.frc - s.ref.surveyFrom) / 30000000000
  let s' := wr REF_SURV_STATUS_SIGMA (min sigma 0xFFFF) (wr REF_SURV_STATUS_ELAPSED (min min_ 0xFFFF) s)
  if refState s = 2 ∧ (rd REF_SURVEY_DURATION s ≤ min_ ∨ (10 ≤ min_ ∧ sigma ≤ rd REF_SURVEY_SIGMA s)) then
    let s := setRef { s'.ref with nextPos := some (x, y, z) } s'
    let s := { s with site := { s.site with surveyed := some (x, y, z) } }
    enterRef 3 (raise 55 s)
  else s

/-! ### Caster (R62) -/

/-- Closes each client whose backlog exceeds 32 KiB (R62). -/
def dropSlow (s : State) : State :=
  let bad := s.ref.clients.filter (fun c => decide (32768 < c.2))
  let s := setRef { s.ref with clients := s.ref.clients.filter (fun c => decide (c.2 ≤ 32768)) } s
  let s := bad.foldl (fun s c => raise 63 (count REF_CNT_NTRIP_DROP 1 (report 0x0607 c.1 s))) s
  wr REF_NTRIP_STATUS_CLIENTS s.ref.clients.length s

/-- RTCM output at an epoch (R54, R61, R62): to every client's backlog and to the serial outputs. The bytes for the downlink are AIR's. -/
def rtcmOut (msgs : List Byte) (taken : List (Nat × Nat)) (s : State) : State :=
  if !on REF_CTRL_EN s || !awake s then s
  else
    let cl := s.ref.clients.map (fun c => (c.1, c.2 - tget 0 c.1 taken + msgs.length))
    dropSlow (emit (.rtcm msgs) (setRef { s.ref with clients := cl } s))

/-- A caster request: 400 for one the caster does not support, 401 for a failed login, 503 beyond MAX, each counted; 404 is no answer of the
spec, and a mountpoint beyond those of site data is answered with the sourcetable as NTRIP gives it. -/
def ntripRequest (r : NtripReq) (s : State) : State :=
  if !on REF_CTRL_EN s || !on REF_NTRIP_CFG_EN s || !awake s then s
  else
    let refuse (code : Nat) (s : State) := emit (.http r.client code) (wr REF_NTRIP_STATUS_REFUSED (min (rd REF_NTRIP_STATUS_REFUSED s + 1) 0xFFFF) s)
    if !r.good then refuse 400 s
    else if !r.login then refuse 401 s
    else if rd REF_NTRIP_CFG_MAX s ≤ s.ref.clients.length then refuse 503 s
    else
      let s := if r.mount < s.site.mounts then setRef { s.ref with clients := s.ref.clients ++ [(r.client, 0)] } s else s
      emit (.http r.client 200) (wr REF_NTRIP_STATUS_CLIENTS s.ref.clients.length s)

/-! ### Meanings -/

def execAntennaBiasSample (n current : Nat) (s : State) := run (biasSample (n % 2) current) s
def execSurveyComplete (x y z : Int) (sigma : Nat) (s : State) := run (surveyComplete x y z sigma) s
def execEpochLate (s : State) := run epochLate s
def execRawEpoch (m : Meas) (s : State) := run (rawEpoch m) s
def execNtripRequest (r : NtripReq) (s : State) := run (ntripRequest r) s
def execMultipathLearning (l : List MpSample) (s : State) := run (learnAll l) s
/-- The steward saves the map every 15 min (R56). -/
def execMapPeriodicSave (ok : Bool) (s : State) := run (fun s => if awake s then saveMap ok s else s) s
def execSurveyRestart (s : State) := run (refCmd 1) s
def execPosLoad (s : State) := run (refCmd 2) s
def execMpClear (s : State) := run (refCmd 3) s
def execMpSave (s : State) := run (refCmd 4) s
def execTimeAccept (s : State) := run (refCmd 5) s
def execTimeSolution (tai : Nat) (agree : Bool) (freq : Int) (s : State) := run (timeSolution tai agree freq) s
def execTimeSolutionLoss (s : State) := run timeLoss s
def execHoldoverLimit (s : State) := run holdoverLimit s
def execTimeConfirm (s : State) := run timeConfirm s

end Sys2Proof.Machine
end

