-- ==== Sys2Proof/Machine/Flags.lean ====
section
/-!
DEFINITION. Sys2Proof/Machine/Flags.lean: binary64 arithmetic of R245 to R247 and the sticky flags of FPCTL (Table ISA-14): exact values,
one rounding, and the flags each operation sets.
-/
namespace Sys2Proof.Machine

/-- The sticky flags (FPCTL bits 2 to 6): invalid, division by zero, overflow, underflow, inexact. -/
structure FFlags where
  nv : Bool := false
  dz : Bool := false
  of_ : Bool := false
  uf : Bool := false
  nx : Bool := false
  deriving DecidableEq, Repr

def FFlags.join (a b : FFlags) : FFlags :=
  { nv := a.nv || b.nv, dz := a.dz || b.dz, of_ := a.of_ || b.of_, uf := a.uf || b.uf, nx := a.nx || b.nx }

/-- The flags at their places in FPCTL. -/
def FFlags.toBits (f : FFlags) : Nat :=
  (if f.nv then 4 else 0) + (if f.dz then 8 else 0) + (if f.of_ then 16 else 0) + (if f.uf then 32 else 0) + (if f.nx then 64 else 0)

/-- A binary64 number taken apart: a NaN, an infinity, or sign and magnitude m times 2 to the e. -/
inductive FVal where
  | nan (signalling : Bool)
  | inf (neg : Bool)
  | fin (neg : Bool) (m : Nat) (e : Int)
  deriving DecidableEq, Repr

def fSign (b : Nat) : Bool := b / 2 ^ 63 % 2 == 1
def fExp (b : Nat) : Nat := b / 2 ^ 52 % 2048
def fFrac (b : Nat) : Nat := b % 2 ^ 52

/-- The value of 64 bits. -/
def fDecode (b : Nat) : FVal :=
  if fExp b = 2047 then (if fFrac b = 0 then .inf (fSign b) else .nan (decide (fFrac b < 2 ^ 51)))
  else if fExp b = 0 then .fin (fSign b) (fFrac b) (-1074)
  else .fin (fSign b) (fFrac b + 2 ^ 52) ((fExp b : Int) - 1075)

/-- The one NaN that arithmetic produces (R245). -/
def fNaN : Nat := 0x7FF8000000000000

def fInf (neg : Bool) : Nat := (if neg then 2 ^ 63 else 0) + 2047 * 2 ^ 52
def fZero (neg : Bool) : Nat := if neg then 2 ^ 63 else 0
def fMax (neg : Bool) : Nat := (if neg then 2 ^ 63 else 0) + 2046 * 2 ^ 52 + (2 ^ 52 - 1)

/-- m / 2^k rounded to a whole number in mode rm (0 nearest even, 1 toward zero, 2 up, 3 down), and whether it is exact. -/
def roundShift (rm : Nat) (neg : Bool) (m k : Nat) : Nat × Bool :=
  let q := m / 2 ^ k
  let r := m % 2 ^ k
  let up : Bool :=
    match rm with
    | 0 => decide (2 ^ k < 2 * r) || (decide (2 * r = 2 ^ k) && q % 2 == 1)
    | 1 => false
    | 2 => !neg && r != 0
    | _ => neg && r != 0
  (if up then q + 1 else q, r == 0)

/-- What overflow gives in mode rm. -/
def fOverflow (rm : Nat) (neg : Bool) : Nat :=
  match rm with
  | 0 => fInf neg
  | 1 => fMax neg
  | 2 => if neg then fMax neg else fInf neg
  | _ => if neg then fInf neg else fMax neg

/-- The magnitude m times 2 to the e (m not 0), with sticky when a positive amount below one unit of m is left out, rounded to binary64 in mode rm. -/
def fRound (rm : Nat) (neg : Bool) (m0 : Nat) (e0 : Int) (sticky : Bool) : Nat × FFlags :=
  let m := 4 * m0 + (if sticky then 1 else 0)
  let e := e0 - 2
  let top : Int := e + (Nat.log2 m : Int)
  let lsb : Int := max (top - 52) (-1074)
  let x : Nat × Bool := if e < lsb then roundShift rm neg m (lsb - e).toNat else (m * 2 ^ (e - lsb).toNat, true)
  let s := if neg then 2 ^ 63 else 0
  let tiny : Bool :=
    if top < -1022 then
      let wide := top - 52
      let y : Nat × Bool := if e < wide then roundShift rm neg m (wide - e).toNat else (m, true)
      if e < wide ∧ y.1 = 2 ^ 53 ∧ top = -1023 then !Config.tinyAfterRounding else true
    else false
  if x.1 = 0 then (s, { uf := !x.2, nx := !x.2 })
  else
    let fl : FFlags := { uf := tiny && !x.2, nx := !x.2 }
    let (q, l) := if x.1 = 2 ^ 53 then (2 ^ 52, lsb + 1) else (x.1, lsb)
    if q < 2 ^ 52 then (s + q, fl)
    else if 971 < l then (fOverflow rm neg, { of_ := true, nx := true })
    else (s + (l + 1075).toNat * 2 ^ 52 + (q - 2 ^ 52), fl)

/-- An exact signed sum, rounded; an exact zero takes the sign of R245's standard: minus only toward minus infinity, or when both parts are minus. -/
def fSumRound (rm : Nat) (n1 : Bool) (m1 : Nat) (e1 : Int) (n2 : Bool) (m2 : Nat) (e2 : Int) : Nat × FFlags :=
  let e := min e1 e2
  let a : Int := (if n1 then -1 else 1) * (m1 * 2 ^ (e1 - e).toNat : Nat)
  let b : Int := (if n2 then -1 else 1) * (m2 * 2 ^ (e2 - e).toNat : Nat)
  let c := a + b
  if c = 0 then
    (fZero (if m1 = 0 ∧ m2 = 0 then (if n1 = n2 then n1 else rm == 3) else rm == 3), {})
  else fRound rm (decide (c < 0)) c.natAbs e false

def fIsSnan (b : Nat) : Bool := fDecode b == .nan true
def fIsNan (b : Nat) : Bool := match fDecode b with | .nan _ => true | _ => false

/-- The NaN result of an arithmetic operation on operands of which one is a NaN. -/
def fNanResult (snan : Bool) : Nat × FFlags := (fNaN, { nv := snan })

def fAdd (rm a b : Nat) : Nat × FFlags :=
  match fDecode a, fDecode b with
  | .nan x, _ => fNanResult (x || fIsSnan b)
  | _, .nan y => fNanResult y
  | .inf x, .inf y => if x = y then (fInf x, {}) else fNanResult true
  | .inf x, _ => (fInf x, {})
  | _, .inf y => (fInf y, {})
  | .fin n1 m1 e1, .fin n2 m2 e2 => fSumRound rm n1 m1 e1 n2 m2 e2

/-- The bits with the sign turned (FNEG). -/
def fNeg (a : Nat) : Nat := if fSign a then a - 2 ^ 63 else a + 2 ^ 63

/-- Subtraction: a NaN operand is not turned before it is looked at, which makes no difference to the result. -/
def fSub (rm a b : Nat) : Nat × FFlags := fAdd rm a (fNeg b)

def fMul (rm a b : Nat) : Nat × FFlags :=
  match fDecode a, fDecode b with
  | .nan x, _ => fNanResult (x || fIsSnan b)
  | _, .nan y => fNanResult y
  | .inf x, .inf y => (fInf (x != y), {})
  | .inf x, .fin n m _ => if m = 0 then fNanResult true else (fInf (x != n), {})
  | .fin n m _, .inf y => if m = 0 then fNanResult true else (fInf (n != y), {})
  | .fin n1 m1 e1, .fin n2 m2 e2 =>
    if m1 * m2 = 0 then (fZero (n1 != n2), {}) else fRound rm (n1 != n2) (m1 * m2) (e1 + e2) false

def fDiv (rm a b : Nat) : Nat × FFlags :=
  match fDecode a, fDecode b with
  | .nan x, _ => fNanResult (x || fIsSnan b)
  | _, .nan y => fNanResult y
  | .inf _, .inf _ => fNanResult true
  | .inf x, .fin n _ _ => (fInf (x != n), {})
  | .fin n _ _, .inf y => (fZero (n != y), {})
  | .fin n1 m1 e1, .fin n2 m2 e2 =>
    if m2 = 0 then (if m1 = 0 then fNanResult true else (fInf (n1 != n2), { dz := true }))
    else if m1 = 0 then (fZero (n1 != n2), {})
    else
      let k := m1 * 2 ^ 120
      fRound rm (n1 != n2) (k / m2) (e1 - e2 - 120) (k % m2 != 0)

def fSqrt (rm a : Nat) : Nat × FFlags :=
  match fDecode a with
  | .nan x => fNanResult x
  | .inf n => if n then fNanResult true else (fInf false, {})
  | .fin n m e =>
    if m = 0 then (fZero n, {})
    else if n then fNanResult true
    else
      let odd := e % 2 ≠ 0
      let k := (if odd then 2 * m else m) * 2 ^ 120
      let e' := (if odd then e - 1 else e) / 2 - 60
      let r := Nat.sqrt k
      fRound rm false r e' (decide (r * r ≠ k))

/-- a times b plus c, one rounding (FMADD). -/
def fFma (rm a b c : Nat) : Nat × FFlags :=
  match fDecode a, fDecode b, fDecode c with
  | .nan x, _, _ => fNanResult (x || fIsSnan b || fIsSnan c)
  | _, .nan y, _ => fNanResult (y || fIsSnan c)
  | .inf _, .fin _ 0 _, .nan z => fNanResult (z || Config.fmaInfZeroNan)
  | .fin _ 0 _, .inf _, .nan z => fNanResult (z || Config.fmaInfZeroNan)
  | _, _, .nan z => fNanResult z
  | .inf _, .fin _ 0 _, _ => fNanResult true
  | .fin _ 0 _, .inf _, _ => fNanResult true
  | .inf x, _, .inf z => if (x != fSign b) = z then (fInf z, {}) else fNanResult true
  | _, .inf y, .inf z => if (y != fSign a) = z then (fInf z, {}) else fNanResult true
  | .inf x, _, _ => (fInf (x != fSign b), {})
  | _, .inf y, _ => (fInf (y != fSign a), {})
  | .fin _ _ _, .fin _ _ _, .inf z => (fInf z, {})
  | .fin n1 m1 e1, .fin n2 m2 e2, .fin n3 m3 e3 => fSumRound rm (n1 != n2) (m1 * m2) (e1 + e2) n3 m3 e3

/-- A product's sign is turned through its first operand; a NaN stays a NaN of its kind. -/
def fFmsub (rm a b c : Nat) : Nat × FFlags := fFma rm a b (fNeg c)
def fFnmadd (rm a b c : Nat) : Nat × FFlags := fFma rm (fNeg a) b c

/-- The order of two numbers that are no NaN: less, or equal (zeros of both signs are equal). -/
def fLess (a b : Nat) : Bool :=
  match fDecode a, fDecode b with
  | .inf x, .inf y => x && !y
  | .inf x, .fin _ _ _ => x
  | .fin _ _ _, .inf y => !y
  | .fin n1 m1 e1, .fin n2 m2 e2 =>
    let e := min e1 e2
    let p : Int := (if n1 then -1 else 1) * (m1 * 2 ^ (e1 - e).toNat : Nat)
    let q : Int := (if n2 then -1 else 1) * (m2 * 2 ^ (e2 - e).toNat : Nat)
    decide (p < q)
  | _, _ => false

def fSame (a b : Nat) : Bool := !fIsNan a && !fIsNan b && !fLess a b && !fLess b a

/-- minimumNumber: a NaN operand yields the other; minus zero is below plus zero; a signalling NaN sets NV (Table ISA-5). -/
def fMin (a b : Nat) : Nat × FFlags :=
  let fl : FFlags := { nv := fIsSnan a || fIsSnan b }
  if fIsNan a && fIsNan b then (fNaN, fl)
  else if fIsNan a then (b, fl)
  else if fIsNan b then (a, fl)
  else if fLess a b then (a, fl)
  else if fLess b a then (b, fl)
  else (if fSign a then a else b, fl)

def fMaxNum (a b : Nat) : Nat × FFlags :=
  let fl : FFlags := { nv := fIsSnan a || fIsSnan b }
  if fIsNan a && fIsNan b then (fNaN, fl)
  else if fIsNan a then (b, fl)
  else if fIsNan b then (a, fl)
  else if fLess a b then (b, fl)
  else if fLess b a then (a, fl)
  else (if fSign a then b else a, fl)

def fEq (a b : Nat) : Bool × FFlags := (fSame a b, { nv := fIsSnan a || fIsSnan b })
def fLt (a b : Nat) : Bool × FFlags := (!fIsNan a && !fIsNan b && fLess a b, { nv := fIsNan a || fIsNan b })
def fLe (a b : Nat) : Bool × FFlags := (!fIsNan a && !fIsNan b && !fLess b a, { nv := fIsNan a || fIsNan b })

/-- A signed integer as binary64 (FCVT.D.L). -/
def fOfInt (rm : Nat) (i : Int) : Nat × FFlags :=
  if i = 0 then (0, {}) else fRound rm (decide (i < 0)) i.natAbs 0 false

/-- The signed 64-bit integer of a number (FCVT.L.D, R247). -/
def fToInt (rm a : Nat) : Int × FFlags :=
  match fDecode a with
  | .nan _ => (0, { nv := true })
  | .inf n => (if n then -(2 ^ 63) else 2 ^ 63 - 1, { nv := true })
  | .fin n m e =>
    let x : Nat × Bool := if e < 0 then roundShift rm n m (-e).toNat else (m * 2 ^ e.toNat, true)
    let i : Int := if n then -(x.1 : Int) else x.1
    if i < -(2 ^ 63) then (-(2 ^ 63), { nv := true })
    else if 2 ^ 63 - 1 < i then (2 ^ 63 - 1, { nv := true })
    else (i, { nx := !x.2 })

/-- The class bit of FCLASS (Table ISA-5). -/
def fClass (a : Nat) : Nat :=
  match fDecode a with
  | .inf true => 1
  | .inf false => 2 ^ 7
  | .nan true => 2 ^ 8
  | .nan false => 2 ^ 9
  | .fin n m _ =>
    if m = 0 then (if n then 2 ^ 3 else 2 ^ 4)
    else if m < 2 ^ 52 then (if n then 2 ^ 2 else 2 ^ 5)
    else (if n then 2 else 2 ^ 6)

end Sys2Proof.Machine
end

