-- ==== Sys2Proof/Machine/Wkr.lean ====
section
/-!
DEFINITION. Sys2Proof/Machine/Wkr.lean: the wake-up receiver and the rendezvous engine (06_fleet_radio.md, R199 to R208, Tables AIR-9 to AIR-11).
-/
namespace Sys2Proof.Machine

def setWkr (w : Wkr) (s : State) : State := { s with wkr := w }
def ptr? (p : Nat) (s : State) : Option Ptr := tfind p s.wkr.ptr

def wkrOn (s : State) : Bool := on WKR_CTRL_EN s && !s.pwr.off

def ptrCode (p : PtrSt) : Nat := match p with | .granted => 1 | .member => 2 | .rescue => 3 | .lost => 4

/-- WKR_STATUS and WKR_PSTATE_n follow the partners. -/
def showPtr (p : Nat) (s : State) : State :=
  let v := match ptr? p s with | some x => ptrCode x.st | none => 0
  let r := WKR_PSTATE (p / 8)
  let n := fun (st : PtrSt) => (s.wkr.ptr.filter (fun q => q.2.st == st)).length
  wr WKR_STATUS_MEMBER (n .member) (wr WKR_STATUS_RESCUE (n .rescue) (wr WKR_STATUS_LOST (n .lost) (wr r (setBits (rd r s) (4 * (p % 8)) 4 v) s)))

def setPtr (p : Nat) (x : Ptr) (s : State) : State := showPtr p (setWkr { s.wkr with ptr := tins p x s.wkr.ptr } s)

/-- Address of a partner's entry (Table AIR-9). -/
def ptrAddr (p : Nat) (s : State) : Nat := 0x4000 * rd WKR_TABLE_ADDR s + 32 * p

def putEntry (p off n : Nat) (v : Int) (s : State) : State := memWrite (ptrAddr p s + off) (leBytes n (enc (8 * n) v)) 11 s
def getEntry (p off n : Nat) (s : State) : Nat := loadLe s.mem (ptrAddr p s + off) n

/-- PERIOD as the program has written it: 0 means 1,200; clamped (Table AIR-9). -/
def tablePeriod (p : Nat) (s : State) : Nat :=
  let v := getEntry p 0 4 s
  if v = 0 then 1200 else max 40 (min 72000 v)

/-! ### Drift learning (R204, R208) -/

def fI (i : Int) : Nat := (fOfInt 0 i).1
def fA (a b : Nat) : Nat := (fAdd 0 a b).1
def fM (a b : Nat) : Nat := (fMul 0 a b).1
def fD (a b : Nat) : Nat := (fDiv 0 a b).1

/-- L in seconds, as binary64. -/
def cycleSec (s : State) : Nat := fD (fI 1) (fI (if planE s then 10 else 20))

/-- The guard a period needs: G_MIN + 3 sd dt + TEMP dt (µs). -/
def guardNeed (sd period : Nat) (s : State) : Nat :=
  let dt := fM (fI period) (cycleSec s)
  fA (fA (fI (rd WKR_RDV_G_MIN s)) (fM (fM (fI 3) sd) dt)) (fM (fD (fI (rd WKR_RDV2_TEMP s)) (fI 10)) dt)

/-- GUARD as it is sent, and whether it was held to G_MAX. -/
def guardOf (sd period : Nat) (s : State) : Nat × Bool :=
  let need := guardNeed sd period s
  let most := rd WKR_RDV2_G_MAX s
  if fLess (fI most) need then (most, true) else ((fToInt 0 need).1.toNat, false)

/-- The learning code for a valid rendezvous in cycle c: rate and uncertainty after it. -/
def learnRate (x : Ptr) (err : Int) (cycles : Nat) (s : State) : Nat × Nat :=
  let dt := fM (fI cycles) (cycleSec s)
  let rho := fD (fI err) dt
  let meas := fD (fI 30) dt
  let v := fM x.sd x.sd
  let k := fD v (fA v (fM meas meas))
  ((fSub 0 x.rate (fM k rho)).1, (fSqrt 0 (fM (fSub 0 (fI 1) k).1 v)).1)

/-- Writes rate, uncertainty and guard into the entry, halving the period to come when the guard would pass G_MAX. -/
def putRate (p : Nat) (x : Ptr) (s : State) : Ptr × State :=
  let g := guardOf x.sd x.period s
  let s := putEntry p 8 4 (fToInt 0 (fM x.rate (fI 1000))).1 s
  let s := putEntry p 12 2 (fToInt 0 (fM x.sd (fI 100))).1 s
  let s := putEntry p 14 2 g.1 s
  if g.2 then ({ x with sentPeriod := max 40 (x.period / 2) }, raise 139 (report 0x0B05 p (count WKR_CNT_SCHED_FULL 1 s)))
  else ({ x with sentPeriod := tablePeriod p s }, s)

/-! ### The schedule (R202) -/

/-- Partner lanes per cycle in force: LANES, at most three quarters of the lanes. -/
def laneLimit (s : State) : Nat := min (rd WKR_RDV_LANES s) (3 * lanesPer s / 4)

/-- Reservations of other partners in a cycle. -/
def reservations (p c : Nat) (s : State) : Nat :=
  (s.wkr.ptr.filter (fun q => q.1 != p && (q.2.next == c || q.2.fallback == some c || (match q.2.callAt with | some a => a.1 == c | none => false)))).length

/-- The smallest delay that leaves room in the cycle; n bounds the search. -/
def findRoom (p : Nat) (s : State) : Nat → Nat → Nat
  | 0, c => c
  | n + 1, c => if reservations p c s < laneLimit s then c else findRoom p s n ((c + 1) % 2 ^ 32)

/-- The next rendezvous after cycle c, and its fallback. -/
def schedule (p c : Nat) (x : Ptr) (s : State) : Ptr × State :=
  let base := (c + x.period) % 2 ^ 32
  let next := findRoom p s (s.wkr.ptr.length + 1) base
  let s := if next = base then s else raise 139 (report 0x0B03 p (count WKR_CNT_SCHED_FULL 1 s))
  ({ x with next := next, fallback := some base }, putEntry p 4 4 next s)

/-- RENDEZVOUS: a partner's rendezvous cycle, or its fallback, arrives. -/
def rendezvous (p : Nat) (s : State) : State :=
  match ptr? p s with
  | none => s
  | some x =>
    let c := cycleNo s
    if !wkrOn s || !on WKR_CTRL_RDV_EN s || !inRun s then s
    else if x.next = c then
      let r := schedule p c { x with began := some (c, true), heard := false } s
      setPtr p r.1 r.2
    else if x.fallback = some c then setPtr p { x with began := some (c, false), heard := false } s
    else s

/-! ### Rescue (R206, Table AIR-11) -/

/-- R206: the wake pattern waits for its cycle; the CALL follows it. -/
def rescueCall (p : Nat) (s : State) : State :=
  setWkr { s.wkr with queue := if s.wkr.queue.contains p then s.wkr.queue else s.wkr.queue ++ [p] } s

/-- Entry to RESCUE. -/
def enterRescue (p : Nat) (s : State) : State :=
  match ptr? p s with
  | some x => rescueCall p (raise 134 (report 0x0B01 p (count WKR_CNT_RESCUE 1 (setPtr p { x with st := .rescue, calls := 0, lastCall := cycleNo s } s))))
  | none => s

/-- A partner index returns to FREE (R640). -/
def freePtr (p : Nat) (s : State) : State :=
  let s := cancelOrders (0x8000 + p) s
  let s := setAir { s.air with items := s.air.items.filter (fun i => i.target != 0x8000 + p) } s
  showPtr p (setWkr { s.wkr with ptr := tdel p s.wkr.ptr, queue := s.wkr.queue.filter (· != p), callNext := s.wkr.callNext.filter (· != p) } s)

/-- The rendezvous cycle begun before cycle c is over: a partner not heard in it has missed it. -/
def judgeMiss (c p : Nat) (s : State) : State :=
  match ptr? p s with
  | none => s
  | some x =>
    match x.began with
    | none => s
    | some (b, real) =>
      if b = c then s
      else
        let x := { x with began := none }
        if x.heard then setPtr p x s
        else
          match x.st with
          | .granted =>
            if 0 < x.misses then raise 119 (count AIR_CNT_GRANT_LAPSED 1 (freePtr p s)) else setPtr p { x with misses := 1 } s
          | .member =>
            if !real then setPtr p x s
            else
              let n := x.misses + 1
              let s := putEntry p 19 1 (min n 255) (count WKR_CNT_MISS 1 (setPtr p { x with misses := n } s))
              if max 1 (rd WKR_RDV_MISS_LIMIT s) ≤ n then enterRescue p s else s
          | _ => setPtr p x s

/-- What WKR does at a cycle start: misses judged, one wake pattern sent (R199), the CALLs that follow the pattern of the cycle before. -/
def wkrCycle (s : State) : State :=
  if !wkrOn s then s
  else
    let c := cycleNo s
    let s := commitBlk 11 s
    let s := if on WKR_CTRL_RDV_EN s then (keys s.wkr.ptr).foldl (fun s p => judgeMiss c p s) s else s
    let s := s.wkr.callNext.foldl (fun s p => queueItem { target := 0x8000 + p, kind := .call } s) s
    let s := setWkr { s.wkr with callNext := [] } s
    match s.wkr.queue with
    | p :: t =>
      let s := setWkr { s.wkr with queue := t, callNext := [p] } s
      let s := match ptr? p s with | some x => setPtr p { x with calls := x.calls + 1, lastCall := c } s | none => s
      if on WKR_CTRL_TX_EN s && inRun s then
        emit (.wake ((rd WKR_PBASE_PARTNER_BASE s + p) % 2 ^ 16)) (count WKR_CNT_WAKE_TX 1 (setWkr { s.wkr with sent := some c } s))
      else s
    | [] => s

/-- RESCUE_RECALL: an unanswered call is repeated 20 cycles later, or the partner is LOST. -/
def rescueRecall (p : Nat) (s : State) : State :=
  match ptr? p s with
  | some x =>
    if x.st ≠ .rescue ∨ sgn 32 (cycleNo s + 2 ^ 32 - x.lastCall) < 20 then s
    else if x.calls < rd WKR_RDV_RESCUE_LIMIT s then rescueCall p s
    else raiseAlarm 136 (report 0x0B02 p (count WKR_CNT_LOST 1 (setPtr p { x with st := .lost } s)))
  | none => s

/-! ### Partner frames (R203, R208, R628) -/

/-- A valid frame from a partner, by its state and the slot it came in. -/
def partnerHeard (p fcnt : Nat) (x : Ptr) (pay : List Byte) (called : Bool) (s : State) : State :=
  let c := cycleNo s
  let x := if leAt pay 0 1 = getEntry p 24 1 s then { x with period := x.sentPeriod } else x
  let was := x.st
  let back := called && (was == .rescue || was == .member || was == .lost)
  let guard_ := getEntry p 14 2 s
  let err : Int := (guard_ : Int) - leAt pay 2 2
  let init := fD (fI (rd WKR_RDV2_SD_INIT s)) (fI 10)
  let x := if was = .granted then { x with rate := fI 0, sd := init }
    else if back then
      let four := fM (fI 4) x.sd
      { x with sd := if fLess four init then init else four }
    else
      let r := learnRate x err ((c + 2 ^ 32 - getEntry p 20 4 s) % 2 ^ 32) s
      { x with rate := r.1, sd := r.2 }
  let x := { x with st := .member, heard := true, misses := 0, fallback := if back then none else x.fallback, callAt := none, calls := 0 }
  let s := putEntry p 19 1 0 (putEntry p 20 4 c (putEntry p 25 1 (leAt pay 1 1) (putEntry p 26 1 (leAt pay 6 1) s)))
  let s := if back || was == .granted then s else putEntry p 16 2 err s
  let r := putRate p x s
  let x := r.1
  let s := r.2
  let q := if back || (match x.began with | some b => b.1 == c && !b.2 | none => false) then schedule p c x s else (x, s)
  let x := { q.1 with fallback := none }
  let s := count WKR_CNT_RDV_OK 1 (setPtr p x q.2)
  let s := if back && was != .member then raise 135 s else s
  let isOld : DItem → Bool := fun i => i.target == 0x8000 + p && (match i.kind with | .rdv _ => true | _ => false)
  queueItem { target := 0x8000 + p, kind := .rdv fcnt } (setAir { s.air with items := s.air.items.filter (fun i => !isOld i) } s)

/-- PARTNER_FRAME. -/
def partnerFrame (lane sl : Nat) (off : Int) (b : List Byte) (s : State) : State :=
  let u := upOf b
  if !receiving s || !ownLane lane sl s || u.kind != 4 || b.length != 192 then s
  else
    match sourceEui u.source s with
    | none => airDrop AIR_CNT_RX_UNKNOWN 0x0E u.source s
    | some eui =>
      match openUp eui false b s with
      | none => raise 121 (airDrop AIR_CNT_RX_MIC 0x01 u.source s)
      | some pay =>
        let p := u.source % 512
        let c := cycleNo s
        match ptr? p s with
        | none => airDrop AIR_CNT_RX_TIMING 0x0C u.source s
        | some x =>
          let called := x.callAt == some (c, lane)
          let own := bit u.source 15 && contentionSlot c s == some sl && (called || (x.lane == lane && (match x.began with | some g => g.1 == c | none => false)))
          if !inTime off s || !own then airDrop AIR_CNT_RX_TIMING 0x0C u.source s
          else
            let f := dupFilter x.top x.win u.fcnt
            if f.1 = 2 then airDrop AIR_CNT_RX_STALE 0x03 u.source s
            else if f.1 = 1 then raise 122 (airDrop AIR_CNT_RX_DUP 0x02 u.source s)
            else
              let x := { x with top := f.2.1, win := f.2.2, bkey := u.bkey }
              let s := count AIR_CNT_RX_OK 1 (setPtr p x s)
              let s := offerKey (0x8000 + p) u.bkey s
              if x.st = .lost ∧ called = false then enterRescue p s
              else
                let s := partnerHeard p u.fcnt x pay called s
                let s := orderEcho (0x8000 + p) (leAt pay 4 2) s
                rxRecord (0x8000 + p) 4 0 c u.fcnt (slice pay 8 160) s

/-! ### Partner joins (R202, Table AIR-11) -/

/-- The first rendezvous of a grant: after its grant may go out, in a cycle with a contention slot and room. -/
def firstRdv (p : Nat) (s : State) : Nat :=
  let c := firstCycle s
  findRoom p s (s.wkr.ptr.length + 1) (if planE s && c % 2 == 0 then c + 1 else c)

/-- The lane given to partner p. -/
def laneFor (p : Nat) (s : State) : Nat := groupU s * lanesPer s + p % lanesPer s

/-- A grant of partner index p. -/
def grantPtr (p : Nat) (eui : List Byte) (u : Up) (s : State) : State :=
  let first := firstRdv p s
  let lane := laneFor p s
  let period := tablePeriod p s
  let x : Ptr := match ptr? p s with
    | some x => { x with next := first, join := u.fcnt, top := u.fcnt, win := 1, misses := 0 }
    | none => {
        st := .granted, eui := eui, top := u.fcnt, join := u.fcnt, next := first, period := period, sentPeriod := period, lane := lane,
        sd := fD (fI (rd WKR_RDV2_SD_INIT s)) (fI 10) }
  let s := setPtr p x s
  let s := putEntry p 4 4 first (putEntry p 18 1 x.lane s)
  let s := (putRate p x s).2
  let notice := leBytes 2 (0x8000 + p) ++ leBytes 1 5 ++ leBytes 1 0 ++ leBytes 4 (cycleNo s) ++ leBytes 4 u.fcnt ++ leBytes 2 10 ++ leBytes 2 0 ++ eui ++ leBytes 2 p
  raise 133 (queueItem { target := 0xFFFF, kind := .grant (grantItem eui (grantBody eui p 0 x.lane 0 first x.period u.fcnt) u.fcnt s) (some notice) } s)

/-- PARTNER_JOIN_FRAME. -/
def partnerJoin (lane sl : Nat) (off : Int) (b : List Byte) (s : State) : State :=
  let u := upOf b
  if !receiving s || !ownLane lane sl s || u.kind != 5 || b.length != 192 then s
  else
    let eui := slice b 16 8
    match openUp eui true b s with
    | none => raise 121 (airDrop AIR_CNT_RX_MIC 0x01 u.source s)
    | some p =>
      if !inTime off s || !contentionOk lane sl s then airDrop AIR_CNT_RX_TIMING 0x0C u.source s
      else if !on AIR_CTRL_PJOIN_EN s || leAt p 8 1 != 1 || leAt p 9 1 != 1 || !(s.site.partners.contains eui) then joinIgnored u.source s
      else
        match s.wkr.ptr.find? (fun q => q.2.eui == eui) with
        | some (n, x) => if 0 < sgn 32 (u.fcnt + 2 ^ 32 - x.top) then grantPtr n eui u (count AIR_CNT_RX_OK 1 s) else raise 120 (count AIR_CNT_JOIN_IGNORED 1 s)
        | none =>
          let s := count AIR_CNT_RX_OK 1 s
          match (List.range 512).find? (fun n => (ptr? n s).isNone) with
          | some n => grantPtr n eui u s
          | none => joinRefused true eui u.fcnt 0x0BF2 s

/-! ### Wake patterns and commands (R199, R200) -/

/-- The module's own pattern is on air: from 1.0 to 6.0 ms after the start of a cycle in which one is sent. -/
def ownPattern (s : State) : Bool :=
  s.wkr.sent == some (cycleNo s) && decide (1000000 ≤ cyclePhase s ∧ cyclePhase s < 6000000)

/-- CRC-8 over the two address bytes, low byte first. -/
def wakeCrc (addr : Nat) : Nat := crc8 7 0 (leBytes 2 addr)

/-- WAKE_PATTERN_RX: the address and CRC of a pattern. -/
def wakeRx (addr crc : Nat) (s : State) : State :=
  if !wkrOn s || !on WKR_CTRL_RX_EN s || ownPattern s then s
  else if crc ≠ wakeCrc addr then count WKR_CNT_CRC_BAD 1 s
  else if addr = rd WKR_ADDR_OWN s then raise 138 (count WKR_CNT_WAKE_RX 1 s)
  else
    let p := (addr + 2 ^ 16 - rd WKR_ADDR_ALERT_BASE s) % 2 ^ 16
    if 512 ≤ p then s
    else
      let s := raise 137 (count WKR_CNT_ALERT 1 s)
      match ptr? p s with
      | some x => if x.st = .lost then enterRescue p s else queueItem { target := 0x8000 + p, kind := .call } s
      | none => s

def wkrCmdDone (p cmd status error : Nat) (s : State) : State :=
  cmdRes 11 0 0x24 140 cmd status error (wr WKR_CMD_RES_PARTNER_LO p (wr WKR_CMD_RES_PARTNER_HI (p / 256) s))

def releasePartner (p : Nat) (s : State) : State :=
  if (ptr? p s).isSome then wkrCmdDone p 1 0 0 (freePtr p s) else wkrCmdDone p 1 4 0x0B04 s

def wkrCall (p : Nat) (s : State) : State :=
  match ptr? p s with
  | some x => if x.st = .granted then wkrCmdDone p 2 4 0x0B04 s else wkrCmdDone p 2 0 0 (rescueCall p s)
  | none => wkrCmdDone p 2 4 0x0B04 s

def execPartnerJoinFrame (lane sl : Nat) (off : Int) (b : List Byte) (s : State) := run (partnerJoin lane sl off b) s
def execPartnerFrame (lane sl : Nat) (off : Int) (b : List Byte) (s : State) := run (partnerFrame lane sl off b) s
def execWakePatternRx (addr crc : Nat) (s : State) := run (wakeRx (addr % 2 ^ 16) crc) s
def execRendezvous (p : Nat) (s : State) := run (rendezvous (p % 512)) s
def execRescueRecall (p : Nat) (s : State) := run (rescueRecall (p % 512)) s
def execReleasePartner (p : Nat) (s : State) := run (releasePartner (p % 512)) s
def execWkrCall (p : Nat) (s : State) := run (wkrCall (p % 512)) s

end Sys2Proof.Machine
end

