-- ==== Sys2Proof/Machine/Hop.lean ====
section
/-!
DEFINITION. Sys2Proof/Machine/Hop.lean: what the broadcast hops and the stop bursts share (06_fleet_radio.md, 07_fleet_stop.md): the hop permutation, the listening channel, the downlink header,
whitening, channel occupancy (R197), and the ends of a frozen frame that is not sent whole (R631).
-/
namespace Sys2Proof.Machine

/-! ### The hop permutation (R169) -/

/-- One pass over the draw: i falls from N − 1 to 1; fuel bounds the draws. -/
def drawPerm (ks : List (List Nat)) : Nat → Nat → Nat → List Nat → List Nat
  | 0, _, _, p => p
  | n + 1, i, ctr, p =>
    if i = 0 then p
    else
      let x := ofLe (octets ((aesBlock ks (nums (leBytes 16 ctr))).take 4))
      if x < 2 ^ 32 - 2 ^ 32 % (i + 1) then
        let j := x % (i + 1)
        drawPerm ks n (i - 1) (ctr + 1) ((p.set i (p.getD j 0)).set j (p.getD i 0))
      else drawPerm ks n i (ctr + 1) p

def channelsN (s : State) : Nat := if planE s then 12 else 25

/-- P of the edition in force. -/
def hopPerm (s : State) : List Nat := drawPerm (aesKeys (nums (hopSeed s))) 256 (channelsN s - 1) 0 (List.range (channelsN s))

def channelAt (i : Nat) (s : State) : Nat := (hopPerm s).getD i 0

/-! ### The air cycle at an instant -/

/-- Cycle at a site time (ns), and the time since its start. -/
def cycleAt (t : Nat) (s : State) : Nat := (t - s.site.epoch) / cycleLen s % 2 ^ 32
def phaseAt (t : Nat) (s : State) : Nat := (t - s.site.epoch) % cycleLen s

/-- Site time at which cycle c, the present one or one near it, starts. -/
def startOf (c : Nat) (s : State) : Nat :=
  (siteNs s + (sgn 32 (c + 2 ^ 32 - cycleNo s) * cycleLen s) - cyclePhase s).toNat

/-- The hop whose channel carrier k's listeners are on at t: the broadcast hop, and hop 3 from its end on (07_fleet_stop.md, "On the air"). -/
def hopAt (t : Nat) (s : State) : Nat := min 3 (phaseAt t s / hopNs s)

/-- The listening channel of carrier k at t. -/
def listening (k t : Nat) (s : State) : Nat := channelAt (downIndex k (hopAt t s) (cycleAt t s) s) s

/-! ### Downlink frames (Tables AIR-5, R178, R185) -/

/-- CONTENTION: the lanes whose contention slot of cycle c is reserved. -/
def contentionBits (c : Nat) (s : State) : Nat := ((List.range 16).filter (fun g => reservedLane c g s)).foldl (fun (a : Nat) g => a + 2 ^ g) 0

/-- GROUP: n, u and the hop edition. -/
def groupByte (s : State) : Nat := groupN s / 2 + 4 * (groupU s % 4) + 16 * rd AIR_SITE_EDITION s

def posByte (k h : Nat) (s : State) : Nat := k + 4 * h + 16 * ownModule s

/-- FLAGS but for PERMIT and LATCHED; HOLDOVER shows in HOLDOVER and FREE (R60). -/
def airFlags (s : State) : Nat := 2 * b2n (planE s) + 4 * b2n (decide (2 ≤ timeState s))

def downHeader (kind flags c k h : Nat) (s : State) : List Byte :=
  leBytes 1 (16 + kind) ++ leBytes 1 flags ++ leBytes 2 (rd AIR_SITE_SITE_ID s) ++ leBytes 4 c ++ leBytes 1 (posByte k h s) ++ leBytes 1 (groupByte s)
    ++ leBytes 2 (contentionBits c s) ++ leBytes 1 (txKey s).1 ++ leBytes 3 0

/-- The MIC of a downlink frame over its header and body; free without a broadcast key. -/
def downMic (c k h : Nat) (b : List Byte) (s : State) : List Byte × State :=
  if (txKey s).2 = [] then let r := fresh s; ((List.range 8).map (Config.keylessMic r.1), r.2)
  else
    let nonce := leBytes 1 2 ++ leBytes 2 (rd AIR_SITE_SITE_ID s) ++ leBytes 4 c ++ leBytes 1 (posByte k h s) ++ leBytes 1 (txKey s).1 ++ leBytes 4 0
    ((ccmSeal 8 (txKey s).2 nonce b []).2, s)

/-- Eight bits of the PN9 sequence from register r, first bit lowest, and the register after them. -/
def pn9Byte : Nat → Nat → Nat → Nat × Nat
  | 0, r, _ => (0, r)
  | n + 1, r, w =>
    let x := pn9Byte n (r / 2 + 256 * ((r % 2 + r / 32 % 2) % 2)) (2 * w)
    (r % 2 * w + x.1, x.2)

/-- Whitening with x^9 + x^5 + 1 (R178). -/
def whiten : Nat → List Byte → List Byte
  | _, [] => []
  | r, b :: t => let x := pn9Byte 8 r 1; (b ^^^ BitVec.ofNat 8 x.1) :: whiten x.2 t

/-- A frame as it goes on air: preamble, sync word, and header, body and MIC whitened. -/
def onAirBytes (b : List Byte) : List Byte := List.replicate 4 (0x55 : Byte) ++ leBytes 4 0x930B51DE ++ whiten 0x1FF b

/-! ### Channel occupancy (R196, R197) -/

/-- The window (ns), and what one unit of AIR_DWELL is (ns). -/
def dwellWindow (s : State) : Nat := if planE s then 3600000000000 else 10000000000
def dwellUnit (s : State) : Nat := if planE s then 1000000000 else 1000000

/-- The charges of a channel within the window that ends at t. -/
def dwellUsed (ch t : Nat) (s : State) : Nat :=
  ((s.air.charges.filter (fun x => x.1 == ch)).map (fun x => min t x.2.2.1 - max (t - dwellWindow s) x.2.1)).sum

/-- Stop traffic on a channel within that window. -/
def stopUsed (ch t : Nat) (s : State) : Nat :=
  ((s.air.charges.filter (fun x => x.1 == ch && x.2.2.2)).map (fun x => min t x.2.2.1 - max (t - dwellWindow s) x.2.1)).sum

/-- LIMIT of a channel: in Plan E the region table's figure for it. -/
def dwellLimit (ch : Nat) (s : State) : Nat := (if planE s then (regionRow ch s).2.2 else rd AIR_DWELL_LIMIT s) * dwellUnit s
def dwellReserve (s : State) : Nat := rd AIR_DWELL_RESERVE s * dwellUnit s

/-- Charges a channel from a to b, forgets what no window can reach, and shows the fullest channel. -/
def charge (ch a b : Nat) (stop : Bool) (s : State) : State :=
  let l := (s.air.charges.filter (fun x => decide (b < x.2.2.1 + dwellWindow s))) ++ [(ch, a, b, stop)]
  let s := setAir { s.air with charges := l } s
  let best := (List.range (channelsN s)).foldl (fun (p : Nat × Nat) c => let u := dwellUsed c b s; if p.2 < u then (c, u) else p) (0, 0)
  wr AIR_DWELL_PEAK_CH best.1 (wr AIR_DWELL_PEAK_USED (min 0xFFFF (10 * best.2 / dwellUnit s)) s)

/-! ### Frozen frames not sent whole (R631) -/

/-- The items of a frame wait again, ahead of the others; an order waits in its place already. -/
def itemsBack (f : DFrame) (s : State) : State :=
  setAir { s.air with items := f.items.filter (fun i => match i.kind with | .order _ => false | _ => true) ++ s.air.items } s

/-- Frames whose end on air has passed are complete. -/
def completeFrames (s : State) : State :=
  setAir { s.air with frames := s.air.frames.filter (fun f => match f.onAir with | some e => decide (siteNs s < e) | none => true) } s

/-- One frame ends unsent or cut: counted, reported, its items back. -/
def dropFrame (f : DFrame) (counter : Fld) (error : Nat) (event : Option Nat) (s : State) : State :=
  let s := itemsBack f (setAir { s.air with frames := s.air.frames.filter (· != f) } s)
  let s := match event with | some e => raise e s | none => s
  report error f.channel (count counter 1 s)

/-- Every frame frozen or on air ends so. -/
def dropFrames (counter : Fld) (error : Nat) (event : Option Nat) (s : State) : State :=
  let s := completeFrames s
  s.air.frames.foldr (fun f s => dropFrame f counter error event s) s

end Sys2Proof.Machine
end

