-- ==== Sys2Proof/Machine/Eth.lean ====
section
/-!
DEFINITION. Sys2Proof/Machine/Eth.lean: the Ethernet ports (11_ethernet_and_time.md): receive filtering, rings and the pool, transmit queues, gates, stamps and counters.
-/
namespace Sys2Proof.Machine

def ethPort (p : Nat) (s : State) : Port := tget {} p s.eth.ports
def setPort (p : Nat) (x : Port) (s : State) : State := { s with eth := { s.eth with ports := tset {} p x s.eth.ports } }
def ring (p r : Nat) (s : State) : Ring := tget {} (4 * p + r) s.eth.rings
def setRing (p r : Nat) (x : Ring) (s : State) : State := { s with eth := { s.eth with rings := tset {} (4 * p + r) x s.eth.rings } }

/-- The port runs: enabled, with the module in Ready or Run (Table PWR-1). -/
def ethOn (p : Nat) (s : State) : Bool := on (ETH_CTRL_EN p) s && awake s

/-- Counter k of port p, which wraps; a change of bit 31 sets its HALF bit (R378). -/
def ethCount (p k n : Nat) (s : State) : State :=
  let f := fldAt 13 p (0x200 + 4 * k) 0 32
  let v := rd f s
  let s := wr f (v + n) s
  if bit v 31 != bit (v + n) 31 then raise (156 + 8 * p) (wr (ETH_CNT_HALF p (k / 32)) (setBits (rd (ETH_CNT_HALF p (k / 32)) s) (k % 32) 1 1) s) else s

def ethError (p cause detail : Nat) (s : State) : State := report (0x0D00 + 0x100 * p + cause) detail s

def ethCmdDone (p cmd status cause : Nat) (s : State) : State := cmdRes 13 p 0x2C (159 + 8 * p) cmd status (if cause = 0 then 0 else 0x0D00 + 0x100 * p + cause) s

/-! ### Stamps (R386 to R389) -/

/-- Port and site time k ticks ago, with a correction in ns. -/
def stampAt (k : Nat) (adj : Int) (s : State) : Nat × Nat :=
  let p : Int := ((s.clk.portAcc : Int) - k * s.clk.incPort + s.clk.portOfs) / 2 ^ 32 + adj
  let t : Int := if s.clk.siteSet then ((s.clk.siteAcc : Int) - k * s.clk.incSite + s.clk.siteOfs) / 2 ^ 32 + adj else 0
  (enc 64 p, enc 64 t)

/-- The stamp point of a TS_REQ frame leaves: an entry with the next STAMP_SEQ, or the stamp is lost (R388, R389). -/
def takeStamp (p q tag : Nat) (s : State) : Option Nat × State :=
  let x := ethPort p s
  if 64 ≤ x.stamps.length then (none, raise (155 + 8 * p) (ethError p 0x08 q (ethCount p 37 1 s)))
  else
    let t := stampAt 0 (rdS (ETH_PHY_ADJ_TX_ADJ p) s) s
    let e : Stamp := { queue := q, seq := x.seq, tag := tag, port := t.1, site := t.2 }
    let s := setPort p { x with stamps := x.stamps ++ [e], seq := (x.seq + 1) % 65536 } s
    (some x.seq, ethCount p 36 1 (wr (ETH_TSQ_STATUS p) (x.stamps.length + 1) s))

/-- A read of ETH_TSQ_0 pops an entry into ETH_TSQ_0 to ETH_TSQ_5. -/
def tsqPop (p : Nat) (s : State) : State :=
  let x := ethPort p s
  match x.stamps with
  | [] => wr (ETH_TSQ_0_VALID p) 0 s
  | e :: t =>
    let s := setPort p { x with stamps := t } s
    let s := wr (ETH_TSQ_0_VALID p) 1 (wr (ETH_TSQ_0_QUEUE p) e.queue (wr (ETH_TSQ_0_SEQ p) e.seq (wr (ETH_TSQ_STATUS p) t.length s)))
    let f := fun k => fldAt 13 p (0x120 + 4 * k) 0 32
    wr64 (f 4) (f 5) e.site (wr64 (f 2) (f 3) e.port (wr (f 1) e.tag s))

/-! ### Receiving (R357, R358, R372 to R375) -/

def macOf (p : Nat) (s : State) : List Byte := leBytes 4 (rd (ETH_MAC_LO p) s) ++ leBytes 2 (rd (ETH_MAC_HI p) s)

def isMulticast (d : List Byte) : Bool := (d.headD 0).toNat % 2 == 1
def isBroadcast (d : List Byte) : Bool := d == List.replicate 6 0xFF

def ptpAddrs : List (List Byte) := [[0x01, 0x1B, 0x19, 0x00, 0x00, 0x00], [0x01, 0x80, 0xC2, 0x00, 0x00, 0x0E]]

/-- PTC uses port p. -/
def ptcUses (p : Nat) (s : State) : Bool := on PTC_CTRL_EN s && bit (rd PTC_CTRL_PORT_EN s) p

/-- The address filter. -/
def addrPasses (p : Nat) (d : List Byte) (s : State) : Bool :=
  let h := crc32 d / 2 ^ 26
  on (ETH_CTRL_PROMISC p) s || d == macOf p s || isBroadcast d || (ptcUses p s && ptpAddrs.contains d) ||
    (isMulticast d && (on (ETH_CTRL_ALL_MC p) s || bit (if h < 32 then rd (ETH_MC_HASH_LO p) s else rd (ETH_MC_HASH_HI p) s) (h % 32)))

/-- Where the PTP message of a frame (its tag stripped) begins: over Ethernet, or over UDP and IPv4. -/
def ptpAt (b : List Byte) : Option (Bool × Nat) :=
  let ty := ofBe (slice b 12 2)
  let ihl := 4 * (leAt b 14 1 % 16)
  let dport := ofBe (slice b (14 + ihl + 2) 2)
  if ty = 0x88F7 then some (false, 14)
  else if ty = 0x0800 ∧ leAt b 23 1 = 17 ∧ (dport = 319 ∨ dport = 320) then some (true, 14 + ihl + 8)
  else none

/-- The frame carries a PTP message for PTC on this port: its transport and domain are PTC's (R372). -/
def forPtc (p : Nat) (b : List Byte) (s : State) : Bool :=
  match ptpAt b with
  | some (udp, i) => ptcUses p s && udp == (on PTC_CTRL_TRANSPORT s && rd PTC_CTRL_PROFILE s != 2) && leAt b (i + 4) 1 == rd PTC_CTRL_DOMAIN s
  | none => false

def poolCells (s : State) : Nat := 4096 * min 6 (rd (ETH_POOL_MIB 0) s)
def cellAddrOf (c : Nat) (s : State) : Nat := 0x100000 * rd (ETH_POOL_ADDR 0) s + 256 * c
def poolFree (s : State) : Nat := poolCells s - s.eth.used.length
def showPool (s : State) : State := wr (ETH_POOL_STATUS_FREE 0) (poolFree s) s
def ringSize (p r : Nat) (s : State) : Nat := 2 ^ max 2 (min 10 (rd (ETH_RING_CTRL_LOG2 p r) s))
def ringReady (p r : Nat) (s : State) : Nat := ringSize p r s - (ring p r s).cells.length

/-- Pieces of at most 256 bytes. -/
def pieces : Nat → List Byte → List (List Byte)
  | 0, _ => []
  | n + 1, b => if b.isEmpty then [] else b.take 256 :: pieces n (b.drop 256)

/-- Takes a free cell. -/
def takeCell (s : State) : Nat × State :=
  let r := fresh s
  let s := r.2
  let c := pickFree s.eth.used (poolCells s) (s.eth.used.length + 1) (Config.poolCell r.1)
  (c, { s with eth := { s.eth with used := c :: s.eth.used } })

/-- Writes piece i of n into the descriptor at HEAD and its cell. -/
def storePiece (p r i n flen : Nat) (vlan : Option Nat) (st : Nat × Nat) (b : List Byte) (s : State) : State :=
  let c := takeCell s
  let s := c.2
  let a := cellAddrOf c.1 s
  let h := rd (ETH_RING_STATUS_HEAD p r) s
  let first := decide (i = 0)
  let last := decide (i + 1 = n)
  let d := leBytes 4 a ++ leBytes 2 b.length ++ leBytes 1 (b2n first + 2 * b2n last + 4 * b2n (first && vlan.isSome)) ++ leBytes 1 0 ++
    leBytes 8 (if first then st.1 else 0) ++ leBytes 8 (if first then st.2 else 0) ++ (if first then beBytes 2 (vlan.getD 0) else [0, 0]) ++
    leBytes 2 (if last then flen else 0) ++ leBytes 4 0
  let s := memWrite (32 * rd (ETH_RING_BASE_ADDR p r) s + 32 * h) d (13 + p) (memWrite a b (13 + p) s)
  let s := setRing p r { ring p r s with cells := (ring p r s).cells ++ [c.1] } s
  let s := wr (ETH_RING_STATUS_HEAD p r) ((h + 1) % ringSize p r s) s
  wr (ETH_RING_STATUS_READY p r) (ringReady p r s) s

/-- The notice of a write-back (R376, Table ETH-7). -/
def notice (p ringNo dir status error idx lenTag fl : Nat) (en : Bool) (s : State) : State :=
  if en then
    (pushWord fl (BitVec.ofNat 64 (status + 2 ^ 5 * p + 2 ^ 7 * dir + 2 ^ 8 * ringNo + 2 ^ 16 * idx + 2 ^ 32 * (lenTag % 65536) + 2 ^ 48 * error)) true s).2
  else s

/-- Stores a frame in ring r, or drops it whole (R373, R374). -/
def ringFrame (p r : Nat) (b : List Byte) (vlan : Option Nat) (st : Nat × Nat) (s : State) : State :=
  let ps := pieces 8 b
  let n := ps.length
  if !on (ETH_RING_CTRL_EN p r) s || decide (ringReady p r s < n) then raise (154 + 8 * p) (ethError p 0x01 r (ethCount p 14 1 s))
  else if poolFree s < n then raise (154 + 8 * p) (ethError p 0x02 r (ethCount p 15 1 s))
  else
    let s := ps.zipIdx.foldl (fun s x => storePiece p r x.2 n b.length vlan st x.1 s) s
    let idx := (rd (ETH_RING_STATUS_HEAD p r) s + ringSize p r s - 1) % ringSize p r s
    showPool (ethCount p (16 + r) 1 (notice p r 0 0 0 idx b.length (rd (ETH_RING_CTRL_FLUME p r) s) (on (ETH_RING_CTRL_NOTE_EN p r) s) s))

/-- The S-class fields of a direction commit between two frames (R394). -/
def commitRx (p : Nat) (s : State) : State :=
  [ETH_CTRL_ALL_MC p, ETH_CTRL_PROMISC p, ETH_CTRL_DEFAULT_PCP p, ETH_PHY_ADJ_RX_ADJ p, ETH_RX_MAP_RING p, ETH_MC_HASH_LO p, ETH_MC_HASH_HI p].foldl (fun s f => commitFld f s) s
def commitTx (p : Nat) (s : State) : State :=
  [ETH_PHY_ADJ_TX_ADJ p, ETH_PREEMPT_VERIFY_TIME p, ETH_PREEMPT_QMASK p, ETH_PREEMPT_ADD_FRAG p, ETH_PREEMPT_VERIFY_DIS p, ETH_PREEMPT_EN p].foldl (fun s f => commitFld f s) s

/-- A frame of b bytes (FCS included) ends on port p. err: 0 none, 1 alignment, 2 symbol, 3 reassembly, 4 SMD; frags: fragments of a preempted frame, 0 for a whole one; age: FRC ticks since its stamp point. -/
def ethFrameRx (p : Nat) (b : List Byte) (err frags age : Nat) (s : State) : State :=
  if !ethOn p s || !on (ETH_CTRL_RX_EN p) s || !on (ETH_STATUS_LINK p) s then s
  else
    let s := commitRx p s
    let s := if frags = 0 then s else ethCount p 23 frags s
    let n := b.length
    let body := b.take (n - 4)
    let d := b.take 6
    if err = 1 then ethError p 0x03 1 (ethCount p 10 1 s)
    else if err = 2 then ethError p 0x03 2 (ethCount p 11 1 s)
    else if err = 3 then ethError p 0x03 3 (ethCount p 21 1 s)
    else if err = 4 then ethError p 0x03 4 (ethCount p 22 1 s)
    else if n < 64 then ethError p 0x03 5 (ethCount p 12 1 s)
    else if 1522 < n then ethError p 0x03 6 (ethCount p 13 1 s)
    else if crc32 body ≠ leAt b (n - 4) 4 then ethError p 0x03 7 (ethCount p 9 1 s)
    else
      let s := if frags = 0 then s else ethCount p 20 1 s
      if ofBe (slice b 12 2) = 0x8808 ∧ ofBe (slice b 14 2) = 1 then ethCount p 7 1 s
      else if !addrPasses p d s then ethCount p 8 1 s
      else
        let s := ethCount p 0 n (ethCount p 1 1 (ethCount p (if isBroadcast d then 4 else if isMulticast d then 3 else 2) 1 s))
        let tagged := ofBe (slice b 12 2) == 0x8100
        let tci := ofBe (slice b 14 2)
        let f := if tagged then body.take 12 ++ body.drop 16 else body
        let s := if tagged then ethCount p 5 1 s else s
        let pcp := if tagged then tci / 2 ^ 13 else rd (ETH_CTRL_DEFAULT_PCP p) s
        if forPtc p f s then ethCount p 6 1 s
        else ringFrame p (bits (rd (ETH_RX_MAP_RING p) s) (2 * pcp) 2) f (if tagged then some tci else none) (stampAt age (-(rdS (ETH_PHY_ADJ_RX_ADJ p) s)) s) s

/-- A write to RING_RETURN_r (R375). -/
def ringReturn (p r n : Nat) (s : State) : State :=
  let cs := (ring p r s).cells
  let s := setRing p r { ring p r s with cells := cs.drop n } s
  let s := { s with eth := { s.eth with used := s.eth.used.filter (fun c => !(cs.take n).contains c) } }
  showPool (wr (ETH_RING_STATUS_READY p r) (ringReady p r s) s)

/-- Setting a ring's EN: every descriptor ready, HEAD at 0. -/
def ringOn (p r : Nat) (s : State) : State :=
  let s := ringReturn p r 2048 s
  wr (ETH_RING_CTRL_EN p r) 1 (wr (ETH_RING_STATUS_HEAD p r) 0 (wr (ETH_RING_STATUS_READY p r) (ringSize p r s) s))

def ringOff (p r : Nat) (s : State) : State := wr (ETH_RING_CTRL_EN p r) 0 s

/-! ### Gates (R359 to R365) -/

def entryGates (p bank e : Nat) (s : State) : Nat := rd (ETH_GCL_GATES p bank e) s
def entryNs (p bank e : Nat) (s : State) : Nat := 8 * rd (ETH_GCL_INTERVAL p bank e) s

/-- The list as gate states and lengths that fill one cycle: cut at its end, the last entry held to it. -/
def gateRuns (p bank : Nat) (s : State) : Nat → Nat → Nat → List (Nat × Nat)
  | 0, _, _ => []
  | n + 1, e, room =>
    if room = 0 then []
    else if n = 0 then [(entryGates p bank e s, room)]
    else
      let d := min room (entryNs p bank e s)
      (entryGates p bank e s, d) :: gateRuns p bank s n (e + 1) (room - d)

def gateTime (port : Bool) (s : State) : Int := if port then portNs s else siteNs s

/-- The runs of the list in operation from the present instant on, over two cycles; none when every gate stands open. -/
def runsNow (p : Nat) (s : State) : Option (List (Nat × Nat)) :=
  match (ethPort p s).gate with
  | some g =>
    if on (ETH_GCL_CTRL_EN p) s && decide (0 < g.len ∧ 0 < g.cycle) then
      let l := gateRuns p (rd (ETH_GCL_CTRL_OPER p) s) s g.len 0 g.cycle
      let ph := ((gateTime g.port s - g.base) % g.cycle).toNat
      let r := l.foldl (fun (acc : Nat × List (Nat × Nat)) x =>
        if x.2 ≤ acc.1 then (acc.1 - x.2, acc.2) else (0, acc.2 ++ [(x.1, x.2 - acc.1)])) (ph, [])
      some (r.2 ++ l)
    else none
  | none => none

/-- How long from the head of a list of runs queue q's gate stays open. -/
def openFor (q : Nat) : List (Nat × Nat) → Nat
  | [] => 0
  | x :: t => if bit x.1 q then x.2 + openFor q t else 0

/-- Longest open interval of queue q in a list, from each of its positions. -/
def longestOpen (q : Nat) : List (Nat × Nat) → Nat
  | [] => 0
  | x :: t => max (openFor q (x :: t)) (longestOpen q t)

/-- Bit rate of the link in Mbit/s. -/
def linkRate (p : Nat) (s : State) : Nat := match rd (ETH_STATUS_SPEED p) s with | 1 => 10 | 2 => 100 | 3 => 1000 | _ => 10

/-- Time on the wire of a frame of n bytes with FCS, preamble and gap included (ns). -/
def wireNs (p n : Nat) (s : State) : Nat := (max 64 n + 20) * 8000 / linkRate p s

/-- Whether a frame of n bytes of queue q may start: 0 it may, 1 its gate is closed or too short now, 2 no open interval of the list fits it (R362, R363). -/
def gateFit (p q n : Nat) (s : State) : Nat :=
  match runsNow p s, (ethPort p s).gate with
  | some l, some g =>
    let need := wireNs p n s
    let whole := gateRuns p (rd (ETH_GCL_CTRL_OPER p) s) s g.len 0 g.cycle
    if whole.all (fun x => bit x.1 q) then 0
    else if longestOpen q (whole ++ whole) < need then 2
    else if openFor q l < need then 1 else 0
  | _, _ => 0

/-- GCL_SWITCH (R364). -/
def gclSwitch (p : Nat) (s : State) : State :=
  if !ethOn p s then ethCmdDone p 4 4 0xF4 s
  else
    let bank := 1 - rd (ETH_GCL_CTRL_OPER p) s
    let len := min 256 (rd (ETH_GCL_CTRL_LEN p) s)
    let cyc := rd (ETH_GCL_CYCLE p) s
    if len = 0 ∨ cyc < 1000 ∨ (List.range len).all (fun e => entryNs p bank e s == 0) then ethCmdDone p 4 4 0x09 s
    else
      let g : Gate := { base := rd64 (ETH_GCL_BASE_LO p) (ETH_GCL_BASE_HI p) s, cycle := cyc, len := len, port := on (ETH_GCL_CTRL_TBASE p) s }
      let now := (gateTime g.port s + 1000).toNat
      let at_ := if now ≤ g.base then g.base else g.base + (now - g.base + cyc - 1) / cyc * cyc
      ethCmdDone p 4 0 0 (wr (ETH_GCL_CTRL_PENDING p) 1 (setPort p { ethPort p s with armed := some (g, at_) } s))

/-- The armed instant has come (R364). -/
def gclChange (p : Nat) (s : State) : State :=
  match (ethPort p s).armed with
  | some (g, at_) =>
    if ethOn p s && decide ((at_ : Int) ≤ gateTime g.port s) then
      let s := setPort p { ethPort p s with armed := none, gate := some g } s
      let s := wr (ETH_GCL_CTRL_OPER p) (1 - rd (ETH_GCL_CTRL_OPER p) s) (wr (ETH_GCL_CTRL_PENDING p) 0 s)
      raise (158 + 8 * p) (ethCount p 46 1 s)
    else s
  | none => s

/-- Port time has stepped: lists on port time resume from the entry that holds at it (R365). -/
def gclResync (s : State) : State :=
  (List.range 4).foldl (fun s p =>
    match (ethPort p s).gate with
    | some g => if g.port && ethOn p s && on (ETH_GCL_CTRL_EN p) s then raise (158 + 8 * p) (ethCount p 47 1 s) else s
    | none => s) s

/-! ### Transmitting (R359, R366 to R368) -/

def txqSize (p q : Nat) (s : State) : Nat := 2 ^ max 2 (min 10 (rd (ETH_TXQ_CTRL_LOG2 p q) s))
def descAddr (p q i : Nat) (s : State) : Nat := 16 * rd (ETH_TXQ_BASE_ADDR p q) s + 16 * (i % txqSize p q s)

def descOwn (d : List Byte) : Bool := bit (leAt d 6 1) 0
def descLast (d : List Byte) : Bool := bit (leAt d 6 1) 1

/-- Descriptors with OWN set from HEAD on. -/
def pendingFrom (p q : Nat) : Nat → Nat → State → Nat
  | 0, _, _ => 0
  | n + 1, i, s => if descOwn (bytesAt s.mem (descAddr p q i s) 16) then 1 + pendingFrom p q n (i + 1) s else 0

def showPending (p q : Nat) (s : State) : State :=
  wr (ETH_TXQ_STATUS_PENDING p q) (if (ethPort p s).kicked.contains q then pendingFrom p q (txqSize p q s) (rd (ETH_TXQ_STATUS_HEAD p q) s) s else 0) s

/-- The chain of a frame from index i: up to 16 descriptors, ending at LAST. -/
def chainFrom (p q : Nat) : Nat → Nat → State → List (Nat × List Byte)
  | 0, _, _ => []
  | n + 1, i, s =>
    let d := bytesAt s.mem (descAddr p q i s) 16
    if !descOwn d then [] else (i % txqSize p q s, d) :: (if descLast d then [] else chainFrom p q n (i + 1) s)

def chainTag (c : List (Nat × List Byte)) : Nat := leAt ((c.getLast?.map Prod.snd).getD []) 8 4

/-- The chain is one R367 lets go: LAST within it, no LEN of 0, at most 1,522 bytes on the wire. -/
def chainOk (c : List (Nat × List Byte)) : Bool :=
  let len := (c.map (fun x => leAt x.2 4 2)).sum
  (match c.getLast? with | some x => descLast x.2 | none => false) && c.all (fun x => leAt x.2 4 2 != 0) &&
    decide (len + 4 + 4 * b2n (c.any (fun x => bit (leAt x.2 6 1) 4)) ≤ 1522)

/-- Bytes on the wire of a chain, FCS and tag included. -/
def chainLen (c : List (Nat × List Byte)) : Nat := (c.map (fun x => leAt x.2 4 2)).sum + 4 + 4 * b2n (c.any (fun x => bit (leAt x.2 6 1) 4))

/-- The parts of a frame read from memory: whether every word could be had, and its bytes. -/
def readParts (p q : Nat) (c : List (Nat × List Byte)) (s : State) : (Bool × List Byte) × State :=
  c.foldl (fun (acc : (Bool × List Byte) × State) x =>
    let a := leAt x.2 0 4
    let n := leAt x.2 4 2
    let d := eccReadRange (descAddr p q x.1 acc.2) 16 2 (13 + p) acc.2
    let r := eccReadRange a n 2 (13 + p) d.2
    ((acc.1.1 && d.1 && r.1, acc.1.2 ++ bytesAt r.2.mem a n), r.2)) ((true, []), s)

/-- The write-back of a frame (R366, Table ETH-4): status, cause, stamp and flags into its LAST descriptor, OWN cleared in the others, a notice. -/
def writeBack (p q : Nat) (descs : List Nat) (tag status cause : Nat) (stamp : Option Nat) (lost preempted : Bool) (s : State) : State :=
  let err := if cause = 0 then 0 else 0x0D00 + 0x100 * p + cause
  let last := descs.getLast?.getD 0
  let s := (descs.dropLast).foldl (fun s i =>
    let a := descAddr p q i s + 6
    memWrite a (leBytes 1 (setBits (byteAt s.mem a).toNat 0 1 0)) (13 + p) s) s
  let w := leBytes 1 status ++ leBytes 1 (2 * b2n stamp.isSome + 4 * b2n lost + 8 * b2n preempted) ++ leBytes 2 err ++ leBytes 2 (stamp.getD 0) ++ leBytes 2 0 ++
    leBytes 4 tag ++ leBytes 4 (claimTime s)
  let s := memWrite (descAddr p q last s) w (13 + p) s
  let s := if status = 2 then ethCount p 42 1 s else s
  showPending p q (notice p q 1 status err last tag (rd (ETH_TXQ_CTRL_FLUME p q) s) (on (ETH_TXQ_CTRL_NOTE_EN p q) s) s)

/-- The first frame of a queue: its chain, once it stands there up to LAST or fills 16 descriptors without one (R367). -/
def headFrame (p q : Nat) (s : State) : List (Nat × List Byte) :=
  if on (ETH_TXQ_CTRL_EN p q) s && (ethPort p s).kicked.contains q then
    let c := chainFrom p q 16 (rd (ETH_TXQ_STATUS_HEAD p q) s) s
    if c.length = 16 ∨ (match c.getLast? with | some x => descLast x.2 | none => false) = true then c else []
  else []

/-- HEAD moves past a frame the port has read. -/
def passHead (p q : Nat) (descs : List Nat) (s : State) : State :=
  wr (ETH_TXQ_STATUS_HEAD p q) ((descs.getLast?.getD 0 + 1) % txqSize p q s) s

/-- KICK: the port reads descriptors from HEAD. -/
def txqKick (p q : Nat) (s : State) : State :=
  if ethOn p s && on (ETH_TXQ_CTRL_EN p q) s then
    showPending p q (setPort p { ethPort p s with kicked := if (ethPort p s).kicked.contains q then (ethPort p s).kicked else q :: (ethPort p s).kicked } s)
  else s

/-- Cancels the frames of queue q that have not started (Table ETH-5); n bounds their number. -/
def flushQueue (p q : Nat) : Nat → State → State
  | 0, s => s
  | n + 1, s =>
    match headFrame p q s with
    | [] => s
    | c => flushQueue p q n (writeBack p q (c.map Prod.fst) (chainTag c) 2 0x05 none false false (passHead p q (c.map Prod.fst) s))

def flushTxq (p q : Nat) (s : State) : State :=
  if !ethOn p s then ethCmdDone p 3 4 0xF4 s else ethCmdDone p 3 0 0 (flushQueue p q 1024 s)

def txqOn (p q : Nat) (s : State) : State := wr (ETH_TXQ_CTRL_EN p q) 1 (wr (ETH_TXQ_STATUS_HEAD p q) 0 s)
def txqOff (p q : Nat) (s : State) : State :=
  let s := flushQueue p q 1024 s
  wr (ETH_TXQ_CTRL_EN p q) 0 (setPort p { ethPort p s with kicked := (ethPort p s).kicked.filter (· != q) } s)

/-- R390: the whole nanoseconds of port time go into originTimestamp of a Sync. -/
def oneStep (b : List Byte) (ns : Nat) : Option (List Byte) :=
  match ptpAt b with
  | some (udp, i) =>
    if leAt b i 1 % 16 = 0 then
      let ts := beBytes 6 (ns / 1000000000) ++ beBytes 4 (ns % 1000000000)
      let b := b.take (i + 34) ++ ts ++ b.drop (i + 44)
      some (if udp then b.take (i - 2) ++ [0, 0] ++ b.drop i else b)
    else none
  | none => none

/-- Puts the chain of queue q's head frame on the wire. -/
def startFrame (p q : Nat) (c : List (Nat × List Byte)) (s : State) : State :=
  let r := readParts p q c s
  let ok := r.1.1
  let s := r.2
  let fl := leAt ((c.getLast?.map Prod.snd).getD []) 6 1
  let any := fun k => c.any (fun x => bit (leAt x.2 6 1) k)
  let tci := ((c.find? (fun x => bit (leAt x.2 6 1) 4)).map (fun x => slice x.2 12 2)).getD [0, 0]
  let one := if any 3 then oneStep r.1.2 (stampAt 0 (rdS (ETH_PHY_ADJ_TX_ADJ p) s) s).1 else none
  let b := one.getD r.1.2
  let b := if any 4 then b.take 12 ++ [0x81, 0x00] ++ tci ++ b.drop 12 else b
  let b := padTo 60 b
  let fcs := leBytes 4 (if ok then crc32 b else crc32 b ^^^ 0xFFFFFFFF)
  let s := if one.isSome then ethCount p 38 1 s else s
  let st : (Option Nat × Bool) × State := if any 2 then (let t := takeStamp p q (chainTag c) s; ((t.1, t.1.isNone), t.2)) else ((none, false), s)
  let s := st.2
  let w : OnWire := { queue := q, descs := c.map Prod.fst, tag := chainTag c, err := if ok then 0 else 0x0A, stamp := st.1.1, lost := st.1.2 }
  let s := setPort p { ethPort p s with wire := some w, heldQ := (ethPort p s).heldQ.filter (· != q) } s
  let s := ethCount p 24 (b.length + 4) (ethCount p 25 1 (ethCount p (if isBroadcast (b.take 6) then 28 else if isMulticast b then 27 else 26) 1 s))
  emit (.eth p (siteNs s) (b ++ fcs)) (passHead p q (c.map Prod.fst) s)

/-- The port looks for its next frame from queue q down (R359); malformed frames and frames no interval fits end on the way. -/
def nextFrame (p : Nat) : Nat → State → State
  | 0, s => s
  | q + 1, s =>
    match headFrame p q s with
    | [] => nextFrame p q s
    | c =>
      if !chainOk c then writeBack p q (c.map Prod.fst) (chainTag c) 1 0x04 none false false (passHead p q (c.map Prod.fst) (ethError p 0x04 q s))
      else
        match gateFit p q (chainLen c) s with
        | 0 => startFrame p q c s
        | 2 => writeBack p q (c.map Prod.fst) (chainTag c) 1 0x0C none false false (passHead p q (c.map Prod.fst) (ethError p 0x0C q s))
        | _ =>
          let s := if (ethPort p s).heldQ.contains q then s else ethCount p 34 1 (setPort p { ethPort p s with heldQ := q :: (ethPort p s).heldQ } s)
          nextFrame p q s

/-- The port may start a frame (R359): it is running with a link and nothing on the wire. -/
def ethFrameTx (p : Nat) (s : State) : State :=
  if ethOn p s && on (ETH_CTRL_TX_EN p) s && on (ETH_STATUS_LINK p) s && (ethPort p s).wire.isNone then nextFrame p 8 (commitTx p s) else s

/-- The frame on the wire of port p ends (R366, R368): 0 sent, 1 the link was lost, 2 the sixteenth attempt collided, 3 a late collision; coll is the number of collisions it met, frags the fragments it went out in. -/
def txEnd (p outcome coll frags : Nat) (s : State) : State :=
  match (ethPort p s).wire with
  | none => s
  | some w =>
    let s := setPort p { ethPort p s with wire := none } s
    let s := if coll = 0 then s else ethCount p 39 coll s
    let s := if frags = 0 then s else ethCount p 31 frags (ethCount p 30 1 s)
    let x : (Nat × Nat) × State := match outcome with
      | 0 => if w.err = 0 then ((0, 0), s) else ((1, w.err), ethCount p 35 1 s)
      | 1 => ((3, 0x0B), s)
      | 2 => ((1, 0x06), ethCount p 41 1 s)
      | _ => ((1, 0x07), ethCount p 40 1 s)
    writeBack p w.queue w.descs w.tag x.1.1 x.1.2 w.stamp w.lost (decide (frags ≠ 0)) x.2

/-! ### Link and preemption (R356, R361, R371) -/

def setVerify (p v : Nat) (s : State) : State :=
  if rd (ETH_STATUS_VERIFY p) s = v then s else raise (157 + 8 * p) (wr (ETH_STATUS_VERIFY p) v s)

/-- Preemption as the link comes up: verification begins, is waived, or is off. -/
def startVerify (p : Nat) (s : State) : State :=
  if !on (ETH_PREEMPT_EN p) s then wr (ETH_STATUS_PREEMPT p) 0 (setVerify p 0 s)
  else if on (ETH_PREEMPT_VERIFY_DIS p) s then wr (ETH_STATUS_PREEMPT p) 1 (setVerify p 0 s)
  else wr (ETH_STATUS_PREEMPT p) 0 (setVerify p 2 s)

/-- PLCA state of E3 with the link up. -/
def plcaRole (s : State) : Nat := if on (ETH_CTRL_PLCA_EN 3) s then (if rd (ETH_PLCA_NODE_ID 3) s = 0 then 1 else 2) else 0

def setLink (p up speed plca : Nat) (s : State) : State :=
  let s' := wr (ETH_STATUS_LINK p) up (wr (ETH_STATUS_SPEED p) speed (wr (ETH_STATUS_PLCA p) plca s))
  if rd (ETH_STATUS_LINK p) s = up ∧ rd (ETH_STATUS_SPEED p) s = speed ∧ rd (ETH_STATUS_PLCA p) s = plca then s else raise (153 + 8 * p) s'

/-- The link goes down: a frame on the wire is ABANDONED (Table ETH-5). -/
def linkDown (p : Nat) (s : State) : State :=
  let s := txEnd p 1 0 0 s
  ethCount p 43 1 (wr (ETH_STATUS_PREEMPT p) 0 (setVerify p 1 (setLink p 0 0 0 s)))

/-- The link of port p comes up at a speed (1 to 3), or goes down, or a partner that offers half duplex only gets none (R356). -/
def linkChange (p : Nat) (up half : Bool) (speed : Nat) (s : State) : State :=
  if !ethOn p s then s
  else if half && decide (p < 3) then ethCount p 43 1 s
  else if !up then (if on (ETH_STATUS_LINK p) s then linkDown p s else s)
  else
    let s := setLink p 1 (if p = 3 then 1 else max 1 (min 3 speed)) (if p = 3 then plcaRole s else 0) s
    startVerify p (commitTx p s)

/-- RESTART_AN: the link drops and negotiation begins again; E3 has none. -/
def restartAn (p : Nat) (s : State) : State :=
  if !ethOn p s || p == 3 then ethCmdDone p 1 4 0xF4 s
  else ethCmdDone p 1 0 0 (if on (ETH_STATUS_LINK p) s then linkDown p s else s)

/-- VERIFY. -/
def verifyCmd (p : Nat) (s : State) : State :=
  if ethOn p s && on (ETH_STATUS_LINK p) s && on (ETH_PREEMPT_EN p) s then ethCmdDone p 2 0 0 (wr (ETH_STATUS_PREEMPT p) 0 (setVerify p 2 s))
  else ethCmdDone p 2 4 0xF4 s

/-- Verification succeeds or fails. -/
def verifyEnd (p : Nat) (ok : Bool) (s : State) : State :=
  if ethOn p s && rd (ETH_STATUS_VERIFY p) s == 2 then
    ethCount p (if ok then 32 else 33) 1 (wr (ETH_STATUS_PREEMPT p) (b2n ok) (setVerify p (if ok then 3 else 4) s))
  else s

/-- E3 as a follower hears no BEACON for its limit (R371). -/
def beaconLost (s : State) : State :=
  if ethOn 3 s && rd (ETH_STATUS_PLCA 3) s == 2 then ethCount 3 45 1 (setLink 3 1 1 3 s) else s

/-- ETH_CTRL.EN cleared: nothing is on the wire and no link stands. -/
def ethOff (p : Nat) (s : State) : State :=
  let s := if on (ETH_STATUS_LINK p) s then linkDown p s else s
  setVerify p 0 (wr (ETH_CTRL_EN p) 0 s)

/-! ### Meanings -/

def execEthFrameRx (p : Nat) (b : List Byte) (err frags age : Nat) (s : State) := run (ethFrameRx (p % 4) b err frags age) s
def execTxqKick (p q : Nat) (s : State) := run (txqKick (p % 4) (q % 8)) s
def execEthFrameTx (p : Nat) (s : State) := run (ethFrameTx (p % 4)) s
def execEthTxWriteback (p outcome coll frags : Nat) (s : State) := run (txEnd (p % 4) outcome coll frags) s
def execRingReturn (p r n : Nat) (s : State) := run (ringReturn (p % 4) (r % 4) n) s
def execRestartAn (p : Nat) (s : State) := run (restartAn (p % 4)) s
def execEthVerify (p : Nat) (s : State) := run (verifyCmd (p % 4)) s
def execVerifyComplete (p : Nat) (ok : Bool) (s : State) := run (verifyEnd (p % 4) ok) s
def execFlushTxq (p q : Nat) (s : State) := run (flushTxq (p % 4) (q % 8)) s
def execGclSwitch (p : Nat) (s : State) := run (gclSwitch (p % 4)) s
def execGclChange (p : Nat) (s : State) := run (gclChange (p % 4)) s
def execLinkChange (p : Nat) (up half : Bool) (speed : Nat) (s : State) := run (linkChange (p % 4) up half speed) s
def execPlcaBeaconLost (s : State) := run beaconLost s
def execTsqPop (p : Nat) (s : State) := run (tsqPop (p % 4)) s

end Sys2Proof.Machine
end

