-- ==== Sys2Proof/Machine/Ptc.lean ====
section
/-!
DEFINITION. Sys2Proof/Machine/Ptc.lean: PTC (11_ethernet_and_time.md): port time and its servo, the PTP protocol on the ports, the difference of the two clocks, PPS.
The message formats and the comparison of datasets are those of IEEE 1588-2019, to which the chapter refers.
-/
namespace Sys2Proof.Machine

def ptpPort (p : Nat) (s : State) : PtpPort := tget {} p s.ptc.ports
def setPtp (p : Nat) (x : PtpPort) (s : State) : State := { s with ptc := { s.ptc with ports := tset {} p x s.ptc.ports } }

def ptcOn (s : State) : Bool := on PTC_CTRL_EN s && awake s
def gptp (s : State) : Bool := rd PTC_CTRL_PROFILE s == 2
def peerDelay (s : State) : Bool := rd PTC_CTRL_PROFILE s == 1 || rd PTC_CTRL_PROFILE s == 2

/-- PORT_STATE of port p: 0 DISABLED, 1 LISTENING, 2 MASTER, 3 PASSIVE, 4 UNCALIBRATED, 5 SLAVE, 6 FAULTY. -/
def ptpState (p : Nat) (s : State) : Nat := bits (rd PTC_STATUS_PORT_STATE s) (4 * p) 4

def slavePort (s : State) : Option Nat := (List.range 4).find? (fun p => ptpState p s == 5)

def setPtpState (p st : Nat) (s : State) : State :=
  if ptpState p s = st then s
  else
    let s := wr PTC_STATUS_PORT_STATE (setBits (rd PTC_STATUS_PORT_STATE s) (4 * p) 4 st) s
    raise 185 (wr PTC_STATUS_SLAVE_PORT ((slavePort s).getD 7) s)

def ptcCmdDone (cmd status error : Nat) (s : State) : State := cmdRes 17 0 0x4C 191 cmd status error s

/-! ### Port time (R381 to R385) -/

/-- Sets the rate of the port clock, held within 1,000 ppm of 2 ns. -/
def setPortInc (d : Int) (s : State) : State :=
  { s with clk := { s.clk with incPort := (0x200000000 + max (-8589934) (min 8589934 d)).toNat } }

/-- Port time less site time in ns. -/
def timeDiff (s : State) : Int := portNs s - siteNs s

/-- R385, without the stop source, which follows APART: STP watches it. -/
def checkApart (s : State) : State :=
  let far := decide (1000000000 < (timeDiff s).natAbs)
  if far && !on PTC_STATUS_APART s then
    raiseAlarm 188 (report 0x1103 0 (count PTC_CNT_APART 1 (wr PTC_STATUS_APART 1 s)))
  else if !far && on PTC_STATUS_APART s then raise 189 (wr PTC_STATUS_APART 0 s)
  else s

/-- Port time steps by ns (R381). -/
def stepPort (ns : Int) (s : State) : State :=
  let s := { s with clk := { s.clk with portOfs := s.clk.portOfs + ns * 2 ^ 32 } }
  checkApart (gclResync (raise 187 (report 0x1102 0 (count PTC_CNT_PORT_STEP 1 s))))

def stepLim (s : State) : Nat := 1000 * rd PTC_TIME_CFG_STEP_LIM s

/-- While no port is SLAVE, port time follows site time: a slew of at most 500 ppm within STEP_LIM, else a step (R382). -/
def followSite (s : State) : State :=
  if (slavePort s).isSome || !s.clk.siteSet then checkApart s
  else
    let d := timeDiff s
    if stepLim s < d.natAbs then stepPort (-d) s
    else
      let r := fresh s
      checkApart (setPortInc (max (-4294967) (min 4294967 (Config.portLoop r.1 d))) r.2)

/-- A PTP or TWN time offered for the first setting of site time: refused below the persisted time (R598). -/
def offerTime (t : Nat) (s : State) : State :=
  if s.clk.siteSet then s
  else if s.nv.time ≤ t then firstSetting t { s with ptc := { s.ptc with refused := false } }
  else if s.ptc.refused then s
  else report 0x1108 0 { s with ptc := { s.ptc with refused := true } }

/-- PTP steers site time (R383). -/
def ptpSteers (s : State) : Bool := !on REF_CTRL_TIME_MASTER s && rd PTC_TIME_CFG_SRC s == 0

/-- The servo takes an offset from the master (R382, R383). -/
def servo (off : Int) (s : State) : State :=
  let s := wrS PTC_OFFSET (satS 32 off) s
  let s := if stepLim s < off.natAbs then stepPort (-off) s
    else let r := fresh s; checkApart (setPortInc (Config.portLoop r.1 off) r.2)
  if ptpSteers s then
    if !s.clk.siteSet then offerTime (portNs s).toNat s
    else
      let r := fresh s
      wr PTC_STATUS_SITE_SRC 1 (wr PTC_STATUS_HOLDOVER 0 (setSiteInc (Config.siteLoop r.1 (-(timeDiff s))) r.2))
  else s

/-! ### The best master clock algorithm -/

def moduleEui (s : State) : List Byte := leBytes 4 (rd STW_EUI_LO s) ++ leBytes 4 (rd STW_EUI_HI s)

/-- Announced quality (Table ETH-9, R391). -/
def ownQuality (s : State) : Nat × Nat × Nat :=
  let steering := on REF_CTRL_EN s && on REF_CTRL_TIME_MASTER s
  if rd PTC_CTRL_ROLE s = 2 then (255, 0xFE, 0xA0)
  else if steering && timeState s == 1 then (6, 0x21, 0x20)
  else if steering && timeState s == 2 then (if holdSeconds s ≤ 3600 then (7, 0x25, 0x20) else (52, 0xFE, 0xA0))
  else (248, 0xFE, 0xA0)

def showQuality (s : State) : State :=
  match ownQuality s with
  | (c, a, t) => wr PTC_CLOCK_CLASS c (wr PTC_CLOCK_ACCURACY a (wr PTC_CLOCK_SOURCE t s))

/-- The module's own dataset, in the order of comparison. -/
def ownDs (s : State) : List Nat :=
  match ownQuality s with
  | (c, a, _) => [rd PTC_DS_PRIORITY1 s, c, a, if c < 248 then 0x4E5D else 0xFFFF, rd PTC_DS_PRIORITY2 s, ofBe (moduleEui s)]

/-- Lexicographic order of datasets. -/
def dsLess : List Nat → List Nat → Bool
  | a :: t, b :: u => decide (a < b) || (a == b && dsLess t u)
  | [], _ :: _ => true
  | _, [] => false

def foreignKey (f : Foreign) : List Nat := f.ds ++ [f.steps, f.sender]

/-- The best foreign master over all ports, with its port. -/
def bestForeign (s : State) : Option (Nat × Foreign) :=
  (List.range 4).foldl (fun (b : Option (Nat × Foreign)) p =>
    match (ptpPort p s).foreign, b with
    | some f, some (_, g) => if dsLess (foreignKey f) (foreignKey g) then some (p, f) else b
    | some f, none => some (p, f)
    | none, _ => b) none

/-- State decision for port p (IEEE 1588-2019, clause 9.3.3: M1, P1, M2, S1, P2, M3), with the bars of R392. A port chosen as slave is UNCALIBRATED until a Sync has been taken. -/
def decide1588 (p : Nat) (s : State) : Nat :=
  let role := rd PTC_CTRL_ROLE s
  let own := ownDs s
  let maySlave := role != 1 && !bit (rd PTC_CTRL_MASTER_ONLY s) p
  let master := if role = 2 then 1 else 2
  match (ptpPort p s).foreign, bestForeign s with
  | some f, some (bp, b) =>
    if role = 1 ∨ own.getD 1 255 < 128 then (if dsLess own f.ds then master else 3)
    else if dsLess own b.ds && role != 2 then master
    else if bp = p ∧ maySlave = true then (if ptpState p s = 5 then 5 else 4)
    else if bp ≠ p ∧ b.ds = f.ds then 3
    else master
  | _, _ => master

/-- The port that follows a master, calibrated or not. -/
def followingPort (s : State) : Option Nat := (List.range 4).find? (fun p => ptpState p s == 5 || ptpState p s == 4)

/-- Reruns the algorithm on every port that takes part. -/
def runBmca (s : State) : State :=
  let was := (rd PTC_GM_ID_LO s, rd PTC_GM_ID_HI s)
  let s := (List.range 4).foldl (fun s p =>
    if ptcOn s && ptcUses p s && ethOn p s && on (ETH_STATUS_LINK p) s then setPtpState p (decide1588 p s) s else setPtpState p 0 s) (showQuality s)
  let gm := match followingPort s with
    | some p => (match (ptpPort p s).foreign with | some f => f.ds.getD 5 0 | none => 0)
    | none => ofBe (moduleEui s)
  let g := beBytes 8 gm
  let s := wr PTC_GM_ID_LO (ofLe (g.take 4)) (wr PTC_GM_ID_HI (ofLe (g.drop 4)) s)
  if was = (rd PTC_GM_ID_LO s, rd PTC_GM_ID_HI s) then s else raise 186 s

/-! ### Messages -/

/-- Header fields of a PTP message (IEEE 1588-2019, clause 13.3). -/
def msgType (b : List Byte) : Nat := leAt b 0 1 % 16
def msgCorr (b : List Byte) : Int := sgn 64 (ofBe (slice b 8 8)) / 65536
def msgSender (b : List Byte) : Nat := ofBe (slice b 20 10)
def msgSeq (b : List Byte) : Nat := ofBe (slice b 30 2)
def msgStamp (b : List Byte) (i : Nat) : Int := (ofBe (slice b i 6) : Int) * 1000000000 + ofBe (slice b (i + 6) 4)
def twoStepFlag (b : List Byte) : Bool := bit (leAt b 6 1) 1

/-- Least length of each message type; 0 for a reserved type. -/
def msgMin (t : Nat) : Nat := match t with | 0 => 44 | 1 => 44 | 2 => 54 | 3 => 54 | 8 => 44 | 9 => 54 | 10 => 54 | 11 => 64 | 12 => 44 | 13 => 48 | _ => 0

def msgOk (b : List Byte) : Bool :=
  let n := ofBe (slice b 2 2)
  decide (34 ≤ b.length) && leAt b 1 1 % 16 == 2 && decide (msgMin (msgType b) ≠ 0) && decide (msgMin (msgType b) ≤ n ∧ n ≤ b.length)

/-- A message of this module: type, sequence, flags, correction (ns), log interval, body. -/
def makeMsg (p t seq flags : Nat) (corr : Int) (log : Nat) (body : List Byte) (s : State) : List Byte :=
  let g := if gptp s then 1 else 0
  ([BitVec.ofNat 8 (16 * g + t), 2] : List Byte) ++ beBytes 2 (34 + body.length) ++ ([BitVec.ofNat 8 (rd PTC_CTRL_DOMAIN s), 0] : List Byte) ++ beBytes 2 flags ++ beBytes 8 (enc 64 (corr * 65536)) ++
    List.replicate 4 (0 : Byte) ++ moduleEui s ++ beBytes 2 (p + 1) ++ beBytes 2 seq ++ [BitVec.ofNat 8 (match t with | 0 => 0 | 1 => 1 | 8 => 2 | 9 => 3 | _ => 5), BitVec.ofNat 8 log] ++ body

def stampBytes (ns : Int) : List Byte := beBytes 6 (ns / 1000000000).toNat ++ beBytes 4 (ns % 1000000000).toNat

def txNow (p : Nat) (s : State) : Int := (stampAt 0 (rdS (ETH_PHY_ADJ_TX_ADJ p) s) s).1

/-- An offset measured on the SLAVE port from a Sync sent at t1 and received at t2 (both corrected). -/
def takeSync (p : Nat) (t1 t2 : Int) (s : State) : State :=
  let s := setPtp p { ptpPort p s with last := some (t1, t2), sync := s.clk.frc } (setPtpState p 5 s)
  servo (t2 - t1 - rd PTC_DELAY s) s

/-- A delay measured from the four instants of an exchange. -/
def takeDelay (d : Int) (s : State) : State := wr PTC_DELAY (max 0 (min 0xFFFFFFFF d)).toNat s

/-- PTC receives a well-formed message of its domain on port p; t2 is its stamp. -/
def ptpTake (p : Nat) (b : List Byte) (t2 : Int) (s : State) : State :=
  let x := ptpPort p s
  let parent := match x.foreign with | some f => f.sender == msgSender b | none => false
  let slave := ptpState p s == 5 || ptpState p s == 4
  let mine := slice b 44 10 == moduleEui s ++ beBytes 2 (p + 1)
  match msgType b with
  | 0 =>
    let s := count PTC_CNT_SYNC_RX 1 s
    if slave && parent then
      let s := setPtp p { x with sync := s.clk.frc } s
      if twoStepFlag b then setPtp p { ptpPort p s with twoStep := some (msgSeq b, t2, msgCorr b) } s
      else takeSync p (msgStamp b 34 + msgCorr b) t2 s
    else s
  | 8 =>
    match x.twoStep with
    | some (q, r2, c) =>
      if slave && parent && q == msgSeq b then takeSync p (msgStamp b 34 + msgCorr b + c) r2 (setPtp p { x with twoStep := none } s) else s
    | none => s
  | 1 =>
    let s := count PTC_CNT_DELAY_RX 1 s
    if ptpState p s = 2 ∧ peerDelay s = false then
      emit (.ptp p (makeMsg p 9 (msgSeq b) 0 (msgCorr b) (rd PTC_INTERVAL_LOG_DELAY_REQ s) (stampBytes t2 ++ slice b 20 10) s)) s
    else s
  | 9 =>
    let s := count PTC_CNT_DELAY_RX 1 s
    match x.req, x.last with
    | some (q, t3), some (t1, r2) =>
      if slave && parent && mine && q == msgSeq b then
        takeDelay (((r2 - t1) + (msgStamp b 34 - msgCorr b - t3)) / 2) (setPtp p { x with req := none } s)
      else s
    | _, _ => s
  | 2 =>
    let s := count PTC_CNT_DELAY_RX 1 s
    let t3 := txNow p s
    if !peerDelay s then s
    else if on PTC_CTRL_ONE_STEP s then
      emit (.ptp p (makeMsg p 3 (msgSeq b) 0 (msgCorr b + (t3 - t2)) 0x7F (stampBytes 0 ++ slice b 20 10) s)) s
    else
      emit (.ptp p (makeMsg p 10 (msgSeq b) 0 (msgCorr b) 0x7F (stampBytes t3 ++ slice b 20 10) s))
        (emit (.ptp p (makeMsg p 3 (msgSeq b) 0x0200 0 0x7F (stampBytes t2 ++ slice b 20 10) s)) s)
  | 3 =>
    let s := count PTC_CNT_DELAY_RX 1 s
    match x.req with
    | some (q, t1) =>
      if peerDelay s && mine && q == msgSeq b then
        if twoStepFlag b then setPtp p { x with pResp := some (q, msgStamp b 34 - msgCorr b, t2) } s
        else takeDelay (((t2 - t1) - msgCorr b) / 2) (setPtp p { x with req := none } s)
      else s
    | none => s
  | 10 =>
    match x.req, x.pResp with
    | some (q, t1), some (q2, r2, t4) =>
      if peerDelay s && mine && q == msgSeq b && q2 == q then
        takeDelay (((t4 - t1) - (msgStamp b 34 + msgCorr b - r2)) / 2) (setPtp p { x with req := none, pResp := none } s)
      else s
    | _, _ => s
  | 11 =>
    let s := count PTC_CNT_ANNOUNCE_RX 1 s
    let f : Foreign := { ds := [leAt b 47 1, leAt b 48 1, leAt b 49 1, ofBe (slice b 50 2), leAt b 52 1, ofBe (slice b 53 8)], steps := ofBe (slice b 61 2), sender := msgSender b, at_ := s.clk.frc }
    if f.sender / 65536 = ofBe (moduleEui s) then s
    else
      let better := match x.foreign with | some g => g.sender == f.sender || dsLess (foreignKey f) (foreignKey g) | none => true
      runBmca (if better then setPtp p { x with foreign := some f } s else s)
  | _ => s

/-- A PTP message arrives on port p, its stamp point age ticks ago (R372, R382, R393). -/
def ptpMessage (p : Nat) (b : List Byte) (age : Nat) (s : State) : State :=
  if !ptcOn s || !ptcUses p s || !ethOn p s then s
  else if !msgOk b then report 0x1104 p (count PTC_CNT_MSG_BAD 1 s)
  else if msgType b = 13 ∨ leAt b 4 1 ≠ rd PTC_CTRL_DOMAIN s then report 0x1105 p (count PTC_CNT_MGMT_DROP 1 s)
  else ptpTake p b (stampAt age (-(rdS (ETH_PHY_ADJ_RX_ADJ p) s)) s).1 s

/-- The dataset announced: the grandmaster's while a port is SLAVE, else the module's own (R391), with stepsRemoved. -/
def announced (s : State) : List Nat × Nat :=
  match slavePort s with
  | some q => (match (ptpPort q s).foreign with | some f => (f.ds, f.steps + 1) | none => (ownDs s, 0))
  | none => (ownDs s, 0)

/-- PTC sends a periodic message: 0 Sync (with its Follow_Up when two-step), 1 Announce, 2 Delay_Req, 3 Pdelay_Req, each in the states in which it is due. -/
def ptpTx (p kind : Nat) (s : State) : State :=
  if !ptcOn s || !ptcUses p s || !ethOn p s || !on (ETH_STATUS_LINK p) s then s
  else
    let x := ptpPort p s
    let s := showQuality s
    let next := fun (s : State) => setPtp p { ptpPort p s with seqs := (x.seqs + 1) % 65536 } s
    let t := txNow p s
    match kind with
    | 0 =>
      if ptpState p s ≠ 2 then s
      else
        let s := count PTC_CNT_SYNC_TX 1 (next s)
        if on PTC_CTRL_ONE_STEP s then emit (.ptp p (makeMsg p 0 x.seqs 0 0 (rd PTC_INTERVAL_LOG_SYNC s) (stampBytes t) s)) s
        else emit (.ptp p (makeMsg p 8 x.seqs 0 0 (rd PTC_INTERVAL_LOG_SYNC s) (stampBytes t) s)) (emit (.ptp p (makeMsg p 0 x.seqs 0x0200 0 (rd PTC_INTERVAL_LOG_SYNC s) (stampBytes 0) s)) s)
    | 1 =>
      if ptpState p s ≠ 2 then s
      else
        let a := announced s
        let g := fun i => a.1.getD i 0
        let utc := on PTC_STATUS_UTC_VALID s
        emit (.ptp p (makeMsg p 11 x.seqs (8 + 4 * b2n utc) 0 (rd PTC_INTERVAL_LOG_ANNOUNCE s)
          (stampBytes 0 ++ beBytes 2 (rd PTC_CLOCK_UTC_OFFSET s) ++ [0, BitVec.ofNat 8 (g 0), BitVec.ofNat 8 (g 1), BitVec.ofNat 8 (g 2)] ++ beBytes 2 (g 3) ++ [BitVec.ofNat 8 (g 4)] ++
            beBytes 8 (g 5) ++ beBytes 2 a.2 ++ [BitVec.ofNat 8 (rd PTC_CLOCK_SOURCE s)]) s)) (next s)
    | 2 =>
      if ptpState p s ≠ 5 ∨ peerDelay s = true then s
      else emit (.ptp p (makeMsg p 1 x.seqs 0 0 0x7F (stampBytes 0) s)) (next (setPtp p { x with req := some (x.seqs, t) } s))
    | _ =>
      if !peerDelay s then s
      else emit (.ptp p (makeMsg p 2 x.seqs 0 0 (rd PTC_INTERVAL_LOG_PDELAY s) (stampBytes 0 ++ List.replicate 10 (0 : Byte)) s)) (next (setPtp p { x with req := some (x.seqs, t) } s))

/-- Interval of a signed base-2 logarithm, in FRC ticks. -/
def logTicks (l : Nat) : Nat := let i := sgn 4 l; if 0 ≤ i then 500000000 * 2 ^ i.toNat else 500000000 / 2 ^ (-i).toNat

/-- The SLAVE port misses Announce for ANN_TIMEOUT intervals or Sync for three (R384). -/
def masterLost (s : State) : State :=
  match slavePort s with
  | none => s
  | some p =>
    let x := ptpPort p s
    let ann := match x.foreign with | some f => decide (max 2 (rd PTC_INTERVAL_ANN_TIMEOUT s) * logTicks (rd PTC_INTERVAL_LOG_ANNOUNCE s) ≤ s.clk.frc - f.at_) | none => true
    let syn := decide (3 * logTicks (rd PTC_INTERVAL_LOG_SYNC s) ≤ s.clk.frc - x.sync)
    if ptcOn s && (ann || syn) then
      let s := setPtp p { x with foreign := none, twoStep := none, req := none, pResp := none } s
      let s := raise 190 (report 0x1101 p (count PTC_CNT_MASTER_LOST 1 s))
      let s := if ptpSteers s then coast (report 0x1106 p (wr PTC_STATUS_HOLDOVER 1 s)) else s
      runBmca s
    else s

/-- STEP_PORT. -/
def stepPortCmd (s : State) : State :=
  if !on PTC_CTRL_EN s then ptcCmdDone 1 4 0x11F4 s
  else if (slavePort s).isSome then ptcCmdDone 1 4 0x1107 s
  else ptcCmdDone 1 0 0 (stepPort (sgn 64 (rd64 PTC_STEP_LO PTC_STEP_HI s)) s)

/-- RESELECT. -/
def reselectCmd (s : State) : State := if !ptcOn s then ptcCmdDone 2 4 0x11F4 s else ptcCmdDone 2 0 0 (runBmca s)

end Sys2Proof.Machine
end

