-- ==== Sys2Proof/Machine/Sess.lean ====
section
/-!
DEFINITION. Sys2Proof/Machine/Sess.lean: sessions of the service protocol and the messages the module sends in them (12_service_protocol.md, Table GSP-2, R403, R406).
-/
namespace Sys2Proof.Machine

def setStw (x : Stw) (s : State) : State := { s with stw := x }
def sessOf (id : Nat) (s : State) : Option Session := tfind id s.stw.sessions
def setSess (id : Nat) (x : Session) (s : State) : State := setStw { s.stw with sessions := tins id x s.stw.sessions } s

/-- A message header (Table GSP-2). -/
def gspHeader (kind id seq code status flags error len : Nat) : List Byte :=
  leBytes 2 0x4753 ++ leBytes 1 1 ++ leBytes 1 kind ++ leBytes 4 id ++ leBytes 4 seq ++ leBytes 2 code ++ leBytes 1 status ++ leBytes 1 flags ++ leBytes 2 error ++ leBytes 2 len ++ leBytes 4 0

/-- The nonce of R403: direction, SESSION and SEQ. -/
def gspNonce (dir id seq : Nat) : List Byte := leBytes 1 dir ++ leBytes 3 0 ++ leBytes 4 id ++ leBytes 4 seq

/-- A protected message under a session's key. -/
def gspSealed (key header : List Byte) (dir id seq : Nat) (payload : List Byte) : List Byte :=
  let x := gcmSeal key (gspNonce dir id seq) header payload
  header ++ x.1 ++ x.2

/-- The last n entries of a list. -/
def lastN {α : Type} (n : Nat) (l : List α) : List α := l.drop (l.length - n)

/-- The one RESPONSE of a request: sent, stored among the last eight, the request no longer in service (R406, R408). -/
def respond (id seq code status error flags : Nat) (payload : List Byte) (s : State) : State :=
  match sessOf id s with
  | none => s
  | some x =>
    let d := gspSealed x.key (gspHeader 4 id seq code status flags error payload.length) 2 id seq payload
    emit (.host x.peer d) (setSess id { x with kept := lastN 8 (x.kept ++ [(seq, d)]), busy := x.busy.filter (fun q => q.1 != seq) } s)

/-- A RELEASE ends: the hosts that wait for it are answered (R417). -/
def answerReleases (status error : Nat) (s : State) : State :=
  s.stw.sessions.foldl (fun s p => (p.2.busy.filter (fun q => q.2 == 0x0042)).foldl (fun s q => respond p.1 q.1 0x0042 status error 0 [] s) s) s

end Sys2Proof.Machine
end

