-- ==== Sys2Proof/Machine/Stop.lean ====
section
/-!
DEFINITION. Sys2Proof/Machine/Stop.lean: the stop lane (07_fleet_stop.md): sources, the two-channel input, the latch, the epoch, stop frames on every medium, the stop-status outputs.
-/
namespace Sys2Proof.Machine

def setStp (x : Stp) (s : State) : State := { s with stp := x }

/-- STATE (Table STP-2): 0 HELD, 1 PERMIT, 2 LATCHED, 3 RELEASING, 4 FAULT. -/
def lane (s : State) : Nat := rd STP_STATUS_STATE s

def stpCmdDone (cmd status error : Nat) (s : State) : State := cmdRes 12 0 0x0C 151 cmd status error s

/-- A RELEASE under way ends: its result, and the hosts' answers (R417). -/
def releaseDone (status error : Nat) (s : State) : State := answerReleases status error (stpCmdDone 3 status error s)

/-! ### Stop-status outputs (R236) -/

/-- What output n is commanded to. -/
def statOut (n : Nat) (s : State) : Bool :=
  !s.pwr.off && (lane s == 0 || lane s == 1) &&
    (match rd (if n = 0 then STP_STAT_OUT_SEL0 else STP_STAT_OUT_SEL1) s with
    | 0 => lane s == 1
    | 1 => true
    | 2 => on STP_STATUS_INA s && on STP_STATUS_INB s
    | 3 => false
    | k => Config.statReserved k)

/-- The outputs follow, and read back what they drive. -/
def showStat (s : State) : State := wr STP_STATUS_STAT1 (b2n (statOut 1 s)) (wr STP_STATUS_STAT0 (b2n (statOut 0 s)) s)

/-- A read-back mismatch of 1 ms. -/
def statFault (n : Nat) (s : State) : State :=
  if s.pwr.off then s
  else
    let s := wr (if n = 0 then STP_STATUS_STAT0 else STP_STATUS_STAT1) (b2n (!statOut n s)) s
    reportAlarm 0x0C06 n (raise 150 (count STP_CNT_STAT_FAULT 1 s))

/-- The lane enters a state; its outputs, AIR's beacon and PRO's state follow (R216, R236). -/
def enterLane (st : Nat) (s : State) : State :=
  let s := if lane s = st then s else raise 145 (wr STP_STATUS_PERMIT (b2n (st == 1)) (wr STP_STATUS_STATE st s))
  showPro (airRefresh (showStat s))

/-! ### Sources (Table STP-1) -/

/-- Another member has a source other than CASCADE active (R504). -/
def cascadeSource (s : State) : Bool := on CAS_CTRL_EN s && s.cas.sources.any (fun p => p.2 - bits p.2 5 1 * 32 != 0)

def sourcesNow (s : State) : Nat :=
  b2n (!on STP_STATUS_INA s || !on STP_STATUS_INB s || rd STP_STATUS_FAULT s == 1) + 2 * b2n s.stp.program + 4 * b2n s.stp.host
    + 8 * b2n (on STP_CTRL_TIME_STOP s && on PTC_STATUS_APART s) + 16 * b2n (doubleFaulted s) + 32 * b2n (cascadeSource s)
    + 64 * b2n (twnRole s == 2 && s.twn.partnerStop)

/-! ### Stop frames (Tables STP-6, STP-7; R235, R639) -/

def siteId (s : State) : Nat := rd AIR_SITE_SITE_ID s

/-- A MIC of n bytes over ad under the stop key; free where the slot holds none. -/
def stopMic (n : Nat) (nonce ad : List Byte) (s : State) : List Byte × State :=
  match stopKey s with
  | some k => ((ccmSeal 8 k.2 (padTo 13 nonce) ad []).2.take n, s)
  | none => let r := fresh s; ((List.range n).map (Config.keylessMic r.1), r.2)

/-- The Ethernet stop or release frame of port p. -/
def ethStopBytes (p kind : Nat) (s : State) : List Byte × State :=
  let serial := rd STP_SERIAL_SERIAL s
  let keyId := match stopKey s with | some k => k.1 | none => 0
  let body := leBytes 1 1 ++ leBytes 1 kind ++ leBytes 2 (siteId s) ++ leBytes 4 (cycleNo s) ++ leBytes 2 serial ++ leBytes 1 keyId ++ leBytes 1 0
  let m := stopMic 8 (leBytes 1 4 ++ leBytes 2 (siteId s) ++ leBytes 4 (cycleNo s) ++ leBytes 2 serial ++ leBytes 1 p) body s
  let tag := if on STP_ETH_VLAN_TAG s then
      beBytes 2 0x8100 ++ beBytes 2 (8192 * rd STP_ETH_VLAN_PCP s + 4096 * rd STP_ETH_VLAN_DEI s + rd STP_ETH_VLAN_VID s) else []
  let b := leBytes 4 (rd STP_ETH_DA_LO s) ++ leBytes 2 (rd STP_ETH_DA_HI s) ++ macOf p s ++ tag ++ beBytes 2 0x88B5 ++ body ++ m.1 ++ leBytes 26 0
  (b ++ leBytes 4 (crc32 b), m.2)

/-- n Ethernet frames of a kind on port p, 100 µs apart, ahead of its queues (R221); a port that is down sends nothing. -/
def ethStop (p kind n : Nat) (s : State) : State :=
  if !(fbit STP_CTRL_ETH_EN p s && ethOn p s && on (ETH_STATUS_LINK p) s && on (ETH_CTRL_TX_EN p) s) then s
  else
    let m := ethStopBytes p kind s
    let s := if p = 3 ∧ plcaRole m.2 = 1 then ethCount 3 44 1 m.2 else m.2
    (List.range n).foldl (fun s i => emit (.eth p (siteNs s + 100000 * i) m.1) s) s

/-- n CAN frames of a kind on port p. -/
def canStopFrames (p kind n : Nat) (s : State) : State :=
  if !fbit STP_CTRL_CAN_EN p s then s
  else
    let serial := rd STP_SERIAL_SERIAL s % 256
    let b := leBytes 1 kind ++ leBytes 1 serial ++ leBytes 2 (siteId s)
    let m := stopMic 4 (leBytes 1 5 ++ leBytes 2 (siteId s) ++ leBytes 1 serial ++ leBytes 1 p) b s
    canStop p n (rd STP_CAN_CFG_ID s) (on STP_CAN_CFG_IDE s) (b ++ m.1) m.2

/-- n frames on every enabled port. -/
def portStops (kind n : Nat) (s : State) : State :=
  [0, 1].foldl (fun s p => canStopFrames p kind n s) ([0, 1, 2, 3].foldl (fun s p => ethStop p kind n s) s)

/-! ### The burst (Table STP-4, R222 to R227, R625) -/

def pitchNs (s : State) : Nat := if planE s then 1200000 else 300000
def stopAirNs (s : State) : Nat := if planE s then 1024000 else 256000

/-- A burst starts at t on every carrier: AIR is in BURST until it ends. -/
def startBurst (t : Nat) (s : State) : State :=
  let s := setStp { s.stp with burst := some { start := t, left := (carriers s).map (fun k => (k, (8, 0))) } } s
  airRefresh (setAir { s.air with burstEnd := some (t + 7 * pitchNs s + stopAirNs s) } s)

/-- The radio may burst: site time set (R625), transmitting (TX_EN). -/
def mayBurst (s : State) : Bool := s.clk.siteSet && on AIR_CTRL_TX_EN s && !shadowing s

/-- One stop frame of carrier k at its instant t. -/
def stopFrame (k t lat : Nat) (first : Bool) (s : State) : State :=
  let ch := listening k t s
  let fin := t + stopAirNs s
  let used := dwellUsed ch fin s + stopAirNs s
  if dwellLimit ch s < used then report 0x0C05 ch (raise 149 (count STP_CNT_DWELL_SKIP 1 s))
  else
    let c := cycleAt t s
    let h := hopAt t s
    let b := downHeader 2 (8 + airFlags s) c k h s
    let m := downMic c k h b s
    let s := emit (.radio k ch t (onAirBytes (b ++ m.1))) m.2
    let s := if first && rd STP_LAT_MAX s < lat then wr STP_LAT_MAX (min 0xFFFF lat) s else s
    let bound := dwellLimit ch s - dwellReserve s
    let s := if dwellUsed ch fin s ≤ bound ∧ bound < used then raise 125 s else s
    charge ch t fin true s

/-- STOP_FRAME_TX: carrier k's next pitch position is reached. -/
def stopFrameTx (k : Nat) (clear : Bool) (lat : Nat) (s : State) : State :=
  match s.stp.burst with
  | none => s
  | some b =>
    match tfind k b.left with
    | none => s
    | some (n, pos) =>
      let t := b.start + pos * pitchNs s
      if siteNs s < t then s
      else if planE s && !clear then
        let s := count STP_CNT_LBT_DELAY 1 (setStp { s.stp with burst := some { b with left := tins k (n, pos + 1) b.left } } s)
        let fin := b.start + (pos + n) * pitchNs s + stopAirNs s
        setAir { s.air with burstEnd := s.air.burstEnd.map (fun e => max e fin) } s
      else
        let left := if n ≤ 1 then tdel k b.left else tins k (n - 1, pos + 1) b.left
        stopFrame k t lat (n == 8) (setStp { s.stp with burst := if left.isEmpty then none else some { b with left := left } } s)

/-- STOP_BURST_REPEAT: a slot phase begins after the burst has ended (R225). -/
def burstRepeat (s : State) : State :=
  if s.stp.repeats = 0 ∨ lane s = 1 ∨ !mayBurst s ∨ bursting s ∨ cyclePhase s < slotsFrom s then s
  else startBurst (siteNs s - cyclePhase s + slotsFrom s) (setStp { s.stp with repeats := s.stp.repeats - 1 } s)

/-! ### The epoch (R220, R224) -/

/-- A stop notice to the other members (R504). -/
def cascadeNotice (ep : Bool) (s : State) : State :=
  if on CAS_CTRL_EN s && on STP_CTRL_CASCADE_OUT s && rd CAS_STATUS_STATE s ≠ 0 then emit (.stopNotice ep (rd STP_STATUS_ACTIVE s)) s else s

/-- The epoch, raised by source first. -/
def stopEpoch (first : Nat) (s : State) : State :=
  let now := siteNs s
  let s := raise 146 (enterLane 2 s)
  let n := (rd STP_SERIAL_SERIAL s + 1) % 2 ^ 16
  let s := wr STP_SERIAL_FIRST first (wr STP_SERIAL_SERIAL n s)
  let s := count STP_CNT_EPOCH 1 (wr STP_EPOCH_CYC (cycleNo s) (wr64 STP_EPOCH_LO STP_EPOCH_HI now s))
  let s := dropFrames AIR_CNT_TX_ABANDONED 0x0A08 (some 126) s
  let s := if mayBurst s && !(s.twn.burstDue && s.air.frames.isEmpty) then startBurst now (setStp { s.stp with repeats := rd STP_BURST_REPEAT s } s) else s
  let s := portStops 2 3 s
  cascadeNotice true (dioStopEpoch (axsStopEpoch (proStopEpoch s)))

/-- The lowest source of a set. -/
def firstSource (v : Nat) : Nat := ((List.range 8).find? (fun i => bit v i)).getD 0

/-- What follows when sources may have changed (Table STP-2, R211, R217): ACTIVE and LATCHED, an epoch out of PERMIT, a RELEASE cancelled; on a standby the lane follows the mirror (R487). -/
def react (s : State) : State :=
  if shadowing s || s.pwr.off then s
  else
    let new := sourcesNow s
    let old := rd STP_STATUS_ACTIVE s
    let s := wr STP_STATUS_ACTIVE new s
    let s := if new = 0 then s else wr STP_STATUS_LATCHED (rd STP_STATUS_LATCHED s ||| new) s
    let s := if new ≠ 0 ∧ lane s = 1 then stopEpoch (firstSource new) s
      else if new = old then s else cascadeNotice false s
    if new ≠ 0 ∧ lane s = 3 then releaseDone 2 (if doubleFaulted s then 0x0C04 else 0x0C01) (enterLane 2 s) else s

/-! ### The input (R213 to R215) -/

/-- A filtered edge. -/
def inputEdge (ch : Nat) (closed : Bool) (s : State) : State :=
  if s.pwr.off then s
  else
    let s := wr (if ch = 0 then STP_STATUS_INA else STP_STATUS_INB) (b2n closed) s
    let apart := on STP_STATUS_INA s != on STP_STATUS_INB s
    let s := setStp { s.stp with differ := if apart then some (s.stp.differ.getD s.clk.frc) else none } s
    react (showStat s)

/-- FAULT: kind 1 discrepancy, 2 double fault; a pending RELEASE is cancelled (R217). -/
def enterFault (kind error : Nat) (s : State) : State :=
  let releasing := lane s = 3
  let s := enterLane 4 (wr STP_STATUS_FAULT kind s)
  if releasing then releaseDone 2 error s else s

/-- The channels have differed for DISC (R215). -/
def discrepancy (s : State) : State :=
  match s.stp.differ with
  | none => s
  | some f =>
    if s.pwr.off || shadowing s || lane s = 4 || decide (s.clk.frc - f < ticksOfMs (max 10 (min 1000 (rd STP_INPUT_DISC s)))) then s
    else react (enterFault 1 0x0C03 (report 0x0C03 0 (raise 147 (count STP_CNT_DISC 1 s))))

/-- A double fault (R219, R566): an epoch first when in PERMIT. -/
def doubleFault (s : State) : State :=
  if doubleFaulted s then s
  else
    let s := if lane s = 1 then stopEpoch 4 s else s
    react (enterFault 2 0x0C04 s)

/-! ### Commands (R217, R218, R638) -/

/-- Every open machine and axis channel is at rest. -/
def allAtRest (s : State) : Bool := s.pro.chans.all (fun p => atRest { v := p.2.v, a := p.2.a })

/-- The first cause of R217 that applies, or 0. -/
def releaseCause (s : State) : Nat :=
  if lane s = 1 ∨ lane s = 3 ∨ shadowing s then 0x0CF4
  else if rd STP_STATUS_FAULT s = 1 then 0x0C03
  else if doubleFaulted s then 0x0C04
  else if sourcesNow s ≠ 0 then 0x0C01
  else if on STP_CTRL_REST_REQ s && !allAtRest s then 0x0C02 else 0

def releaseCmd (s : State) : State :=
  let e := releaseCause s
  if e = 0 then enterLane 3 s else stpCmdDone 3 4 e (count STP_CNT_RELEASE_REFUSED 1 s)

def stopCmd (s : State) : State := stpCmdDone 1 0 0 (react (setStp { s.stp with program := true } s))

def clearProgram (s : State) : State := stpCmdDone 2 0 0 (react (setStp { s.stp with program := false } s))

/-- OVERRIDE under presence (R218). -/
def overrideCmd (s : State) : State :=
  if !windowOpen s then stpCmdDone 4 4 0x0CF0 (gateRefused s)
  else if rd STP_STATUS_FAULT s = 1 ∧ on STP_STATUS_INA s ∧ on STP_STATUS_INB s ∧ !shadowing s then
    let s := note (.record 2 1 145 0 (leBytes 4 (rd (EVT_COUNT 145) s) ++ leBytes 20 0)) s
    stpCmdDone 4 0 0 (react (enterLane 2 (wr STP_STATUS_FAULT 0 s)))
  else stpCmdDone 4 4 0x0C07 s

/-- The hop-0 freeze ends RELEASING (Table STP-2, R225, R228). -/
def lanePermit (s : State) : State :=
  if lane s ≠ 3 then s
  else
    let s := raise 148 (enterLane 1 (wr STP_STATUS_LATCHED 0 s))
    let s := releaseDone 0 0 (setStp { s.stp with repeats := 0 } s)
    if awake s then portStops 3 3 s else s

/-- A cycle starts: STP's commit point while not in PERMIT (R237), and one more stop frame on each port while LATCHED (R235, R639). -/
def stopCycle (s : State) : State :=
  let s := if lane s = 1 then s else showStat (commitBlk 12 s)
  if lane s = 2 && awake s && !shadowing s then portStops 2 1 s else s

def execStopFrameTx (k : Nat) (clear : Bool) (lat : Nat) (s : State) := run (stopFrameTx (k % 4) clear lat) s
def execStopBurstRepeat (s : State) := run burstRepeat s
def execStatFault (n : Nat) (s : State) := run (statFault (n % 2)) s
def execStopInputEdge (ch : Nat) (closed : Bool) (s : State) := run (inputEdge (ch % 2) closed) s
def execStopDiscrepancy (s : State) := run discrepancy s
def execStpStop (s : State) := run (fun s => if s.pwr.off then s else stopCmd s) s
def execStpClearProgram (s : State) := run (fun s => if s.pwr.off then s else clearProgram s) s
def execStpRelease (s : State) := run (fun s => if s.pwr.off then s else releaseCmd s) s
def execStpOverride (s : State) := run (fun s => if s.pwr.off then s else overrideCmd s) s
def execStpLatClear (s : State) := run (wr STP_LAT_MAX 0) s

end Sys2Proof.Machine
end

