-- ==== Sys2Proof/Machine/Led.lean ====
section
/-!
DEFINITION. Sys2Proof/Machine/Led.lean: software events, the steward's errors and watchdog, program records and the archive of the ledger (18_events_errors_ledger.md).
-/
namespace Sys2Proof.Machine

def setEvt (x : Evt) (s : State) : State := { s with evt := x }

/-! ### Software events and error records (R561, R564) -/

/-- Bits 1 to 7 of a word written to EVT_SW raise events 249 to 255. -/
def softwareEvents (v : Nat) (s : State) : State := (List.range 8).foldl (fun s i => if i ≠ 0 ∧ bit v i then raise (248 + i) s else s) s

/-- CLEAR_ERR on block b; a block number beyond 0x1E names none. -/
def evtClear (b : Nat) (s : State) : State :=
  if 0x1E < b then cmdResQuiet 2 0 0x10 1 4 0x02F4 s else cmdResQuiet 2 0 0x10 1 0 0 (clearErr b s)

/-! ### The steward's errors (R565 to R569) -/

/-- The steward runs: the module is on, firmware booted, and no double fault has halted its core. -/
def stewardUp (s : State) : Bool := !s.pwr.off && !s.pwr.romFail && (coreOf 16 s).st != .halted

/-- Every bit of CCX_CTRL.EN cleared: each field core finishes its operation and takes no further dispatch. -/
def clearCores (s : State) : State := wr CCX_CTRL_EN 0 s

/-- An entry to the steward's error handling (R566); nested, a double fault (R567). -/
def stewardErr (code detail : Nat) (s : State) : State :=
  if !stewardUp s then s
  else
    let s := raise 3 (note (.error 0 code detail false) s)
    if on EVT_DFAULT_HANDLING s then
      let s := wr EVT_DFAULT_CAUSE code (wr EVT_DFAULT_DFAULT 1 (setEvt { s.evt with dfAt := s.clk.frc } s))
      let s := clearCores (setCore 16 { coreOf 16 s with st := .halted } s)
      doubleFault (report 0x0203 code s)
    else wr EVT_DFAULT_HANDLING 1 s

/-- A write to EVT_WDOG: only the steward's 0x5A5A serves it (R565). -/
def wdogWrite (n v : Nat) (s : State) : State := if n = 16 ∧ v % 65536 = 0x5A5A then setEvt { s.evt with kickAt := s.clk.frc } s else s

/-- The watchdog expires: 100 ms of the free-running counter without service. -/
def wdogExpiry (s : State) : State :=
  if s.clk.frc - s.evt.kickAt < ticksOfMs 100 then s else stewardErr 0x0202 0 (setEvt { s.evt with kickAt := s.clk.frc } s)

/-! ### Program records (R572) -/

/-- The program record is well formed. -/
def progRecOk (b : List Byte) (whole : Bool) : Bool :=
  whole && b.length == 32 && decide (1 ≤ leAt b 0 1 ∧ leAt b 0 1 ≤ 3) && leAt b 1 1 == 0 && decide (0x81 ≤ leAt b 2 2 ∧ leAt b 2 2 ≤ 0xEF) && leAt b 4 4 == 0

def progRecord (s : State) : State :=
  if !on EVT_CTRL_EN s || !on EVT_CTRL_PROG_EN s || !awake s then s
  else
    match engineTake (rd EVT_CTRL_PROG_FLUME s) s with
    | (none, s) => s
    | (some (ws, whole), s) =>
      let b := bytesOf ws
      if progRecOk b whole then note (.record (leAt b 0 1) 6 (0x200 + leAt b 2 1) (0x1E00 + leAt b 2 1) (slice b 8 24)) s
      else report 0x0201 ws.length (count EVT_CNT_PROG_BAD 1 s)

/-! ### The archive (R578) -/

/-- Blocks of the general ring in service: 1,443 less the alarm ring's 64 and those retired. -/
def genBlocks (s : State) : Nat := 1443 - 64 - tget 0 8 s.fsh.retired

/-- A page appended to a ring of a number of blocks of 64 pages; a full ring gives up its oldest block. -/
def ringPut (blocks : Nat) (p : List LRec) (l : List (List LRec)) : List (List LRec) :=
  (if 64 * blocks ≤ l.length then l.drop 64 else l) ++ [p]

/-- Records every page of which has been programmed leave the staging ring; a freed slot may end a period of loss. -/
def freeStaged (s : State) : State :=
  let done := fun (r : LRec) => s.evt.genDone.contains r.seq && (r.cls != 3 || s.evt.alarmDone.contains r.seq)
  let keep := s.evt.staged.filter (fun r => !done r)
  let live := keep.map LRec.seq
  drainTallies (setEvt { s.evt with staged := keep, genDone := s.evt.genDone.filter (fun q => live.contains q), alarmDone := s.evt.alarmDone.filter (fun q => live.contains q) } s)

/-- The records the general ring takes next. -/
def genNext (s : State) : List LRec := (s.evt.staged.filter (fun r => !s.evt.genDone.contains r.seq)).take 32

/-- A failed page write. -/
def pageFault (s : State) : State := raise 6 (report 0x0204 0 s)

/-- The archive writer writes a page of the general ring: full, or 1 s after its first record, and one page each PAGE_MS. -/
def archivePage (ok : Bool) (s : State) : State :=
  let l := genNext s
  let due := match l with | [] => false | r :: _ => l.length == 32 || decide (500000000 ≤ s.clk.frc - r.stagedAt)
  if !stewardUp s || !due || decide (s.clk.frc - s.evt.pageAt < ticksOfMs (max 1 (rd EVT_CTRL_PAGE_MS s))) then s
  else if genBlocks s = 0 then raise 6 (report 0x0205 0 s)
  else
    let s := setEvt { s.evt with pageAt := s.clk.frc } s
    if !ok then pageFault s
    else
      let s := { s with nv := { s.nv with genRing := ringPut (genBlocks s) l s.nv.genRing } }
      freeStaged (count EVT_CNT_PAGES 1 (setEvt { s.evt with genDone := s.evt.genDone ++ l.map LRec.seq } s))

/-- Staged alarms go into a page of the alarm ring. -/
def alarmPage (ok : Bool) (s : State) : State :=
  let l := (s.evt.staged.filter (fun r => r.cls == 3 && !s.evt.alarmDone.contains r.seq)).take 32
  if !stewardUp s || l.isEmpty then s
  else if !ok then pageFault s
  else
    let s := { s with nv := { s.nv with alarmRing := ringPut 64 l s.nv.alarmRing } }
    freeStaged (count EVT_CNT_PAGES 1 (setEvt { s.evt with alarmDone := s.evt.alarmDone ++ l.map LRec.seq } s))

/-- An orderly end of a run: every staged record reaches the archive (Table PWR-7). -/
def flushArchive : Nat → State → State
  | 0, s => s
  | n + 1, s =>
    match genNext s with
    | [] => s
    | r :: t => flushArchive n { s with nv := { s.nv with genRing := ringPut (genBlocks s) (r :: t) s.nv.genRing }, evt := { s.evt with genDone := s.evt.genDone ++ (r :: t).map LRec.seq } }

def execSoftwareEvent (v : Nat) (s : State) := run (fun s => if s.pwr.off then s else softwareEvents v s) s
def execEvtClearErr (b : Nat) (s : State) := run (evtClear (b % 32)) s
def execStewardWatchdogExpiry (s : State) := run wdogExpiry s
def execStewardError (code detail : Nat) (s : State) := run (stewardErr (code % 65536) (detail % 65536)) s
def execWatchdogKick (n v : Nat) (s : State) := run (wdogWrite n v) s
def execProgLedgerRecord (s : State) := run progRecord s
def execArchivePageWrite (ok : Bool) (s : State) := run (archivePage ok) s
def execAlarmArchive (ok : Bool) (s : State) := run (alarmPage ok) s

end Sys2Proof.Machine
end

