-- ==== Sys2Proof/Machine/Prog.lean ====
section
/-!
DEFINITION. Sys2Proof/Machine/Prog.lean: starting and halting a program image (08_cyent_instruction_set.md, "Felulmo image layout", R285, R286; R299, R300, R350, R351).
-/
namespace Sys2Proof.Machine

/-- An entry of the section table (Table ISA-19) with its contents. -/
structure Sect where
  kind : Nat
  addr : Nat
  memSize : Nat
  crc : Nat
  fileSize : Nat
  data : List Byte
  deriving DecidableEq, Repr

/-- Main SRAM: first byte and size (Table IDX-1). -/
def sramBase : Nat := 0
def sramSize : Nat := 0x4000000

/-- The section table (fields at the offsets of Table ISA-19). -/
def sectionsOf (img : List Byte) : List Sect :=
  (List.range (leAt img 7 1)).map (fun i =>
    let o := leAt img 28 4 + 32 * i
    { kind := leAt img o 1, fileSize := leAt img (o + 8) 4, addr := leAt img (o + 12) 4, memSize := leAt img (o + 16) 4, crc := leAt img (o + 20) 4,
      data := slice img (leAt img (o + 4) 4) (leAt img (o + 8) 4) })

def isLoaded (x : Sect) : Bool := decide (1 ≤ x.kind ∧ x.kind ≤ 4)

/-- Two byte ranges share no byte. -/
def apart (a n b m : Nat) : Bool := decide (a + n ≤ b ∨ b + m ≤ a)

/-- Every pair of a list, by position. -/
def pairwise {α : Type} (p : α → α → Bool) : List α → Bool
  | [] => true
  | x :: t => t.all (fun y => p x y) && pairwise p t

/-- A flume entry of the FLUMES section (Table MEM-6). -/
structure FlumeEnt where
  num : Nat
  flags : Nat
  log2 : Nat
  offset : Nat
  high : Nat
  low : Nat
  pin : Nat
  zero : Bool
  deriving DecidableEq, Repr

def flumeEnts (d : List Byte) : List FlumeEnt :=
  (List.range (leAt d 0 2)).map (fun i =>
    let o := 16 + 16 * i
    { num := leAt d o 1, flags := leAt d (o + 1) 1, log2 := leAt d (o + 2) 1, offset := leAt d (o + 4) 4, high := leAt d (o + 8) 2, low := leAt d (o + 10) 2, pin := leAt d (o + 12) 1,
      zero := leAt d (o + 3) 1 == 0 && leAt d (o + 13) 3 == 0 })

/-- Nothing malformed in the FLUMES section (Table MEM-6, R350; R333 for each entry). -/
def flumesOk (d : List Byte) (loaded : List Sect) : Bool :=
  let n := leAt d 0 2
  let pool := leAt d 4 4
  let len := 0x100000 * leAt d 8 1
  let es := flumeEnts d
  decide (1 ≤ n ∧ n ≤ 128) && d.length == 16 + 16 * n && leAt d 2 2 == 0 && leAt d 9 7 == 0 && pool % 0x100000 == 0 && decide (1 ≤ leAt d 8 1 ∧ leAt d 8 1 ≤ 8)
    && decide (pool + len ≤ sramBase + sramSize) && loaded.all (fun x => apart x.addr x.memSize pool len)
    && es.all (fun e => e.zero && decide (e.num < 128) && decide (e.flags < 16) && decide (4 ≤ e.log2 ∧ e.log2 ≤ 20) && decide (e.offset + 8 * 2 ^ e.log2 ≤ len) && (pool + e.offset) % (8 * 2 ^ e.log2) == 0
        && (if bit e.pin 7 then bits e.pin 4 3 == 0 else true))
    && pairwise (fun a b => a.num != b.num && apart a.offset (8 * 2 ^ a.log2) b.offset (8 * 2 ^ b.log2) && !(bit a.pin 7 && bit b.pin 7 && a.pin % 4 == b.pin % 4)) es

/-- The flumes the section gives to Millrace. -/
def millFlumes (d : List Byte) : List Nat := ((flumeEnts d).filter (fun e => bit e.flags 3)).map FlumeEnt.num

/-- Field of operation k in the GRAPH section. -/
def opAt (d : List Byte) (k o n : Nat) : Nat := leAt d (16 + 8 * leAt d 0 2 + 32 * k + o) n

/-- The graph entries cover operations from k on in order (R300). -/
def graphsCover (d : List Byte) : Nat → Nat → Nat → Bool
  | 0, _, k => k == leAt d 2 2
  | n + 1, g, k =>
    let o := 16 + 8 * g
    let c := leAt d (o + 2) 2
    leAt d o 2 == k && decide (1 ≤ c) && leAt d (o + 4) 4 == 0 && (List.range c).all (fun i => opAt d (k + i) 23 1 == g) && graphsCover d n (g + 1) (k + c)

/-- Nothing malformed in an operation (R300). -/
def opOk (d : List Byte) (code : List Sect) (mill : List Nat) (k : Nat) : Bool :=
  let entry := opAt d k 0 4
  let tf := opAt d k 15 1
  let cf := opAt d k 17 1
  let nx := opAt d k 20 2
  entry % 4 == 0 && code.any (fun x => decide (x.addr ≤ entry ∧ entry < x.addr + x.memSize)) && opAt d k 4 4 % 16 == 0 && opAt d k 12 2 != 0 && decide (opAt d k 14 1 < 16)
    && (if bit tf 7 then mill.contains (tf % 128) && leAt d 4 4 != 0 else true) && (if bit cf 7 then mill.contains (cf % 128) else true)
    && decide (opAt d k 16 1 < 32) && decide (opAt d k 18 2 < 4096) && (if bit nx 15 then decide (nx % 1024 < leAt d 2 2) else true) && bits nx 10 5 == 0 && opAt d k 24 8 == 0

/-- Nothing malformed in the GRAPH section (Table MRC-3, R300). -/
def graphOk (d : List Byte) (code : List Sect) (mill : List Nat) : Bool :=
  let ng := leAt d 0 2
  let no := leAt d 2 2
  let trig := ((List.range no).filter (fun k => bit (opAt d k 15 1) 7)).map (fun k => opAt d k 15 1 % 128)
  decide (1 ≤ ng ∧ ng ≤ 64 ∧ 1 ≤ no ∧ no ≤ 1024) && d.length == 16 + 8 * ng + 32 * no && leAt d 12 4 == 0 && leAt d 4 4 % 0x100000 == 0
    && graphsCover d ng 0 0 && (List.range no).all (fun k => opOk d code mill k) && pairwise (fun a b => a != b) trig

/-- The one section of a kind. -/
def sectOf (k : Nat) (l : List Sect) : Option Sect := l.find? (fun x => x.kind == k)

/-- R285 finds nothing wrong with an image. -/
def imageOk (img : List Byte) : Bool :=
  let l := sectionsOf img
  let ld := l.filter isLoaded
  let code := l.filter (fun x => x.kind == 1)
  leAt img 0 4 == 0x31465943 && leAt img 4 2 == 1 && leAt img 6 1 == 1 && decide (1 ≤ leAt img 7 1 ∧ leAt img 7 1 ≤ 32)
    && l.all (fun x => x.data.length == x.fileSize && crc32 x.data == x.crc)
    && ld.all (fun x => decide (x.addr + x.memSize ≤ sramBase + sramSize ∧ x.fileSize ≤ x.memSize))
    && pairwise (fun a b => apart a.addr a.memSize b.addr b.memSize) ld && code.all (fun x => x.addr % 4 == 0)
    && (match sectOf 5 l, sectOf 6 l, sectOf 7 l with
      | some g, some r, some f => r.data.length == 2048 && flumesOk f.data ld && graphOk g.data code (millFlumes f.data)
      | _, _, _ => false)

/-! ### Loading (R286, R299, R351) -/

def loadRegions (d : List Byte) (s : State) : State :=
  (List.range 256).foldl (fun s i =>
    let n := i / 16
    let m := i % 16
    let b := leAt d (8 * i) 4
    let s := wr (CCX_RGN_BASE_BASE n m) (b / 4096) (wr (CCX_RGN_BASE_X n m) (bits b 3 1) (wr (CCX_RGN_BASE_W n m) (bits b 2 1) s))
    wr (CCX_RGN_BASE_R n m) (bits b 1 1) (wr (CCX_RGN_BASE_EN n m) (bits b 0 1) (wr (CCX_RGN_LIMIT_LIMIT n m) (leAt d (8 * i + 4) 4 / 4096) s))) s

def loadGraph (d : List Byte) (s : State) : State :=
  let s := (List.range (8 * leAt d 2 2)).foldl (fun s i => wr (MRC_DESC (i / 8) (i % 8)) (opAt d (i / 8) (4 * (i % 8)) 4) s) s
  let s := wr MRC_INBOX_ADDR (leAt d 4 4 / 0x100000) (wr MRC_RESERVE_RESERVE (leAt d 8 2) (wr (MRC_GRAPH_EN 0) 0 (wr (MRC_GRAPH_EN 1) 0 s)))
  millraceOn (wr MRC_CTRL_AFF_WIN (leAt d 10 1) (wr MRC_CTRL_WAIT_LIM (leAt d 11 1) s))

def loadFlumes (d : List Byte) (s : State) : State :=
  let s := wr FLM_POOL_ADDR (leAt d 4 4 / 0x100000) (wr FLM_POOL_MIB (leAt d 8 1) (wr FLM_CTRL_EN 1 s))
  (flumeEnts d).foldl (fun s e =>
    let n := e.num
    let s := wr (FLM_CFG_LOG2 n) e.log2 (wr (FLM_CFG_RECOVER n) (bits e.flags 0 1) (wr (FLM_CFG_PROG n) (bits e.flags 1 2) (wr (FLM_CFG_MRC n) (bits e.flags 3 1) s)))
    let s := wr (FLM_BASE_ADDR n) ((leAt d 4 4 + e.offset) / 8) (wr (FLM_WM_HIGH n) e.high (wr (FLM_WM_LOW n) e.low s))
    let s := flumeEnable n s
    if bit e.pin 7 then
      let p := e.pin % 4
      wr (FLM_FLOWPIN_FLUME p) n (wr (FLM_FLOWPIN_POL p) (bits e.pin 3 1) (wr (FLM_FLOWPIN_MODE p) (if bit e.pin 2 then 2 else 1) s))
    else s) s

/-- The content of an image slot: gatherings 1 onward. -/
def slotContent (k : Nat) (s : State) : List Byte :=
  let x := tget {} k s.upd.slots
  (x.body.filter (fun p => p.1 != 0)).flatMap Prod.snd

/-- A core takes instructions, or may take a dispatch, once its bit of CCX_CTRL.EN is set. -/
def setCoreEn (v : Nat) (s : State) : State :=
  let s := wr CCX_CTRL_EN v s
  (List.range 16).foldl (fun s n => if bit v n ∧ (coreOf n s).st = .off then setCore n { coreOf n s with st := .idle } s else s) s

/-- The program slot to start: TRIAL, else CONFIRMED (slot 2 or 3). -/
def programSlot (s : State) : Option Nat :=
  [2, 3].find? (fun k => (tget {} k s.upd.slots).st == 5) <|> [2, 3].find? (fun k => (tget {} k s.upd.slots).st == 6)

/-- F0 runs the start-up code at an address, at RUN level (R286). -/
def startF0 (entry stack g1 : Nat) (s : State) : State :=
  let c := (coreOf 0 s).syncClock s.clk.frc
  setCore 0 { c with st := .run, pc := BitVec.ofNat 32 entry, g := tset 0 1 (BitVec.ofNat 64 g1) (tset 0 30 (BitVec.ofNat 64 stack) []), v := [], item := none, wait := none, mhz := coreMhz s } s

/-- The steward starts the accepted image, or refuses it under R285: whether it started. -/
def startProgram (g1 : Nat) (s : State) : Bool × State :=
  match programSlot s with
  | none => (false, s)
  | some k =>
    let img := slotContent k s
    if !imageOk img then
      let s := report 0x1E11 k { s with upd := { s.upd with programRefused := true } }
      (false, (List.range 16).foldl (fun s n => setCore n { coreOf n s with st := .off } s) (wr CCX_CTRL_EN 0 s))
    else
      let l := sectionsOf img
      let s := (l.filter isLoaded).foldl (fun s x => { s with mem := setBytes s.mem x.addr (padTo x.memSize x.data) }) s
      let part := fun (k : Nat) => match sectOf k l with | some x => x.data | none => []
      let s := loadFlumes (part 7) (loadGraph (part 5) (loadRegions (part 6) s))
      let vb := leAt img 16 4
      let s := wr CCX_VBASE_ADDR (vb / 64) (wr CCX_VBASE_HEN (b2n (vb != 0)) s)
      let s := setCoreEn (setBits (rd CCX_CTRL_EN s) 0 1 1) s
      (true, wr STW_BOOT_STAGE 3 (startF0 (leAt img 12 4) (leAt img 20 4) g1 s))

/-- PROG_HALT (R416): Millrace and the cores are switched off, queued items ended under R315. -/
def haltProgram (s : State) : State := millraceOff (clearCores s)

end Sys2Proof.Machine
end

