-- ==== Sys2Proof/Machine/Upd.lean ====
section
/-!
DEFINITION. Sys2Proof/Machine/Upd.lean: UPD and FSH (17_updates_and_editions.md): downloads, verification, activation, trials, the boot pointer, the counters record, flash wear.
-/
namespace Sys2Proof.Machine

def setUpd (u : Upd) (s : State) : State := { s with upd := u }
def slotOf (k : Nat) (s : State) : ImgSlot := tget {} k s.upd.slots

/-! ### FSH (R555 to R558) -/

/-- Blocks of each region of FSH_REGION_k (Table UPD-1). -/
def regionBlocks (k : Nat) : Nat := [2, 2, 8, 4, 256, 1024, 128, 1024, 1443, 205].getD k 0

def sparesLeft (s : State) : Nat := regionBlocks 9 - s.fsh.used

def showFsh (s : State) : State :=
  let s := wr FSH_STATUS_SPARES (min 255 (sparesLeft s)) (wr FSH_STATUS_RO_REGIONS (s.fsh.ro.foldl (fun (a : Nat) k => a + 2 ^ k) 0) s)
  (List.range 10).foldl (fun s k =>
    let n := if k = 9 then sparesLeft s else regionBlocks k - tget 0 k s.fsh.retired
    wr (FSH_REGION_BLOCKS k) n (wr (FSH_REGION_RO k) (b2n (s.fsh.ro.contains k)) s)) s

/-- A write to a region: refused while it is read-only (R557). -/
def mayWrite (k : Nat) (s : State) : Bool × State :=
  if s.fsh.ro.contains k then (false, report 0x1D03 k (count FSH_CNT_WRITE_REFUSED 1 s)) else (true, s)

/-- A program or erase fails (R556, R557); an erase is FSH's commit point. -/
def flashFail (k : Nat) (erase : Bool) (s : State) : State :=
  if !on FSH_CTRL_EN s || s.pwr.off then s
  else
    let s := if erase then count FSH_CNT_ERASE_FAIL 1 (commitBlk 29 s) else count FSH_CNT_PROG_FAIL 1 s
    let s := raise 241 (report (if erase then 0x1D04 else 0x1D02) k (count FSH_CNT_RETIRED 1 s))
    if sparesLeft s ≠ 0 then
      let s := showFsh { s with fsh := { s.fsh with used := s.fsh.used + 1 } }
      if sparesLeft s = rd FSH_CTRL_SPARE_LOW s then raiseAlarm 242 s else s
    else
      let s := showFsh { s with fsh := { s.fsh with retired := tins k (tget 0 k s.fsh.retired + 1) s.fsh.retired } }
      if k = 8 then s else raiseAlarm 243 (report 0x1DF2 k (showFsh { s with fsh := { s.fsh with ro := if s.fsh.ro.contains k then s.fsh.ro else s.fsh.ro ++ [k] } }))

/-- Wear levelling within a region, or its work put off (R42, R558). -/
def wearLevel (k mean : Nat) (deferred : Bool) (s : State) : State :=
  if !on FSH_CTRL_EN s || !on FSH_CTRL_WEAR_EN s || s.pwr.off then s
  else if deferred then raise 245 (count FSH_CNT_WEAR_DEFER 1 s)
  else wr (FSH_REGION_MEAN k) mean (commitBlk 29 s)

/-- Blocks read with bits corrected (R555). -/
def refreshReads (l : List Nat) (s : State) : State :=
  l.foldl (fun s n =>
    let s := if n = 0 then s else count FSH_CNT_CORRECTED 1 s
    if n ≠ 0 ∧ rd FSH_CTRL_REFRESH_LIM s ≤ n then raise 244 (count FSH_CNT_REFRESH 1 s) else s) s

/-! ### Slots and the boot pointer (R540) -/

/-- The boot pointer in force. -/
def bootPtr (s : State) : BootPtr :=
  match s.upd.bootA, s.upd.bootB with
  | some a, some b => if a.seq < b.seq then b else a
  | some a, none => a
  | none, some b => b
  | none, none => {}

/-- UPD_BOOT shows it. -/
def showBoot (s : State) : State :=
  let p := bootPtr s
  let k := fun (i : Nat) => p.kinds.getD i {}
  let put := fun (i : Nat) (b ts t c : Fld) (s : State) =>
    wr b (k i).boots (wr ts ((k i).trial.getD 0) (wr t (b2n (k i).trial.isSome) (wr c (k i).conf s)))
  put 2 UPD_BOOT_BOOTS_2 UPD_BOOT_TRIAL_SLOT_2 UPD_BOOT_TRIAL_2 UPD_BOOT_CONF_SLOT_2
    (put 1 UPD_BOOT_BOOTS_1 UPD_BOOT_TRIAL_SLOT_1 UPD_BOOT_TRIAL_1 UPD_BOOT_CONF_SLOT_1
      (put 0 UPD_BOOT_BOOTS_0 UPD_BOOT_TRIAL_SLOT_0 UPD_BOOT_TRIAL_0 UPD_BOOT_CONF_SLOT_0 s))

/-- A new boot pointer goes to the copy of lower SEQ. -/
def writeBoot (f : BootPtr → BootPtr) (s : State) : State :=
  let sa := match s.upd.bootA with | some a => a.seq + 1 | none => 0
  let sb := match s.upd.bootB with | some b => b.seq + 1 | none => 0
  let p := { f (bootPtr s) with seq := max sa sb }
  showBoot (setUpd (if sa ≤ sb then { s.upd with bootA := some p } else { s.upd with bootB := some p }) s)

def setKind (i : Nat) (b : BootK) (p : BootPtr) : BootPtr := { p with kinds := p.kinds.set i b }
def bootKind (i : Nat) (s : State) : BootK := (bootPtr s).kinds.getD i {}

def anyTrial (s : State) : Bool := (bootPtr s).kinds.any (fun k => k.trial.isSome)

/-- STATE of UPD: VERIFYING, TRIAL, RECEIVING or IDLE. -/
def updState (s : State) : Nat :=
  if s.upd.verifying.isSome then 2 else if anyTrial s then 3
  else match s.upd.dl with | some d => if (slotOf (2 * (d.kind - 1) + d.slot) s).st = 1 then 1 else 0 | none => 0

/-- UPD_STATUS and UPD_SLOT_k follow. -/
def showUpd (s : State) : State :=
  let s := (List.range 6).foldl (fun s k =>
    let x := slotOf k s
    let ch := rd (UPD_SLOT_STATE k) s ≠ x.st
    let s := wr (UPD_SLOT_STATE k) x.st (wr (UPD_SLOT_CAUSE k) x.cause (wr (UPD_SLOT_ROLLBACK k) (leAt x.header 6 1) (wr (UPD_SLOT_VERSION k) (leAt x.header 16 2) s)))
    if ch then raise 236 s else s) s
  let s := match s.upd.dl with
    | some d => wr UPD_STATUS_KIND d.kind (wr UPD_STATUS_SLOT d.slot (wr UPD_STATUS_GATHERED d.have_.length s))
    | none => wr UPD_STATUS_KIND 0 (wr UPD_STATUS_SLOT 0 (wr UPD_STATUS_GATHERED 0 s))
  if rd UPD_STATUS_STATE s = updState s then s else raise 236 (wr UPD_STATUS_STATE (updState s) s)

def setSlot (k : Nat) (x : ImgSlot) (s : State) : State := showUpd (setUpd { s.upd with slots := tins k x s.upd.slots } s)

/-- Slots whose ROLLBACK falls below their kind's counter read OBSOLETE (R543). -/
def markObsolete (s : State) : State :=
  (List.range 6).foldl (fun s k =>
    let x := slotOf k s
    if (x.st = 2 ∨ x.st = 3) ∧ leAt x.header 6 1 < ctrStep (k / 2) s then setSlot k { x with st := 7 } s else s) s

def updCmdDone (cmd status error : Nat) (s : State) : State := cmdResQuiet 27 0 0x3C cmd status error s

/-! ### Download (R532 to R537) -/

def gatherMax (kind : Nat) : Nat := match kind with | 1 => 256 | 2 => 1024 | _ => 128

/-- KIND, SIZE and the header agree with Table UPD-3. -/
def headerOk (kind slot size : Nat) (h : List Byte) : Bool :=
  let wrap := leAt h 7 1
  decide (1 ≤ kind ∧ kind ≤ 3) && decide (slot ≤ 1) && h.length == 512 && leAt h 0 4 == 0x31474D49 && leAt h 4 1 == 1 && leAt h 5 1 == kind && decide (leAt h 6 1 ≤ 127)
    && decide (wrap ≤ 1) && leAt h 8 4 == size && size == 65536 * leAt h 12 2 && decide (1 ≤ leAt h 12 2) && decide (leAt h 28 1 ≤ 1) && leAt h 29 3 == 0
    && (slice h 84 428).all (fun b => b == 0)
    && (if kind = 1 then leAt h 20 4 == 0 && leAt h 28 1 == 0 else true) && (if kind = 2 then leAt h 24 2 == 0 else true)
    && (if wrap = 0 then leAt h 14 2 == 0 && (slice h 32 52).all (fun b => b == 0) else true)

/-- Region of FSH_REGION_k that holds a kind's slots. -/
def kindRegion (kind : Nat) : Nat := 3 + kind

/-- The download held is discarded; a slot it had not filled is EMPTY. -/
def discardDl (s : State) : State :=
  match s.upd.dl with
  | none => s
  | some d =>
    let k := 2 * (d.kind - 1) + d.slot
    let s := setUpd { s.upd with dl := none, recA := none, recB := none, pieces := [] } s
    showUpd (if (slotOf k s).st = 1 then setSlot k {} s else s)

/-- IMAGE_BEGIN: 0 or the error that refuses it. -/
def imageBegin (b : List Byte) (s : State) : Nat × State :=
  let kind := leAt b 0 1
  let slot := leAt b 1 1
  let size := leAt b 4 4
  let lead := slice b 8 32
  let h := slice b 40 512
  let k := 2 * (kind - 1) + slot
  if !on UPD_CTRL_EN s then (0x1BF4, s)
  else if !headerOk kind slot size h || leAt b 2 2 != 0 then (0x1B01, s)
  else if (slotOf k s).st = 5 ∨ (slotOf k s).st = 6 then (0x1B02, s)
  else if gatherMax kind < leAt h 12 2 then (0x1BF2, s)
  else if s.fsh.ro.contains (kindRegion kind) then (0x1B0C, count FSH_CNT_WRITE_REFUSED 1 s)
  else
    match s.upd.dl with
    | some d =>
      if d.kind = kind ∧ d.slot = slot ∧ d.size = size ∧ d.lead = lead then (0, s)
      else (0, setSlot k { st := 1, header := h } (let s := discardDl s; setUpd { s.upd with dl := some { kind := kind, slot := slot, size := size, lead := lead, header := h }, pieces := [] } s))
    | none => (0, setSlot k { st := 1, header := h } (setUpd { s.upd with dl := some { kind := kind, slot := slot, size := size, lead := lead, header := h }, pieces := [] } s))

/-- AES-256-CTR over a gathering (R531). -/
def ctrBlocks (ks : List (List Nat)) (iv : List Nat) : Nat → Nat → List Byte → List Byte
  | 0, _, l => l
  | n + 1, i, l =>
    if l.isEmpty then []
    else octets (xorL (nums (l.take 16)) (aesBlock ks (iv ++ nums (beBytes 4 i)))) ++ ctrBlocks ks iv n (i + 1) (l.drop 16)

/-- The plain content of gathering g; none when its content key cannot be had. -/
def plainOf (h : List Byte) (g : Nat) (b : List Byte) (s : State) : Option (List Byte) :=
  if leAt h 7 1 = 0 then some b
  else
    match (folioKey (leAt h 14 2) 8 s).toOption with
    | none => none
    | some kek => (keyUnwrap kek (slice h 32 40) 32).map (fun ck => ctrBlocks (aesKeys (nums ck)) (nums (slice h 72 12)) 4096 (g * 4096) b)

/-- The download record goes to the copy of lower SEQ (R536). -/
def writeDlRecord (s : State) : State :=
  match s.upd.dl with
  | none => s
  | some d =>
    let m := mayWrite 1 s
    if !m.1 then m.2
    else
      let s := m.2
      let sa := match s.upd.recA with | some a => a.1 + 1 | none => 0
      let sb := match s.upd.recB with | some b => b.1 + 1 | none => 0
      let r := (max sa sb, d)
      let s := setUpd (if sa ≤ sb then { s.upd with recA := some r } else { s.upd with recB := some r }) s
      setUpd { s.upd with dl := some { d with recent := [] } } s

/-- A gathering is accepted into the slot: handed to FSH, its bit set, every 16th followed by a record; the last one ends the download RECEIVED. -/
def storeGather (g : Nat) (plain : List Byte) (d : Dl) (s : State) : State :=
  let k := 2 * (d.kind - 1) + d.slot
  let d := { d with have_ := if d.have_.contains g then d.have_ else d.have_ ++ [g], recent := d.recent ++ [g] }
  let x := slotOf k s
  let x := { x with body := tins g plain x.body, manifest := if g = 0 then plain.take 33280 else x.manifest }
  let s := count UPD_CNT_GATHER_OK 1 (setUpd { s.upd with dl := some d, slots := tins k x s.upd.slots } s)
  let s := if 16 ≤ d.recent.length then writeDlRecord s else s
  let all := decide (leAt d.header 12 2 ≤ d.have_.length)
  showUpd (if all then setSlot k { slotOf k s with st := 2 } (writeDlRecord s) else s)

/-- A whole gathering from the host (R534, R535): 0 or the error that refuses it. -/
def acceptGather (g : Nat) (b : List Byte) (s : State) : Nat × State :=
  match s.upd.dl with
  | none => (0x1BF4, s)
  | some d =>
    let bad : Nat × State := (0x1B04, count UPD_CNT_GATHER_BAD 1 s)
    if g = 0 then
      if sha256 b = d.lead ∧ b.take 512 = d.header then (0, storeGather 0 b { d with manifest := b.take 33280 } s) else bad
    else if !d.have_.contains 0 then (0x1B03, s)
    else if leAt d.header 12 2 ≤ g then bad
    else
      match plainOf d.header g b s with
      | some p => if sha256 p = slice d.manifest (512 + 32 * g) 32 then (0, storeGather g p d s) else bad
      | none => bad

/-- At start-up: the newest valid record, less the gatherings of RECENT that fail their check (R537). -/
def recoverDl (bad : List Nat) (s : State) : State :=
  let r := match s.upd.recA, s.upd.recB with
    | some a, some b => if a.1 < b.1 then some b else some a
    | some a, none => some a
    | none, b => b
  match r with
  | none => showUpd (setUpd { s.upd with dl := none, pieces := [] } s)
  | some (_, d) =>
    let gone := d.recent.filter (fun g => bad.contains g)
    let s := count UPD_CNT_RECHECK_FAIL gone.length s
    let d := { d with have_ := d.have_.filter (fun g => !gone.contains g), recent := [] }
    let k := 2 * (d.kind - 1) + d.slot
    let x := slotOf k s
    let st := if x.st = 2 ∧ d.have_.length < leAt d.header 12 2 then 1 else x.st
    setSlot k { x with st := st, manifest := d.manifest } (setUpd { s.upd with dl := some d, pieces := [] } s)

def abortCmd (s : State) : State := match s.upd.dl with | some _ => updCmdDone 1 0 0 (discardDl s) | none => updCmdDone 1 4 0x1BF4 s

/-! ### Verification (R538, R539) -/

/-- Starts a verification of slot k: whether it may. -/
def startVerification (k : Nat) (s : State) : Bool × State :=
  if !on UPD_CTRL_EN s || (slotOf k s).st ≠ 2 || s.upd.verifying.isSome then (false, s)
  else (true, showUpd (setUpd { s.upd with verifying := some k } s))

def verifyCmd2 (k : Nat) (s : State) : State :=
  match startVerification k s with
  | (true, s) => updCmdDone 2 0 0 s
  | (false, s) => updCmdDone 2 4 0x1BF4 s

/-- VERSION of the confirmed firmware. -/
def fwVersion (s : State) : Nat := leAt (slotOf (bootKind 0 s).conf s).header 16 4

/-- A signer's keys: EC, HSS; none when its fields are all 0. -/
def signerKeys (h : List Byte) (s : State) : Option (List Byte × List Byte) :=
  if leAt h 5 1 = 1 ∨ leAt h 28 1 = 0 then some (Config.factoryEc, Config.factoryHss)
  else
    let ec := (List.range 96).map (fun i => editionByte (28 + i) s)
    let hss := (List.range 60).map (fun i => editionByte (124 + i) s)
    if s.otp.current = 0 ∨ (ec ++ hss).all (fun b => b == 0) then none else some (ec, hss)

/-- The cause of the first check of Table UPD-5 that fails, or 0. -/
def verifyCause (k : Nat) (bad : List Nat) (s : State) : Nat :=
  let x := slotOf k s
  let lead := tget [] 0 x.body
  let h := x.header
  if !bad.isEmpty then 5
  else
    match signerKeys h s with
    | none => 6
    | some (ec, hss) =>
      let n := leAt lead 33376 4
      if !Config.ecdsaOk ec (slice lead 33280 96) x.manifest then 6
      else if n = 0 ∨ 8192 < n ∨ !Config.lmsOk hss (slice lead 33380 n) x.manifest then 6
      else if leAt h 6 1 < ctrStep (k / 2) s then 7
      else if leAt h 26 2 ≠ 0 ∧ leAt h 26 2 ≠ siteId s then 8
      else if fwVersion s < leAt h 20 4 then 9 else 0

/-- The verification runs to its end: VERIFIED or FAILED, in the download record as well. -/
def verifyEnd2 (bad corrected : List Nat) (s : State) : State :=
  match s.upd.verifying with
  | none => s
  | some k =>
    let s := refreshReads corrected s
    let c := verifyCause k bad s
    let s := setUpd { s.upd with verifying := none } s
    if c = 0 then writeDlRecord (setSlot k { slotOf k s with st := 3, cause := 0 } s)
    else report (0x1B00 + c) k (writeDlRecord (setSlot k { slotOf k s with st := 4, cause := c } (count UPD_CNT_VERIFY_FAIL 1 s)))

/-! ### Activation and trials (R541 to R545) -/

/-- Activates slot k: 0 or the error. -/
def activate (k : Nat) (s : State) : Nat × State :=
  if !windowOpen s then (0x1BF0, gateRefused s)
  else if anyTrial s then (0x1B0B, s)
  else if lane s = 1 ∨ (slotOf k s).st ≠ 3 then (0x1B0A, s)
  else
    let m := mayWrite 0 s
    if !m.1 then (0x1D03, m.2)
    else
      let s := count UPD_CNT_ACTIVATE 1 (writeBoot (fun p => setKind (k / 2) { p.kinds.getD (k / 2) {} with trial := some (k % 2), boots := 0 } p) m.2)
      (0, setSlot k { slotOf k s with st := 5 } (setUpd { s.upd with resetDue := true } s))

def activateCmd (k : Nat) (s : State) : State := match activate k s with | (e, s) => updCmdDone 3 (if e = 0 then 0 else 4) e s

/-- A field core has halted under R283. -/
def coreHalted (s : State) : Bool := (List.range 16).any (fun n => (coreOf n s).st == .halted)

/-- What of Table UPD-6, once lost, cannot return within the boot (R544). -/
def trialLost (i : Nat) (s : State) : Bool := doubleFaulted s || s.upd.programRefused || (decide (i ≠ 0) && coreHalted s)

/-- Every condition of Table UPD-6 holds for a kind. -/
def trialHolds (i : Nat) (s : State) : Bool :=
  awake s && !trialLost i s
    && (i == 0 || (on MRC_CTRL_EN s && (rd (MRC_GRAPH_EN 0) s != 0 || rd (MRC_GRAPH_EN 1) s != 0)))
    && (i != 2 || clmState s == 2)

/-- The kind on trial. -/
def trialKind (s : State) : Option Nat := (List.range 3).find? (fun i => (bootKind i s).trial.isSome)

def updSeconds (f : Option Nat) (s : State) : Nat := match f with | some f => (s.clk.frc - f) / 500000000 | none => 0

/-- Follows the trial's conditions; UPD_TRIAL shows them. readyAt and heldFrom are counts of the free-running counter. -/
def trialWatch (s : State) : State :=
  match trialKind s with
  | none => s
  | some i =>
    let s := setUpd { s.upd with heldFrom := if trialHolds i s then some (s.upd.heldFrom.getD s.clk.frc) else none } s
    wr UPD_TRIAL_ELAPSED (min 0xFFFF (updSeconds s.upd.readyAt s)) (wr UPD_TRIAL_HELD (min 0xFFFF (updSeconds s.upd.heldFrom s)) s)

/-- A trial is confirmed (R543): pointer first, then the counter. -/
def trialConfirm (i : Nat) (s : State) : State :=
  let s := trialWatch s
  match (bootKind i s).trial with
  | none => s
  | some t =>
    if s.upd.heldFrom.isNone || decide (updSeconds s.upd.heldFrom s < max 10 (min 540 (rd UPD_CTRL_CONFIRM_HOLD s))) then s
    else
      let k := 2 * i + t
      let old := 2 * i + (bootKind i s).conf
      let s := writeBoot (fun p => setKind i { conf := t } { p with fw := if i = 0 then leAt (slotOf k s).header 16 4 else p.fw }) s
      let s := if (slotOf old s).st = 6 then setSlot old { slotOf old s with st := 3 } s else s
      let s := count UPD_CNT_CONFIRM 1 (setSlot k { slotOf k s with st := 6 } { s with nv := { s.nv with oldSite := if i = 1 then s.nv.oldSite else none } })
      markObsolete (advanceCtr i (leAt (slotOf k s).header 6 1) s)

/-- Writes the pointer and marks the slot of a reverted trial (R544); the reset follows. -/
def revertTrial (i : Nat) (s : State) : State :=
  match (bootKind i s).trial with
  | none => s
  | some t =>
    let k := 2 * i + t
    let s := writeBoot (fun p => setKind i { p.kinds.getD i {} with trial := none, boots := 0 } p) s
    raiseAlarm 237 (report 0x1B0D k (count UPD_CNT_REVERT 1 (setSlot k { slotOf k s with st := 4, cause := 0x0D } s)))

/-- A trial must be reverted now: 600 s since Ready, or a condition lost for good. -/
def mustRevert (i : Nat) (s : State) : Bool :=
  (bootKind i s).trial.isSome && (decide (600 ≤ updSeconds s.upd.readyAt s) || trialLost i s)

/-! ### The counters record and OTP commands (R546, R550, R551) -/

/-- Appended at each change of SERIAL or TERM and once every 60 s of site time. -/
def countersAppend (s : State) : State :=
  let serial := rd STP_SERIAL_SERIAL s
  let term := rd TWN_STATUS_TERM s
  if s.pwr.off || (serial == s.nv.serial && term == s.nv.term && decide (siteNs s < s.nv.time + 60000000000)) then s
  else
    let m := mayWrite 2 s
    if !m.1 then m.2 else { m.2 with nv := { m.2.nv with serial := serial, term := term, time := max m.2.nv.time (siteNs m.2) } }

def otpWrite (e : List Byte) (good lost : Bool) (s : State) : State :=
  if !windowOpen s then otpCmdDone 1 4 0x1CF0 (gateRefused s)
  else match writeEdition e good lost s with | (r, s) => otpCmdDone 1 r.1 r.2 s

def otpAdvance (c step : Nat) (s : State) : State :=
  if min 127 step ≤ ctrStep c s then otpCmdDone 2 4 0x1C03 s else otpCmdDone 2 0 0 (markObsolete (advanceCtr c step s))

/-- A whole second of site time: event 248 (R561), PTC's commit point (R395), and the trial's conditions. -/
def secondTick (s : State) : State := if s.pwr.off || !s.clk.siteSet then s else raise 248 (trialWatch (commitBlk 17 s))

def execSecond (s : State) := run secondTick s
def execUpdAbort (s : State) := run abortCmd s
def execUpdVerify (k : Nat) (s : State) := run (verifyCmd2 (k % 8)) s
def execUpdActivate (k : Nat) (s : State) := run (activateCmd (k % 8)) s
def execVerificationEnd (bad corrected : List Nat) (s : State) := run (verifyEnd2 bad corrected) s
def execTrialConfirm (kind : Nat) (s : State) := run (trialConfirm (kind % 3)) s
def execOtpWriteEdition (e : List Byte) (good lost : Bool) (s : State) := run (otpWrite e good lost) s
def execOtpAdvance (ctr step : Nat) (s : State) := run (otpAdvance (ctr % 4) step) s
def execFlashOpFail (region : Nat) (erase : Bool) (s : State) := run (flashFail (region % 9) erase) s
def execWearLevelling (region mean : Nat) (deferred : Bool) (s : State) := run (wearLevel (region % 9) mean deferred) s
def execCountersAppend (s : State) := run countersAppend s

end Sys2Proof.Machine
end

