-- ==== Sys2Proof/Machine/Pwr.lean ====
section
/-!
DEFINITION. Sys2Proof/Machine/Pwr.lean: PWR (19_power_states_and_startup.md): the four states, Watch and wake, start-up, resets, the thermal governor.
-/
namespace Sys2Proof.Machine

def setPwr (x : Pwr) (s : State) : State := { s with pwr := x }

/-! ### Start-up (R593 to R596) -/

/-- Events that other chapters raise together with an alarm: their CLASS at start-up is ALARM (R571). -/
def alarmEvents : List Nat := [19, 57, 59, 60, 136, 150, 188, 230, 233, 234, 237, 242, 243]

/-- The configuration events (Table EVT-2), and events 2 to 6: LOG. -/
def logEvents : List Nat := [0, 1, 2, 3, 4, 5, 6, 8, 16, 24, 32, 48, 64, 80, 96, 112, 132, 144, 152, 160, 168, 176, 184, 192, 196, 200, 202, 204, 216, 224, 232, 235, 240]

/-- The CLASS defaults of R571. -/
def routeDefaults (s : State) : State :=
  (List.range 256).foldl (fun s e => wr (EVT_ROUTE_CLASS e) (if alarmEvents.contains e then 3 else if logEvents.contains e then 2 else 1) s) s

/-- The records of both archive rings. -/
def archived (s : State) : List LRec := s.nv.alarmRing.flatten ++ s.nv.genRing.flatten

/-- Highest SEQ archived; none of an empty archive. -/
def archiveTop (s : State) : Option Nat := (archived s).foldl (fun (m : Option Nat) r => some (max (m.getD 0) r.seq)) none

/-- The archive's last word on presence is that a window opened, with no reset record after it: power was lost inside the window. -/
def windowLeft (s : State) : Bool :=
  match (s.nv.genRing.flatten.filter (fun r => r.kind == 4 || r.kind == 5)).getLast? with
  | some r => r.kind == 5 && r.data.head? == some 0
  | none => false

/-- SEQ of the run that starts (R579). -/
def resumeSeq (s : State) : State :=
  let seq := match archiveTop s with
    | some q => if s.pwr.left.orderly then q + 1 else q + 65536
    | none => if s.pwr.left.orderly then 0 else 65536
  { s with evt := { s.evt with seq := seq }, nv := { s.nv with orderly := false } }

def dfaultWord (s : State) : Nat := 2 ^ 31 * rd EVT_DFAULT_DFAULT s + 2 ^ 30 * rd EVT_DFAULT_HANDLING s + rd EVT_DFAULT_CAUSE s

/-- The reset record (Table EVT-5), first of the start; EVT_DFAULT is then cleared (R569, R579). -/
def resetRecord (s : State) : State :=
  let x := s.pwr.left
  let flags := b2n (!x.orderly) + 2 * b2n x.window + 4 * rd EVT_DFAULT_DFAULT s
  let d := leBytes 1 x.kind ++ leBytes 1 flags ++ leBytes 2 0 ++ leBytes 4 (dfaultWord s) ++ leBytes 4 x.items ++ leBytes 4 x.uptime ++ leBytes 4 ((archiveTop s).getD 0) ++ leBytes 4 0
  let s := { s with notes := .record 2 4 14 0 d :: s.notes }
  wr EVT_DFAULT_DFAULT 0 (wr EVT_DFAULT_HANDLING 0 (wr EVT_DFAULT_CAUSE 0 s))

/-- f with its events left out: registers that show flash contents again after a reset have not changed. -/
def quietly (f : State → State) (s : State) : State := { f s with notes := s.notes }

/-- A trial ends before its image starts; the start goes on as the one after the revert's reset. -/
def revertAtStart (i : Nat) (s : State) : State :=
  let s := revertTrial i s
  setPwr { s.pwr with left := { s.pwr.left with kind := 3 } } s

def fwGood (k : Nat) (b : Boot) : Bool := if k = 0 then b.fw0 else b.fw1

/-- A kind on trial: one boot more, or a revert (R542, R544, R549). -/
def trialStart (i : Nat) (b : Boot) (s : State) : State :=
  match (bootKind i s).trial with
  | none => s
  | some t =>
    if 3 ≤ (bootKind i s).boots then revertAtStart i s
    else
      let s := writeBoot (fun p => setKind i { p.kinds.getD i {} with boots := (p.kinds.getD i {}).boots + 1 } p) (commitBlk 27 s)
      if i = 0 ∧ fwGood t b = false then revertAtStart i s
      else if i ≠ 1 ∧ b.migrateOk = false then revertAtStart i (report 0x1B0E i (count UPD_CNT_MIGRATE_FAIL 1 s))
      else s

/-- Shows a STW error in STW_BOOT. -/
def bootError (cause : Nat) (s : State) : State := wr STW_BOOT_ERROR cause s

/-- The firmware slot the ROM boots (R593, R594). -/
def pickFirmware (b : Boot) (s : State) : Option Nat × State :=
  match (bootKind 0 s).trial with
  | some t => (some t, s)
  | none =>
    let c := (bootKind 0 s).conf
    if fwGood c b then (some c, s)
    else if fwGood (1 - c) b && decide (ctrStep 0 s ≤ leAt (slotOf (1 - c) s).header 6 1) then (some (1 - c), bootError 1 (report 0x0001 (1 - c) s))
    else (none, s)

/-- A confirmed image whose ROLLBACK exceeds its counter advances it (R543). -/
def catchCounters (s : State) : State :=
  markObsolete ((List.range 3).foldl (fun s i =>
    let x := slotOf (2 * i + (bootKind i s).conf) s
    if x.st = 6 ∧ ctrStep i s < leAt x.header 6 1 then advanceCtr i (leAt x.header 6 1) s else s) s)

/-- Site data (R547 to R549): the confirmed generation comes back after a revert; a trial runs on a new one. -/
def siteStart (b : Boot) (s : State) : State :=
  if !b.siteOk then bootError 3 (report 0x0003 0 { s with site := {}, nv := { s.nv with pair := none } })
  else
    let trial := (bootKind 0 s).trial.isSome || (bootKind 2 s).trial.isSome
    match s.nv.oldSite with
    | some g => if trial then s else { s with site := g, nv := { s.nv with oldSite := none } }
    | none =>
      if trial && (b.newEpoch.isSome || b.newTables.isSome) then
        { s with nv := { s.nv with oldSite := some s.site }, site := { s.site with epoch := b.newEpoch.getD s.site.epoch, tables := match b.newTables with | some l => l.foldl (fun (m : List Host.Cell) c => setByte m c.1 c.2) [] | none => s.site.tables } }
      else s

/-- The newest saved copy of the multipath map comes back (R56). -/
def loadMap (s : State) : State :=
  let newest := match s.site.mapA, s.site.mapB with
    | some a, some b => if a.1 < b.1 then some b.2 else some a.2
    | some a, none => some a.2
    | none, some b => some b.2
    | none, none => none
  match newest with
  | some l => { s with mem := l.foldl (fun m c => setByte m (mapBase s + c.1) c.2) s.mem }
  | none => s

/-- Every field core comes out of Watch as it went in (R586), and the events held in it are offered, each once (R587). -/
def leaveRetention (s : State) : State :=
  let s := setCoreEn s.pwr.savedEn s
  let l := s.evt.heldEvts
  l.foldl (fun s p => offerEvent p.1 p.2.count p.2.first s) { s with evt := { s.evt with heldEvts := [] } }

/-- STATE of PWR_STATUS takes a value; frames frozen are withheld when Run is left (R631), and AIR's state follows. -/
def enterPower (st : Nat) (s : State) : State :=
  let old := pwrState s
  if old = st then s
  else
    let s := raise 9 (wr PWR_STATUS_STATE st s)
    airRefresh (if old = 2 then dropFrames AIR_CNT_TX_WITHHELD 0x0A0D none s else s)

/-- Result of a PWR command. -/
def pwrDone (cmd status error : Nat) (s : State) : State :=
  cmdRes 1 0 0x0C 15 cmd status error (if status = 4 then count PWR_CNT_CMD_REFUSED 1 s else s)

/-- The conditions of R584. -/
def mayRun (s : State) : Bool := s.clk.siteSet && !on PWR_STATUS_THERM_STOP s

/-- A RUN issued in Ready: Run at once, or pending (R583; while Watch is being entered, until that is complete, R591); cmd says that its result is owed. -/
def takeRun (cmd : Bool) (s : State) : State :=
  if mayRun s && pwrState s == 1 && !s.pwr.entering then
    let s := enterPower 2 (wr PWR_STATUS_RUN_PENDING 0 s)
    if cmd then pwrDone 1 0 0 s else s
  else wr PWR_STATUS_RUN_PENDING 1 (setPwr { s.pwr with runCmd := cmd } s)

/-- AUTO_RUN issues RUN (R642). -/
def autoRun (s : State) : State :=
  if on PWR_CTRL_AUTO_RUN s && pwrState s == 1 && !on PWR_STATUS_RUN_PENDING s && !on PWR_STATUS_THERM_STOP s then takeRun true s else s

/-- Ready is reached for the first time after a reset: the program starts, unless the reset was of kind DFAULT (R596). -/
def firstReady (s : State) : State :=
  let s := raise 14 (wr STW_BOOT_STAGE 2 s)
  let s := trialWatch (setUpd { s.upd with readyAt := some s.clk.frc } s)
  let s := if s.pwr.left.kind ≠ 4 then (startProgram 0 s).2 else s
  autoRun s

/-- A pair of site data starts in STARTING (Table TWN-2). -/
def twinStart (s : State) : State :=
  match s.nv.pair with
  | some e => wr TWN_CTRL_EN 1 (wr TWN_STATUS_ROLE 1 (wr TWN_PARTNER_LO (leAt e 0 4) (wr TWN_PARTNER_HI (leAt e 4 4) s)))
  | none => s

/-- The steward's bring-up (R595), from firmware slot k. -/
def bringUp (b : Boot) (k : Nat) (s : State) : State :=
  let s := setPwr { s.pwr with romFail := false } (wr STW_BOOT_STAGE 1 (wr STW_BOOT_FW_SLOT k s))
  let s := setCore 16 { st := .run, mhz := 400 } s
  let s := wr STW_FW_VERSION (leAt (slotOf k s).header 16 4) s
  let s := wr KEY_STATUS_EPOCH (keyEpoch s) (recoverKeys s)
  let s := quietly loadEdition s
  let s := quietly (recoverDl b.bad) s
  let s := catchCounters (quietly showFsh (quietly showUpd (quietly showBoot s)))
  let s := trialStart 2 b (trialStart 1 b s)
  let s := wr TWN_STATUS_TERM s.nv.term (wr STP_SERIAL_SERIAL s.nv.serial s)
  let s := resumeSeq (twinStart (siteStart b s))
  let s := resetRecord s
  let s := loadMap { s with mem := s.site.tables.foldl (fun m c => setByte m c.1 c.2) s.mem }
  let s := wr STW_BOOT_KIND s.pwr.left.kind (wr PWR_STATUS_LAST_RESET s.pwr.left.kind (wr STW_BOOT_READY_MS (min 0xFFFF b.ms) (routeDefaults s)))
  if s.pwr.left.kind = 5 then
    raise 9 (wr PWR_STATUS_STATE 0 (setPwr { s.pwr with thermalWatch := true, savedEn := 0, watchAt := siteNs s } s))
  else firstReady s

/-- The boot ROM (R593, R594). -/
def boot (b : Boot) (s : State) : State :=
  let s := quietly showCtrs (trialStart 0 b (wr KEY_CTRL_EN 1 s))
  match pickFirmware b s with
  | (some k, s) => bringUp b k s
  | (none, s) => setPwr { s.pwr with romFail := true } (wr STW_BOOT_STAGE 4 (bootError 2 s))

/-! ### Resets (Table PWR-7, R600) -/

/-- What outlives a reset: flash, the fuses, the factory's marks, the writes that UPD holds for the next trial boot, EVT_DFAULT but for a power-on, the commands that wait outside. -/
def wiped (kind : Nat) (s : State) : State :=
  let r : State :=
    { pending := s.pending
      free := s.free
      held := if kind = 0 then [] else s.held.filter (fun p => p.1 / 0x100000000 == 27)
      out := s.out
      site := s.site
      nv := s.nv
      key := { recA := s.key.recA, recB := s.key.recB, jrnA := s.key.jrnA, jrnB := s.key.jrnB, txn := s.key.txn }
      upd := { slots := s.upd.slots, recA := s.upd.recA, recB := s.upd.recB, bootA := s.upd.bootA, bootB := s.upd.bootB }
      otp := { ctrs := s.otp.ctrs, editions := s.otp.editions, current := s.otp.current }
      fsh := { retired := s.fsh.retired, used := s.fsh.used, ro := s.fsh.ro } }
  let r := wr STW_EUI_LO (rd STW_EUI_LO s) (wr STW_EUI_HI (rd STW_EUI_HI s) (wr KEY_STATUS_LIFECYCLE (lifecycle s) r))
  if kind = 0 then r
  else wr EVT_DFAULT_DFAULT (rd EVT_DFAULT_DFAULT s) (wr EVT_DFAULT_HANDLING (rd EVT_DFAULT_HANDLING s) (wr EVT_DFAULT_CAUSE (rd EVT_DFAULT_CAUSE s) r))

/-- A reset of a kind, with the start-up that follows it. A reset of kind STEWARD ends the run orderly. -/
def resetModule (kind : Nat) (b : Boot) (s : State) : State :=
  let s := if kind = 3 then flushArchive s.evt.staged.length s else s
  let x : Left :=
    { kind := kind
      items := s.mrc.items.length
      uptime := s.clk.frc / 500000000
      window := if kind = 0 then windowLeft s else s.key.window.isSome
      orderly := kind == 3 }
  let r := wiped kind s
  boot b (setPwr { r.pwr with left := x } r)

/-- A reset while the module is on. -/
def resetIfOn (kind : Nat) (b : Boot) (s : State) : State := if s.pwr.off then s else resetModule kind b s

/-- POWER_LOSS: Off, with nothing left but flash, OTP and fuses. -/
def powerLoss (s : State) : State :=
  if s.pwr.off then s
  else
    let r := wiped 0 s
    setPwr { r.pwr with off := true } r

def powerOn (b : Boot) (s : State) : State := if s.pwr.off then resetModule 0 b s else s

/-! ### Leaving and entering states (R582 to R588, R641, R642) -/

/-- Run ends: at once, or when the epoch's burst has ended (Table PWR-3). -/
def leaveRun (s : State) : State :=
  if pwrState s ≠ 2 then s
  else if bursting s then setPwr { s.pwr with stopping := true } s
  else enterPower 1 (setPwr { s.pwr with stopping := false } s)

/-- Completes what waited for a burst's end. -/
def pwrPoll (s : State) : State := if s.pwr.stopping then leaveRun s else s

/-- Partners' rendezvous after Watch: the grid goes on, with GUARD for the time since LAST_CYCLE (R588). -/
def regrid (s : State) : State :=
  let c := cycleNo s
  (keys s.wkr.ptr).foldl (fun s p =>
    match ptr? p s with
    | none => s
    | some x =>
      let behind := sgn 32 (c + 2 ^ 32 - x.next)
      if behind < 0 ∨ x.period = 0 then s
      else
        let next := (x.next + (behind.toNat / x.period + 1) * x.period) % 2 ^ 32
        let g := guardOf x.sd ((next + 2 ^ 32 - getEntry p 20 4 s) % 2 ^ 32) s
        setPtr p { x with next := next, fallback := none, began := none } (putEntry p 4 4 next (putEntry p 14 2 g.1 s))) s

/-- The module leaves Watch for Ready, and for Run when toRun; byReady says that a READY command asked for it. -/
def wakeUp (toRun cmd byReady : Bool) (s : State) : State :=
  let s := raise 10 (enterPower 1 (count PWR_CNT_WAKE 1 s))
  let s := leaveRetention (setAir { s.air with calDone := false } s)
  let s := regrid (airRefresh s)
  if toRun then takeRun cmd s else if byReady then s else autoRun s

/-- Bit of a wake source in one of PWR_WAKE_EN, PWR_WAKE_TGT and PWR_WAKE_SRC. -/
def wakeBit (di src : Fld) (i : Nat) (s : State) : Bool := if 16 ≤ i then bit (rd di s) (i - 16) else bit (rd src s) i

/-- The TIMER source holds: WAKE_AT lay after Watch entry, and is reached. -/
def timerDue (s : State) : Bool :=
  let at_ := rd64 PWR_WAKE_AT_LO PWR_WAKE_AT_HI s
  s.clk.siteSet && decide (s.pwr.watchAt < at_) && decide (at_ ≤ siteNs s)

/-- A wake source is accepted (R589): recorded, and the module wakes. -/
def acceptWake (i : Nat) (s : State) : State :=
  let s := if 16 ≤ i then wr PWR_WAKE_SRC_DI (setBits (rd PWR_WAKE_SRC_DI s) (i - 16) 1 1) s else wr PWR_WAKE_SRC_SRC (setBits (rd PWR_WAKE_SRC_SRC s) i 1 1) s
  wakeUp (wakeBit PWR_WAKE_TGT_DI PWR_WAKE_TGT_SRC i s) false false s

def isWakeSource (i : Nat) : Bool := decide (i < 7 ∨ 16 ≤ i)

/-- WAKE: in Watch at once, during Watch entry when it is complete (R591). -/
def wakeSource (i : Nat) (s : State) : State :=
  if s.pwr.off || s.pwr.thermalWatch || !isWakeSource i || !wakeBit PWR_WAKE_EN_DI PWR_WAKE_EN_SRC i s then s
  else if s.pwr.entering then (if i = 6 then s else setPwr { s.pwr with pendingWake := some (s.pwr.pendingWake.getD i) } s)
  else if inWatch s && (i != 6 || timerDue s) then acceptWake i s else s

/-- Every field core has finished: IDLE, HALTED or OFF. -/
def coresIdle (s : State) : Bool := (List.range 16).all (fun n => match (coreOf n s).st with | .idle => true | .halted => true | .off => true | _ => false)

/-- WATCH_ENTRY_DONE: Watch, unless a wake or a RUN came meanwhile (R591, R641). -/
def watchEntered (s : State) : State :=
  if !s.pwr.entering || !coresIdle s then s
  else
    let w := s.pwr.pendingWake
    let s := enterPower 0 (setPwr { s.pwr with entering := false, pendingWake := none, watchAt := siteNs s } s)
    match w with
    | some i => acceptWake i s
    | none => if on PWR_STATUS_RUN_PENDING s then wakeUp true s.pwr.runCmd false s else s

/-! ### Commands (R582, R583, R601, R641) -/

/-- A later command cancels a pending RUN (R583). -/
def cancelRun (s : State) : State :=
  if on PWR_STATUS_RUN_PENDING s then
    let owed := s.pwr.runCmd
    let s := wr PWR_STATUS_RUN_PENDING 0 (setPwr { s.pwr with runCmd := false } s)
    if owed then pwrDone 1 2 0 s else s
  else s

def pwrRunCmd (s : State) : State :=
  let s := cancelRun s
  if on PWR_STATUS_THERM_STOP s || s.pwr.thermalWatch then pwrDone 1 4 0x0103 s
  else if pwrState s = 2 then pwrDone 1 4 0x01F4 s
  else if inWatch s then wakeUp true true false s
  else takeRun true s

def pwrReadyCmd (s : State) : State :=
  let s := cancelRun s
  if s.pwr.thermalWatch then pwrDone 2 4 0x0103 s
  else if inWatch s then wakeUp false false true (pwrDone 2 0 0 s)
  else if lane s = 1 then pwrDone 2 4 0x0101 s
  else if pwrState s = 2 then leaveRun (pwrDone 2 0 0 s)
  else pwrDone 2 4 0x01F4 s

/-- WATCH: CCX_CTRL.EN is saved and cleared; the cores finish (R585). -/
def pwrWatchCmd (s : State) : State :=
  let s := cancelRun s
  if inWatch s then pwrDone 3 4 0x0102 s
  else if lane s = 1 then pwrDone 3 4 0x0101 s
  else if pwrState s ≠ 1 then pwrDone 3 4 0x0102 s
  else if s.pwr.entering then pwrDone 3 4 0x01F4 s
  else pwrDone 3 0 0 (clearCores (setPwr { s.pwr with entering := true, pendingWake := none, savedEn := rd CCX_CTRL_EN s } s))

def pwrResetCmd (b : Boot) (s : State) : State :=
  let s := cancelRun s
  if lane s = 1 then pwrDone 4 4 0x0101 s else resetModule 3 b s

/-- Any other value of PWR_CMD (R623). -/
def pwrOther (cmd : Nat) (s : State) : State := pwrDone cmd 4 0x01F3 (cancelRun s)

/-- AUTO_RUN is set: in Ready PWR issues RUN (R642). -/
def autoRunSet (s : State) : State :=
  let was := on PWR_CTRL_AUTO_RUN s
  let s := wr PWR_CTRL_AUTO_RUN 1 s
  if was then s else autoRun s

/-- A pending RUN takes effect (R584). -/
def runEntry (s : State) : State :=
  if on PWR_STATUS_RUN_PENDING s && mayRun s && pwrState s == 1 && !s.pwr.off && !s.pwr.entering then
    takeRun s.pwr.runCmd (setPwr { s.pwr with runCmd := false } s)
  else s

/-! ### Supplies and temperature (R602 to R605) -/

/-- The logic supply has stayed below 8.5 V for 100 µs. -/
def supplyWarn (v : Nat) (s : State) : State :=
  if s.pwr.off || decide (850 ≤ v) then s
  else stopCmd (raise 11 (report 0x0104 v (count PWR_CNT_SUPPLY_WARN 1 (wr PWR_SUPPLY_LOGIC v s))))

/-- Table PWR-8: threshold above T_GOV, reduction (0.5 dB), CORE_STEP. -/
def govTable : List (Nat × Nat × Nat) := (List.range 12).map (fun k => (2 * k, 2 * (k + 1), 0)) ++ [(10, 12, 1), (15, 17, 2), (20, 22, 3)]

/-- The governor at a reading (R603). -/
def govern (t : Int) (s : State) : State :=
  let base : Int := rd PWR_THERM_T_GOV s
  let hyst : Int := rd PWR_THERM_HYST s
  let thr := fun (i : Nat) => base + ((govTable.getD i (0, 0, 0)).1 : Int)
  let rows := if on PWR_CTRL_GOV_EN s then
      (List.range govTable.length).filter (fun i => decide (thr i ≤ t) || (s.pwr.govRows.contains i && decide (thr i - hyst < t)))
    else []
  let db := rows.foldl (fun (m : Nat) i => max m (govTable.getD i (0, 0, 0)).2.1) 0
  let step := rows.foldl (fun (m : Nat) i => max m (govTable.getD i (0, 0, 0)).2.2) 0
  if rows = s.pwr.govRows then s
  else raise 12 (count PWR_CNT_GOV_STEP 1 (wr AIR_TXPWR_GOV db (wr PWR_STATUS_CORE_STEP step (setPwr { s.pwr with govRows := rows } s))))

/-- A thermal stop (R604). -/
def thermalStop (s : State) : State :=
  let s := raise 13 (report 0x0105 (rd PWR_STATUS_TEMP s) (count PWR_CNT_THERM_STOP 1 (wr PWR_STATUS_THERM_STOP 1 s)))
  leaveRun (stopCmd s)

/-- The end of a thermal stop, or of the Watch that follows a THERMAL reset. -/
def cooled (s : State) : State :=
  let s := wr PWR_STATUS_THERM_STOP 0 s
  if s.pwr.thermalWatch then
    firstReady (leaveRetention (raise 10 (enterPower 1 (setPwr { s.pwr with thermalWatch := false } s))))
  else s

/-- TEMPERATURE_READING: PWR's commit point (R605), then the governor, the thermal stop and the thermal reset. -/
def reading (t : Int) (logic output : Nat) (b : Boot) (s : State) : State :=
  if s.pwr.off || s.pwr.romFail then s
  else
    let s := commitBlk 1 s
    let s := wr PWR_SUPPLY_LOGIC logic (wr PWR_SUPPLY_OUTPUT output (wr PWR_STATUS_TEMP (enc 8 t) s))
    let s := trialWatch (pwrPoll (govern t s))
    if (rd PWR_THERM_T_OFF s : Int) ≤ t ∧ !s.pwr.thermalWatch then raise 13 (report 0x0106 (enc 8 t) (resetModule 5 b s))
    else if (rd PWR_THERM_T_STOP s : Int) ≤ t ∧ !on PWR_STATUS_THERM_STOP s ∧ !s.pwr.thermalWatch then thermalStop s
    else if t < (rd PWR_THERM_T_GOV s : Int) then cooled s else s

/-! ### The steward's resets (R541, R544, R545, R568) -/

/-- The reset 0.5 s after an accepted IMAGE_ACTIVATE. -/
def activationReset (b : Boot) (s : State) : State := if s.upd.resetDue && stewardUp s then resetModule 3 b s else s

/-- TRIAL_REVERT: in PERMIT the fleet is stopped first, and the reset follows once the epoch's burst has ended. -/
def trialRevert (i : Nat) (b : Boot) (s : State) : State :=
  let s := trialWatch s
  if !mustRevert i s || s.pwr.off then s
  else
    let s := if lane s = 1 then stopCmd s else s
    if bursting s then s else resetModule 3 b (revertTrial i s)

/-- DF_RESET seconds after a double fault. -/
def dfaultReset (b : Boot) (s : State) : State :=
  let n := rd EVT_CTRL_DF_RESET s
  if doubleFaulted s && !s.pwr.off && n != 0 && decide (s.evt.dfAt + 500000000 * n ≤ s.clk.frc) then resetModule 4 b s else s

def execPwrRun (s : State) := run (fun s => if awake s || inWatch s then pwrRunCmd s else s) s
def execPwrReady (s : State) := run (fun s => if awake s || inWatch s then pwrReadyCmd s else s) s
def execPwrWatch (s : State) := run (fun s => if awake s || inWatch s then pwrWatchCmd s else s) s
def execPwrReset (b : Boot) (s : State) := run (fun s => if awake s || inWatch s then pwrResetCmd b s else s) s
def execAutoRunSet (s : State) := run autoRunSet s
def execRunEntry (s : State) := run runEntry s
def execWatchEntryDone (s : State) := run watchEntered s
def execWake (src : Nat) (s : State) := run (wakeSource (src % 32)) s
def execPowerOn (b : Boot) (s : State) := run (powerOn b) s
def execPinReset (b : Boot) (s : State) := run (resetIfOn 2 b) s
def execBrownoutReset (b : Boot) (s : State) := run (resetIfOn 1 b) s
def execRomRetry (b : Boot) (s : State) := run (fun s => if s.pwr.romFail && !s.pwr.off then boot b s else s) s
def execSupplyWarn (v : Nat) (s : State) := run (supplyWarn v) s
def execTemperatureReading (t : Int) (logic output : Nat) (b : Boot) (s : State) := run (reading t logic output b) s
def execPowerLoss (s : State) := run powerLoss s
def execActivationReset (b : Boot) (s : State) := run (activationReset b) s
def execTrialRevert (kind : Nat) (b : Boot) (s : State) := run (trialRevert (kind % 3) b) s
def execDfaultReset (b : Boot) (s : State) := run (dfaultReset b) s

end Sys2Proof.Machine
end

