-- ==== Sys2Proof/Machine/Regs.lean ====
section
/-!
DEFINITION. Sys2Proof/Machine/Regs.lean: a control register by its address (00_scope.md, Table IDX-1, R12 to R15): which register lies at an offset of a block, its fields, its word.
-/
namespace Sys2Proof.Machine

/-- The offset d from a register run's start falls on an element of the run. -/
def hitsDims : List (Nat × Nat) → Nat → Bool
  | [], d => d == 0
  | (st, n) :: t, d => decide (d / st < n) && hitsDims t (d % st)

/-- An element of the run lies at an offset; strides are tried from the widest. -/
def Reg.hits (r : Reg) (off : Nat) : Bool := decide (r.off ≤ off) && hitsDims (sortBy (fun a b => decide (b.1 ≤ a.1)) r.dims) (off - r.off)

/-- The register of block n at an offset. -/
def regAt (n off : Nat) : Option Reg := (regsOfBlock (groupOf n)).find? (fun r => r.hits off)

/-- A field of the register of block n at an offset. -/
def fldOf (n off : Nat) (f : FDef) : Fld := ⟨groupOf n, 32 * (0x10000 * instOf n + off) + f.lo, f.width, f.rst⟩

/-- The word the fields of a register spell. -/
def wordAt (n off : Nat) (s : State) : Nat :=
  match regAt n off with
  | none => 0
  | some r => r.fields.foldl (fun (a : Nat) f => a + rd (fldOf n off f) s * 2 ^ f.lo) 0

/-- Every field that can be written takes its bits of a word. -/
def putWord32 (n off v : Nat) (s : State) : State :=
  match regAt n off with
  | none => s
  | some r => r.fields.foldl (fun s f => if f.acc = .rw then wr (fldOf n off f) (bits v f.lo f.width) s else s) s

/-- Block and offset of a control-space address. -/
def blkOfAddr (a : Nat) : Nat := (a - 0xE0000000) / 0x10000
def offOfAddr (a : Nat) : Nat := a % 0x10000

/-- Address of a field's register. -/
def addrOf (n off : Nat) : Nat := 0xE0000000 + 0x10000 * n + off

end Sys2Proof.Machine
end

