-- ==== Sys2Proof/Machine/Time.lean ====
section
/-!
DEFINITION. Sys2Proof/Machine/Time.lean: the meanings of PTC's commands (11_ethernet_and_time.md), after which the stop lane looks at source TIME, and of the second pulses (R613, R614).
-/
namespace Sys2Proof.Machine

/-- PPS_OUT: PPSOUT rises at the whole second, from the first setting of site time on. -/
def ppsOut (s : State) : State :=
  if s.pwr.off || !s.clk.siteSet then s
  else emit (.pps (siteNs s - siteNs s % 1000000000)) s

/-- PPSIN_EDGE: the edge's site time and the count of edges. -/
def ppsIn (age : Nat) (s : State) : State :=
  if s.pwr.off then s else countWrap PTC_PPSIN_CNT 1 (wr64 PTC_PPSIN_LO PTC_PPSIN_HI (siteNs s - age) s)

/-- PLCA_BEACON_RETURN: E3, fallen back as a follower, returns to PLCA. -/
def beaconReturn (s : State) : State :=
  if ethOn 3 s && rd (ETH_STATUS_PLCA 3) s == 3 then setLink 3 1 1 2 s else s

def execPtpMessage (p : Nat) (b : List Byte) (age : Nat) (s : State) := run (fun s => react (ptpMessage (p % 4) b age s)) s
def execPtpMessageTx (p kind : Nat) (s : State) := run (ptpTx (p % 4) (kind % 4)) s
def execMasterLost (s : State) := run (fun s => react (masterLost s)) s
def execStepPort (s : State) := run (fun s => react (stepPortCmd s)) s
def execReselect (s : State) := run (fun s => react (reselectCmd s)) s
def execPpsOut (s : State) := run ppsOut s
def execPpsinEdge (age : Nat) (s : State) := run (ppsIn age) s
def execPlcaBeaconReturn (s : State) := run beaconReturn s

end Sys2Proof.Machine
end

