-- ==== Sys2Proof/Machine/Twn.lean ====
section
/-!
DEFINITION. Sys2Proof/Machine/Twn.lean: the pair (15_twin_and_cascade.md): roles, link frames, the mirror on both sides, takeover, axes and outputs on the I/O module, pairing.
-/
namespace Sys2Proof.Machine

def setTwn (x : Twn) (s : State) : State := { s with twn := x }

def twnCmdDone (cmd status error : Nat) (s : State) : State := cmdRes 24 0 0x24 227 cmd status error s

def twnOn (s : State) : Bool := on TWN_CTRL_EN s && !s.pwr.off && !s.pwr.romFail

/-- ROLE changes (Table TWN-2). -/
def enterRole (r : Nat) (s : State) : State :=
  if twnRole s = r then s else airRefresh (raise 225 (wr TWN_STATUS_ROLE r s))

/-- LEASE in ticks of the free-running counter, clamped to 0.5 to 2.0 ms. -/
def leaseTicks (s : State) : Nat := 50000 * max 5 (min 20 (rd TWN_TIMING_LEASE s))

/-- Nothing valid has come for LEASE. -/
def since (at_ : Option Nat) (n : Nat) (s : State) : Bool := match at_ with | some f => decide (n ≤ s.clk.frc - f) | none => true

/-- TX_EN is cleared; frames frozen or on air end withheld (R631). -/
def txOff (s : State) : State := airRefresh (dropFrames AIR_CNT_TX_WITHHELD 0x0A0D none (wr AIR_CTRL_TX_EN 0 s))

/-- The module becomes STALE, and asks for RESYNC. -/
def becomeStale (error : Nat) (s : State) : State :=
  let s := count TWN_CNT_STALE 1 (setTwn { s.twn with whole := false } s)
  let s := if error = 0 then s else report error 0 s
  emit .askResync (enterRole 4 s)

/-- A link frame whose tag fails is discarded and counted (R477); a valid one shows the link. -/
def linkFrame (ok : Bool) (f : State → State) (s : State) : State :=
  if !twnOn s then s
  else if !ok then count TWN_CNT_LINK_BAD 1 s
  else f (wr TWN_STATUS_LINK 1 (setTwn { s.twn with linkAt := some s.clk.frc } s))

/-! ### Site time over the link (R497) -/

/-- Site time follows a link time off ns ahead of it: the first setting, or a slew under R6. -/
def followLink (site : Nat) (off : Int) (s : State) : State :=
  if !s.clk.siteSet then offerTime site s
  else
    let r := fresh s
    wr PTC_STATUS_SITE_SRC 2 (setSiteInc (Config.siteLoop r.1 (-off)) r.2)

/-! ### The mirror (R478, R479, Table TWN-3) -/

/-- An epoch of the partner reaches this module's axes and outputs (R488). -/
def localEpoch (s : State) : State := dioStopEpoch (axsStopEpoch (proStopEpoch s))

/-- A channel as the active has it; the standby goes on computing a plan it already runs. -/
def takeChan (n : Nat) (c : Chan) (s : State) : State :=
  let d := match chan? n s with
    | some o => { o with mode := c.mode, queue := c.queue, aUse := c.aUse, dUse := c.dUse, jUse := c.jUse, dsUse := c.dsUse, jsUse := c.jsUse }
    | none => c
  setChan n d s

/-- The standby applies one record. -/
def applyRec (r : MirRec) (s : State) : State :=
  match r with
  | .claim k c => setClm { s.clm with claims := match c with | some c => tins k c s.clm.claims | none => tdel k s.clm.claims } s
  | .path o l => setPath o (l.getD []) s
  | .echo o c => setClm { s.clm with echo := match c with | some c => tins o c s.clm.echo | none => tdel o s.clm.echo } s
  | .chan n c => match c with | some c => takeChan n c s | none => { s with pro := { s.pro with chans := tdel n s.pro.chans } }
  | .idx m i => showIdx m (setAir { s.air with idx := match i with | some i => tins m i s.air.idx | none => tdel m s.air.idx } s)
  | .orders l => setAir { s.air with orders := l } s
  | .ptr p x e => showPtr p (memWrite (ptrAddr p s) e 11 (setWkr { s.wkr with ptr := match x with | some x => tins p x s.wkr.ptr | none => tdel p s.wkr.ptr } s))
  | .charges l => setAir { s.air with charges := l } s
  | .lane st fault active latched serial first ep cyc =>
    let was := (lane s, rd64 STP_EPOCH_LO STP_EPOCH_HI s, rd STP_SERIAL_SERIAL s)
    let s := enterLane st (wr STP_STATUS_FAULT fault (wr STP_STATUS_ACTIVE active (wr STP_STATUS_LATCHED latched s)))
    let s := wr STP_SERIAL_SERIAL serial (wr STP_SERIAL_FIRST first (wr64 STP_EPOCH_LO STP_EPOCH_HI ep (wr STP_EPOCH_CYC cyc s)))
    if st = 2 ∧ was ≠ (2, ep, serial) then localEpoch s else s
  | .keys new prev use =>
    { s with key := { s.key with bkey := new, bprev := prev }, air := { s.air with keyUse := use } }
  | .write a v => putWord32 (blkOfAddr a) (offOfAddr a) v s
  | .region l => memWrite (4096 * rd TWN_MIRROR_BASE s) l 24 s
  | .items n => setTwn { s.twn with items := n } s

/-- MIRROR_FRAME: the next SEQ is applied; a gap makes the standby STALE. -/
def mirrorFrame (seq : Nat) (r : MirRec) (s : State) : State :=
  if twnRole s ≠ 3 then s
  else
    let ahead := sgn 32 (seq + 2 ^ 32 - twnSeq s)
    if ahead ≤ 0 then s
    else if ahead = 1 then applyRec r (wr TWN_SEQ seq s)
    else becomeStale 0x1806 s

/-- The full engine state as mirror records (KIND 20). -/
def fullState (s : State) : List MirRec :=
  let blank : State := { s with
    clm := { s.clm with claims := [], paths := [], echo := [] }
    pro := { s.pro with chans := [] }
    air := { s.air with idx := [], keyUse := !s.air.keyUse }
    wkr := { s.wkr with ptr := [] } }
  [laneRec s, .orders s.air.orders, .charges s.air.charges, .items (s.mrc.items.length), .region (bytesAt s.mem (4096 * rd TWN_MIRROR_BASE s) (4096 * min 512 (rd TWN_MIRROR_SIZE s)))] ++ mirrorOf blank s

/-- RESYNC_FRAME: a STALE module takes the whole state and is STANDBY. -/
def resyncFrame (seq : Nat) (l : List MirRec) (s : State) : State :=
  if twnRole s ≠ 4 then s
  else
    let s := l.foldl (fun s r => applyRec r s) s
    enterRole 3 (wr TWN_SEQ seq (setTwn { s.twn with whole := true } s))

/-! ### Takeover (R482 to R485) -/

def nextTerm (s : State) : State := wr TWN_STATUS_TERM ((rd TWN_STATUS_TERM s + 1) % 2 ^ 16) s

def sendLease (s : State) : State :=
  emit (.lease (rd TWN_STATUS_TERM s) (siteNs s) (twnSeq s) (lane s) (rd STP_STATUS_ACTIVE s)) (setTwn { s.twn with sent := s.twn.sent + 1 } s)

/-- ACTIVE: TERM rises, TX_EN is set. -/
def becomeActive (s : State) : State :=
  enterRole 2 (wr AIR_CTRL_TX_EN 1 (nextTerm (wr TWN_STATUS_PARTNER_FIT 0 (setTwn { s.twn with partnerStale := true, partnerStop := false } s))))

/-- A takeover (R484). -/
def takeover (s : State) : State :=
  let s := sendLease (becomeActive (count TWN_CNT_TAKEOVER 1 s))
  let flying := s.air.orders.filter (fun o => inFlight o.target s == some o)
  let s := flying.foldl (fun s o => dropOrder o (orderDone o 3 0x1805 (cycleNo s) s)) s
  let s := reportAlarm 0x1805 s.twn.items s
  let s := (startProgram 1 s).2
  let s := setStw { s.stw with sessions := [] } s
  let s := setTwn { s.twn with burstDue := true } s
  react (airRefresh (runBmca s))

/-- FIT, as the standby's own tests have it. -/
def selfFit (s : State) : Bool := twnRole s == 3 && on TWN_HEALTH_FIT s

/-- HOP_CHECK: takeover, or the link found down. -/
def hopCheck (heard : Bool) (s : State) : State :=
  if !twnOn s then s
  else if selfFit s && !heard && since s.twn.leaseAt (leaseTicks s) s then takeover s
  else s

/-- YIELD_FRAME: the FIT standby takes over; its first frames are those of the hop named. -/
def yieldFrame (cyc hop : Nat) (s : State) : State :=
  if selfFit s then takeover (setTwn { s.twn with yieldAt := some (cyc, hop) } s) else s

/-- The first hop whose freeze, 1.0 ms before its start, lies at least 1 ms ahead: cycle and hop. -/
def yieldHop (s : State) : Nat × Nat :=
  let ph := cyclePhase s
  let c := cycleNo s
  match (List.range 3).find? (fun h => decide (ph + 2000000 ≤ h * hopNs s)) with
  | some h => (c, h)
  | none => if ph + 2000000 ≤ cycleLen s then ((c + 1) % 2 ^ 32, 0) else ((c + 1) % 2 ^ 32, 1)

/-- The active yields: YIELD is sent, and TX_EN falls after the hop it names. -/
def yieldNow (s : State) : State :=
  let y := yieldHop s
  let s := count TWN_CNT_YIELD 1 (setTwn { s.twn with yieldAt := some y, whole := true } s)
  enterRole 3 (emit (.yield (rd TWN_STATUS_TERM s) y.1 y.2) s)

def partnerFit (s : State) : Bool := on TWN_STATUS_PARTNER_FIT s && !s.twn.partnerStale

/-- TWN_CMD YIELD. -/
def yieldCmd (s : State) : State :=
  if !twnOn s || twnRole s != 2 then twnCmdDone 1 4 0x18F4 s
  else if !partnerFit s then twnCmdDone 1 4 0x1802 s
  else twnCmdDone 1 0 0 (yieldNow s)

/-- A fault in the active's own transmit chain. -/
def chainFault (s : State) : State := if twnOn s && twnRole s == 2 && partnerFit s then yieldNow s else s

/-! ### Link frames (Table TWN-1) -/

/-- LEASE_TX, and every fourth time, 1 ms apart, the IO frame of an active whose partner carries the I/O (R489). -/
def leaseTx (s : State) : State :=
  if !twnOn s || twnRole s != 2 then s
  else
    let s := sendLease s
    if on TWN_CTRL_IO_EN s && on TWN_CTRL_IO_HOME s && s.twn.sent % 4 == 0 then
      emit (.ioPlan (s.pro.chans.filter (fun p => decide (256 ≤ p.1))) (rd DIO_OUT_OUT s)) (setTwn { s.twn with sent := s.twn.sent + 1 } s)
    else s

/-- LEASE_RX. A standby that has not had every record issued before the frame has met a gap, as the cable keeps order. -/
def leaseRx (term site seq active : Nat) (s : State) : State :=
  let s := setTwn { s.twn with leaseAt := some s.clk.frc, leaseStop := bit active 0 } s
  match twnRole s with
  | 1 => becomeStale 0 (wr TWN_STATUS_TERM term s)
  | 2 => if rd TWN_STATUS_TERM s < term then becomeStale 0x1807 (txOff (wr TWN_STATUS_TERM term s)) else s
  | 3 =>
    let s := followLink site ((site : Int) - siteNs s) (wr TWN_STATUS_TERM (max term (rd TWN_STATUS_TERM s)) s)
    if 0 < sgn 32 (seq + 2 ^ 32 - twnSeq s) ∧ s.twn.yieldAt = none then becomeStale 0x1806 s else s
  | 4 => followLink site ((site : Int) - siteNs s) (wr TWN_STATUS_TERM (max term (rd TWN_STATUS_TERM s)) s)
  | _ => s

/-- STANDBY_FRAME at the active: health, acknowledgement, source TWIN (R480, R487), and a RESYNC when it is asked for. -/
def standbyFrame (health seq : Nat) (stop ask : Bool) (lag : Nat) (s : State) : State :=
  if twnRole s ≠ 2 then s
  else
    let fit := bit health 8
    let was := on TWN_STATUS_PARTNER_FIT s
    let s := wr TWN_HEALTH_FIT (bits health 8 1) (wr TWN_HEALTH_TESTS (health % 256) (wr TWN_STATUS_PARTNER_FIT (b2n fit) s))
    let s := if was = fit then s else raise 226 (if fit then s else count TWN_CNT_UNFIT 1 s)
    let s := setTwn { s.twn with partnerSeq := seq, partnerStop := stop } s
    let s := if rd TWN_LAG s < lag then wr TWN_LAG lag s else s
    let s := if ask then
        emit (.resync (twnSeq s) (fullState s)) (setTwn { s.twn with sent := s.twn.sent + 1, partnerStale := false } s)
      else s
    react s

/-- The self-test of Table TWN-4, once a cycle. -/
def selfTest (obs : Nat) (s : State) : State :=
  if s.twn.evalCyc = some (cycleNo s) then s
  else
    let need := rd TWN_TIMING_AGREE_CYC s
    let sol := if bit obs 6 then s.twn.solCyc + 1 else 0
    let rec_ := if bit obs 7 then s.twn.recCyc + 1 else 0
    let s := setTwn { s.twn with evalCyc := some (cycleNo s), solCyc := min sol 255, recCyc := min rec_ 255 } s
    let stopOk := on STP_STATUS_INA s == on STP_STATUS_INB s && s.twn.leaseStop == !on STP_STATUS_INA s
    let tests := b2n s.twn.whole + 2 * bits obs 1 1 + 4 * bits obs 2 1 + 8 * bits obs 3 1 + 16 * b2n (refState s == 3) + 32 * b2n stopOk
      + 64 * b2n (decide (need ≤ sol)) + 128 * b2n (decide (need ≤ rec_))
    let was := on TWN_HEALTH_FIT s
    let fit := tests == 255
    let s := if bit (rd TWN_HEALTH_TESTS s) 1 && !bit tests 1 then report 0x1804 0 s else s
    let s := wr TWN_HEALTH_TESTS tests (wr TWN_HEALTH_FIT (b2n fit) s)
    if was = fit then s else raise 226 (if fit then s else count TWN_CNT_UNFIT 1 s)

/-- STANDBY_TX: a link that is down makes a standby STALE; else the frame goes out. -/
def standbyTx (obs : Nat) (s : State) : State :=
  if !twnOn s || !shadowing s then s
  else
    let s := if twnRole s == 3 && !on (ETH_STATUS_LINK (rd TWN_CTRL_PORT s)) s then becomeStale 0x1806 (report 0x1801 0 (wr TWN_STATUS_LINK 0 s)) else s
    let s := selfTest obs s
    let s := if since s.twn.linkAt (leaseTicks s) s then wr TWN_STATUS_LINK 0 s else s
    emit (.standby (rd TWN_STATUS_TERM s) (256 * rd TWN_HEALTH_FIT s + rd TWN_HEALTH_TESTS s) (twnSeq s) (bit (sourcesNow s) 0))
      (setTwn { s.twn with sent := s.twn.sent + 1 } s)

/-- TWN_CMD RESYNC. -/
def resyncCmd (s : State) : State :=
  if !twnOn s || twnRole s != 4 then twnCmdDone 2 4 0x18F4 s else twnCmdDone 2 0 0 (emit .askResync s)

/-- An EUI-64 as the number its octets spell, octet 0 highest. -/
def euiNum (l : List Byte) : Nat := ofBe l

def partnerEui (s : State) : List Byte := leBytes 4 (rd TWN_PARTNER_LO s) ++ leBytes 4 (rd TWN_PARTNER_HI s)

/-- TWIN_START_TIMEOUT: two air cycles without the partner, or both STARTING and this module's EUI-64 the lower. -/
def startTimeout (heard partnerStarting : Bool) (s : State) : State :=
  if !twnOn s || twnRole s != 1 then s
  else
    let quiet_ := !heard && decide (2 * cycleLen s / 2 ≤ s.clk.frc - s.twn.startAt)
    let lower := partnerStarting && decide (euiNum (moduleEui s) < euiNum (partnerEui s))
    if quiet_ || lower then react (becomeActive s) else s

/-! ### Axes and outputs on the I/O module (R489 to R491) -/

/-- This module carries the I/O for an active partner. -/
def ioModule (s : State) : Bool := on TWN_CTRL_IO_EN s && !on TWN_CTRL_IO_HOME s && shadowing s

/-- Registers of AXS and DIO the I/O module returns. -/
def ioRegs (s : State) : List (Nat × Nat × Nat) := s.axs.regs.map (fun p => (22, p.1, p.2)) ++ (s.dio.regs.filter (fun p => p.1 != DIO_OUT_OUT.key)).map (fun p => (23, p.1, p.2))

/-- IO_FRAME, at the I/O module and at the active. -/
def ioFrame (plan : List (Nat × Chan)) (out : Nat) (inputs : List (Nat × Nat × Nat)) (s : State) : State :=
  if ioModule s then
    let s := setTwn { s.twn with ioAt := some s.clk.frc, ioHeld := false, sent := s.twn.sent + 1 } s
    let s := (plan.filter (fun p => decide (256 ≤ p.1 ∧ p.1 < 264))).foldl (fun s p => setChan p.1 p.2 s) s
    emit (.ioInputs (ioRegs s)) (dioWrite out s)
  else if on TWN_CTRL_IO_EN s && on TWN_CTRL_IO_HOME s && twnRole s == 2 then
    (inputs.filter (fun x => x.1 == 22 || x.1 == 23)).foldl (fun s x => wr ⟨x.1, x.2.1, 32, 0⟩ x.2.2 s) s
  else s

/-- No IO frame for 5 ms. -/
def ioLoss (s : State) : State :=
  if ioModule s && !s.twn.ioHeld && twnOn s && since s.twn.ioAt 2500000 s then
    (List.range 8).foldl (fun s n => holdChan (256 + n) s) (count TWN_CNT_IO_LOST 1 (setTwn { s.twn with ioHeld := true } s))
  else s

/-! ### Pairing (R492, R493, R515) -/

/-- The folio slot for a key of a usage: the one that holds such a key, else the first empty one after slot 16; and the lowest CURRENT quire. -/
def folioFor (usage : Nat) (s : State) : Option (Nat × Nat) :=
  let slot := match slotOfUsage usage s with
    | some n => some n
    | none => ((List.range 495).map (· + 17)).find? (fun n => (slotNow n s).isNone)
  let quire := ((List.range 15).map (· + 1)).find? (fun q => (parentKey q s).isSome)
  match slot, quire with | some n, some q => some (n, q) | _, _ => none

/-- Stores a key agreed over a link as a folio key of a usage. -/
def storeAgreed (usage : Nat) (key : List Byte) (s : State) : State :=
  match folioFor usage s with
  | some (n, q) => (putFolio 1000 n q usage 16 3 key none s).2
  | none => s

/-- The key two modules agree by ECDH (R515). -/
def agreedKey (info : String) (other pub : List Byte) (s : State) : List Byte × State :=
  let r := fresh s
  let a := moduleEui s
  let salt := if euiNum a < euiNum other then a ++ other else other ++ a
  (hkdf (Config.ecdhX r.1 pub) salt (ascii info) 16, r.2)

/-- Pairing with the partner named: status and error. -/
def pairWith (pub : Option (List Byte)) (s : State) : (Nat × Nat) × State :=
  if !windowOpen s then ((4, 0x18F0), gateRefused s)
  else if twnRole s ≠ 0 then ((4, 0x18F4), s)
  else
    match pub with
    | none => ((4, 0x1803), s)
    | some pub =>
      let e := partnerEui s
      let k := agreedKey "GPK1" e pub s
      let s := storeAgreed 5 k.1 { k.2 with nv := { k.2.nv with pair := some e } }
      ((0, 0), enterRole 1 (wr TWN_CTRL_EN 1 (setTwn { s.twn with startAt := s.clk.frc } s)))

def pairCmd (pub : Option (List Byte)) (s : State) : State := match pairWith pub s with | (r, s) => twnCmdDone 3 r.1 r.2 s

/-- The pair is dissolved: SINGLE, and gone from site data. -/
def leavePair (s : State) : State :=
  enterRole 0 (wr TWN_CTRL_EN 0 (wr TWN_STATUS_LINK 0 (wr TWN_STATUS_PARTNER_FIT 0 { s with nv := { s.nv with pair := none }, twn := { regs := s.twn.regs } })))

/-- TWN_CMD UNPAIR. -/
def unpairCmd (agreed : Bool) (s : State) : State :=
  if !windowOpen s then twnCmdDone 4 4 0x18F0 (gateRefused s)
  else if twnRole s = 0 then twnCmdDone 4 4 0x18F4 s
  else if twnRole s = 2 ∧ partnerFit s then twnCmdDone 4 4 0x1808 s
  else if agreed || !partnerFit s then twnCmdDone 4 0 0 (leavePair s)
  else twnCmdDone 4 4 0x1803 s

def execLeaseTx (s : State) := run leaseTx s
def execLeaseRx (ok : Bool) (term site seq active : Nat) (s : State) := run (linkFrame ok (leaseRx (term % 65536) site (seq % 2 ^ 32) active)) s
def execStandbyFrame (ok : Bool) (term health seq : Nat) (stop ask : Bool) (lag : Nat) (s : State) :=
  run (linkFrame ok (fun s => if rd TWN_STATUS_TERM s < term % 65536 then s else standbyFrame health seq stop ask lag s)) s
def execMirrorFrame (ok : Bool) (seq : Nat) (r : MirRec) (s : State) := run (linkFrame ok (mirrorFrame (seq % 2 ^ 32) r)) s
def execHopCheck (heard : Bool) (s : State) := run (hopCheck heard) s
def execTwnYield (s : State) := run yieldCmd s
def execYieldFrame (ok : Bool) (term cyc hop : Nat) (s : State) :=
  run (linkFrame ok (fun s => if rd TWN_STATUS_TERM s ≤ term % 65536 then yieldFrame (cyc % 2 ^ 32) (hop % 3) s else s)) s
def execTwnResync (s : State) := run resyncCmd s
def execResyncFrame (ok : Bool) (seq : Nat) (l : List MirRec) (s : State) := run (linkFrame ok (resyncFrame (seq % 2 ^ 32) l)) s
def execTwinStartTimeout (heard partnerStarting : Bool) (s : State) := run (startTimeout heard partnerStarting) s
def execIoFrame (ok : Bool) (plan : List (Nat × Chan)) (out : Nat) (inputs : List (Nat × Nat × Nat)) (s : State) := run (linkFrame ok (ioFrame plan out inputs)) s
def execIoLoss (s : State) := run ioLoss s
def execTwnPair (pub : Option (List Byte)) (s : State) := run (pairCmd pub) s
def execTwnUnpair (agreed : Bool) (s : State) := run (unpairCmd agreed) s
def execStandbyTx (obs : Nat) (s : State) := run (standbyTx obs) s
def execTransmitChainFault (s : State) := run chainFault s

end Sys2Proof.Machine
end

