-- ==== Sys2Proof/Machine/Cas.lean ====
section
/-!
DEFINITION. Sys2Proof/Machine/Cas.lean: the cascade (15_twin_and_cascade.md): the headwater and its members, joining and leaving, site time and alignment, claims across the link, isolation and reconciliation, stop notices.
-/
namespace Sys2Proof.Machine

def setCas (x : Cas) (s : State) : State := { s with cas := x }

/-- STATE (Table TWN-6): 0 OFF, 1 JOINING, 2 ALIGNING, 3 JOINED, 4 ISOLATED, 5 RECONCILING, 6 HEADWATER. -/
def casState (s : State) : Nat := rd CAS_STATUS_STATE s

/-- CAS_CMD_RES raises CAS_LINK (Table TWN-7). -/
def casCmdDone (cmd status error : Nat) (s : State) : State := cmdRes 25 0 0x24 230 cmd status error s

def casOn (s : State) : Bool := on CAS_CTRL_EN s && !s.pwr.off && !s.pwr.romFail
def isTrib (s : State) : Bool := casOn s && rd CAS_CTRL_ROLE s == 2
def heads (s : State) : Bool := casOn s && isHead s

/-! ### Alignment (R498) -/

/-- BROADCAST frames are withheld, or no longer. -/
def withhold (b : Bool) (s : State) : State :=
  if s.air.withheld = b then s
  else
    let s := if b then report 0x1905 (min 65535 (rdS CAS_ALIGN s).natAbs) (count CAS_CNT_ALIGN_LOST 1 s) else s
    airRefresh (raise 229 (setAir { s.air with withheld := b } s))

def alignLim (s : State) : Nat := 100 * rd CAS_TIMING_ALIGN_LIM s

/-- The alignment error: the last measured offset, and while ISOLATED REF's time error if it is larger. -/
def alignError (s : State) : Nat :=
  let o := (rdS CAS_ALIGN s).natAbs
  if casState s = 4 then max o (rdS REF_TIME_ERR s).natAbs else o

/-- A member of an overlap group keeps silent while it is out of alignment. -/
def checkAlign (s : State) : State :=
  let far := decide (alignLim s < alignError s)
  let s := setCas { s.cas with alignedFrom := if far then none else some (s.cas.alignedFrom.getD s.clk.frc) } s
  if casState s = 2 ∨ casState s = 1 then s
  else withhold (isTrib s && casState s != 0 && decide (1 < groupN s) && far) s

/-! ### Heartbeats (R496, R497, R501) -/

def heartbeatTx (s : State) : State := if heads s then emit (.heartbeat (siteNs s) (cycleNo s)) s else s

def enterCas (st : Nat) (s : State) : State := wr CAS_STATUS_STATE st s

/-- HEARTBEAT_RX at a tributary. -/
def heartbeatRx (site : Nat) (off : Int) (s : State) : State :=
  if !isTrib s || casState s < 2 then s
  else
    let s := setCas { s.cas with beatAt := some s.clk.frc } s
    let s := checkAlign (followLink site off (wrS CAS_ALIGN (satS 32 off) s))
    if casState s = 4 then
      emit (.reconcile s.cas.freed s.cas.orphans) (enterCas 5 s)
    else s

def hwLease (s : State) : Nat := 5000000 * max 10 (min 100 (rd CAS_TIMING_HW_LEASE s))

/-- HEADWATER_LOST: ISOLATED, and every request that waits is refused (R501). -/
def headwaterLost (s : State) : State :=
  if !isTrib s || casState s != 3 || !since s.cas.beatAt (hwLease s) s then s
  else
    let s := raise 228 (count CAS_CNT_ISOLATED 1 (enterClm 3 (enterCas 4 s)))
    let l := s.clm.forwarded
    let s := setClm { s.clm with forwarded := [] } (setCas { s.cas with orphans := s.cas.orphans ++ l.map (fun x => (x.1, x.2.1)) } s)
    checkAlign (l.foldl (fun s x =>
      clmResult none { op := x.2.2, count := 0, owner := x.1, tag := x.2.1, arg0 := 0, arg1 := 0, els := [], whole := true } 0 { status := 4, error := 0x080E } s) s)

/-! ### Reconciliation (R502) -/

def memberBit (f : Fld) (m : Nat) (b : Bool) (s : State) : State := wr f (setBits (rd f s) m 1 (b2n b)) s

/-- A member answers again, or no longer. -/
def setReach (m : Nat) (ok : Bool) (s : State) : State :=
  if bit (rd CAS_STATUS_UNREACH s) m = !ok then s
  else
    let s := memberBit CAS_STATUS_UNREACH m (!ok) s
    let x := tfind m s.cas.members
    raise 228 (match x with
      | some x => setCas { s.cas with members := tins m { x with lostAt := if ok then none else some s.clk.frc } s.cas.members } s
      | none => s)

/-- The claims a tributary's replica puts in place; its paths follow. -/
def takeReplica (k : Nat) (c : Option Claim) (s : State) : State :=
  match c with
  | none => freeIt k s
  | some c =>
    let s := setClaim k c s
    if (pathOf c.owner s).contains k then s else setPath c.owner (pathOf c.owner s ++ [k]) s

/-- At the headwater: frees what the tributary freed, releases what it completed as refused, returns the replica. -/
def reconcileHead (m : Nat) (freed : List Nat) (orphans : List (Nat × Nat)) (s : State) : State :=
  let mine := fun (k : Nat) (s : State) => match claim? k s with | some c => c.owner / 256 == m | none => false
  let s := freed.foldl (fun s k => if mine k s then freeIt k s else s) s
  let late := (s.clm.claims.filter (fun p => p.2.owner / 256 == m && orphans.contains (p.2.owner, p.2.tag))).map Prod.fst
  let s := late.foldl (fun s k => report 0x1907 k (count CAS_CNT_ORPHAN_RELEASED 1 (freeIt k s))) s
  let s := s.clm.claims.foldl (fun s p => emit (.cas (some m) (.replica p.1 (some p.2))) s) s
  raise 231 (count CAS_CNT_RECONCILED 1 (emit (.reconciled m) (setReach m true s)))

/-- At the tributary: the replica afresh, CLM in RUN. -/
def reconcileTrib (replica : List (Nat × Claim)) (s : State) : State :=
  let gone := (keys s.clm.claims).filter (fun k => (tfind k replica).isNone)
  let s := gone.foldl (fun s k => freeIt k s) s
  let s := replica.foldl (fun s p => takeReplica p.1 (some p.2) s) s
  let s := enterCas 3 (setCas { s.cas with orphans := [], freed := [] } s)
  raise 231 (checkAlign (enterClm 2 (count CAS_CNT_RECONCILED 1 s)))

def reconciliation (m : Nat) (freed : List Nat) (orphans : List (Nat × Nat)) (replica : List (Nat × Claim)) (s : State) : State :=
  if heads s && (tfind m s.cas.members).isSome then reconcileHead m freed orphans s
  else if isTrib s && casState s == 5 then reconcileTrib replica s else s

/-! ### Members (Table TWN-6, R494, R499, R500, R503) -/

/-- What a JOIN carries. -/
def joinFrameOf (s : State) : CasFrame :=
  .join (rd CAS_CTRL_MEMBER s) (moduleEui s) (rd CAS_CTRL_GROUP_ID s) (groupU s) (rd AIR_SITE_SITE_ID s) s.site.epoch (b2n (planE s)) (rd CLM_MAP_SERIAL_SERIAL s) (rd AIR_SITE_EDITION s) s.clm.claims.length

/-- A join asked for: status and error, none while the headwater's answer is awaited. -/
def startJoin (s : State) : Option (Nat × Nat) × State :=
  if !windowOpen s then (some (4, 0x19F0), gateRefused s)
  else if !isTrib s then (some (4, 0x1908), s)
  else if casState s ≠ 0 then (some (4, 0x19F4), s)
  else (none, emit (.cas none (joinFrameOf s)) (enterCas 1 (setCas { s.cas with joinAt := some s.clk.frc } s)))

def joinCmd (s : State) : State := match startJoin s with | (some r, s) => casCmdDone 1 r.1 r.2 s | (none, s) => s

/-- No answer in 1 s. -/
def joinTimeout (s : State) : State :=
  if isTrib s && casState s == 1 && since s.cas.joinAt 500000000 s then casCmdDone 1 1 0x1901 (enterCas 0 (setCas { s.cas with joinAt := none } s)) else s

/-- ALIGNING for 10 s within the limit: JOINED. -/
def alignHold (s : State) : State :=
  if isTrib s && casState s == 2 && s.cas.alignedFrom.isSome && since s.cas.alignedFrom 5000000000 s then
    let s := raise 228 (enterClm 2 (enterCas 3 s))
    airRefresh (setAir { s.air with withheld := false } s)
  else s

/-- CAS_CMD LEAVE on a tributary: the headwater answers. -/
def leaveCmd (s : State) : State :=
  if !isTrib s then casCmdDone 2 4 0x1908 s
  else if casState s ≠ 3 then casCmdDone 2 4 0x19F4 s
  else emit (.cas none (.leave (rd CAS_CTRL_MEMBER s))) s

/-- The member leaves the cascade: OFF, CLM to OFF. -/
def leftCascade (s : State) : State :=
  let s := clmOff s
  let s := airRefresh (setAir { s.air with withheld := false } s)
  raise 228 (enterCas 0 (setCas { regs := s.cas.regs } s))

/-- A member is taken off the headwater's list. -/
def dropMember (m : Nat) (s : State) : State :=
  raise 228 (memberBit CAS_STATUS_PRESENT m false (memberBit CAS_STATUS_UNREACH m false (setCas { s.cas with members := tdel m s.cas.members, sources := tdel m s.cas.sources } s)))

/-- CAS_CMD EVICT. -/
def evictCmd (m : Nat) (s : State) : State :=
  if !heads s then casCmdDone 3 4 0x1908 s
  else
    let lost := match tfind m s.cas.members with | some x => x.lostAt.isSome && since x.lostAt 30000000000 s | none => false
    if !lost || lane s != 2 then casCmdDone 3 4 0x1906 s
    else
      let owners := ((s.clm.claims.filter (fun p => p.2.owner / 256 == m)).map (fun p => p.2.owner)).eraseDups
      casCmdDone 3 0 0 (dropMember m (owners.foldl (fun s o => forceFree o s) s))

/-- LATENCY_MEASURE. -/
def latency (l : List (Nat × Option Nat)) (s : State) : State :=
  if !casOn s then s
  else l.foldl (fun s p =>
    match p.2 with
    | none => if heads s && (tfind p.1 s.cas.members).isSome then setReach p.1 false s else s
    | some us =>
      let us := min us 65535
      let s := wr CAS_LAT (65536 * max us (rd CAS_LAT s / 65536) + us) s
      if rd CAS_TIMING_LAT_LIM s < us then raiseAlarm 230 (count CAS_CNT_LAT_HIGH 1 s) else s) s

/-! ### Stop notices (R504) -/

def stopNotice (m active : Nat) (s : State) : State :=
  if !casOn s then s else react (setCas { s.cas with sources := tset 0 m (active % 256) s.cas.sources } s)

/-! ### The other frames of the link -/

/-- The headwater's EUI-64 values: both of a pair. -/
def headEuis (s : State) : List (List Byte) := moduleEui s :: (match s.nv.pair with | some e => [e] | none => [])

/-- The first condition of R499 that a join fails, or 0. -/
def joinCause (m group u site ep plan serial edition claims : Nat) (s : State) : Nat :=
  let own := rd CAS_CTRL_MEMBER s
  let sameGroup := group == rd CAS_CTRL_GROUP_ID s || s.cas.members.any (fun p => p.2.group == group)
  if m = own ∨ (tfind m s.cas.members).isSome then 0x1902
  else if site ≠ rd AIR_SITE_SITE_ID s ∨ ep ≠ s.site.epoch ∨ plan ≠ b2n (planE s) ∨ serial ≠ rd CLM_MAP_SERIAL_SERIAL s ∨ (sameGroup = true ∧ edition ≠ rd AIR_SITE_EDITION s) then 0x1903
  else if (group = rd CAS_CTRL_GROUP_ID s ∧ u = groupU s) ∨ s.cas.members.any (fun p => p.2.group == group && p.2.u == u) = true then 0x1909
  else if claims ≠ 0 then 0x1904 else 0

/-- A frame at the headwater. -/
def headTake (f : CasFrame) (s : State) : State :=
  match f with
  | .join m eui group u site ep plan serial edition claims =>
    let e := joinCause m group u site ep plan serial edition claims s
    if e ≠ 0 then emit (.cas (some m) (.refused e)) s
    else
      let s := memberBit CAS_STATUS_PRESENT m true (setCas { s.cas with members := tins m { eui := eui, group := group, u := u } s.cas.members } s)
      raise 228 (emit (.cas (some m) (.accept (headEuis s) ((keyOfUsage 6 s).getD []))) s)
  | .leave m =>
    if (tfind m s.cas.members).isNone then s
    else if s.clm.claims.any (fun p => p.2.owner / 256 == m) then emit (.cas (some m) (.leaveAnswer 0x1904)) s
    else emit (.cas (some m) (.leaveAnswer 0)) (dropMember m s)
  | .request m ws => if (tfind m s.cas.members).isSome && clmState s != 0 then takeReq (reqOf ws true) 4000 (some m) (setReach m true s) else s
  | .progress m l => l.foldl (fun s x => if x.1 / 256 = m then setClm { s.clm with prog := tins x.1 { claim := x.2.1, station := x.2.2.1, hpl := x.2.2.2 } s.clm.prog } s else s) s
  | .echoes m l => l.foldl (fun s x => if x.1 / 256 = m then takeEcho x.1 x.2 s else s) s
  | _ => s

/-- A frame at a tributary. -/
def tribFrame (f : CasFrame) (s : State) : State :=
  match f with
  | .accept euis key =>
    if casState s ≠ 1 then s
    else
      let s := if key = [] then s else storeAgreed 6 key s
      let s := wr PTC_TIME_CFG_SRC 1 (enterCas 2 (setCas { s.cas with heads := euis, joinAt := none, alignedFrom := none, beatAt := some s.clk.frc } s))
      casCmdDone 1 0 0 (airRefresh (setAir { s.air with withheld := true } s))
  | .refused e => if casState s = 1 then casCmdDone 1 4 e (enterCas 0 (setCas { s.cas with joinAt := none } s)) else s
  | .leaveAnswer e => if casState s ≠ 3 then s else if e = 0 then casCmdDone 2 0 0 (leftCascade s) else casCmdDone 2 4 e s
  | .result ws =>
    let b := bytesOf ws
    let hit := fun (x : Nat × Nat × Nat) => x.1 == leAt b 2 2 && x.2.1 == leAt b 4 4
    (pushRecord (rd CLM_FLUME_RES s) ws (setClm { s.clm with forwarded := s.clm.forwarded.filter (fun x => !hit x) } s)).2
  | .note ws => let r := pushRecord (rd CLM_FLUME_NOTE s) ws s; if r.1 then r.2 else count CLM_CNT_NOTE_DROP 1 r.2
  | .replica k c => if casState s = 3 then takeReplica k c s else s
  | _ => s

/-- CASCADE_LINK_FRAME. -/
def linkTake (f : CasFrame) (s : State) : State := if heads s then headTake f s else if isTrib s then tribFrame f s else s

def execHeartbeatTx (s : State) := run heartbeatTx s
def execHeartbeatRx (ok : Bool) (site : Nat) (off : Int) (s : State) := run (fun s => if ok then heartbeatRx site off s else s) s
def execHeadwaterLost (s : State) := run headwaterLost s
def execReconciliation (member : Nat) (freed : List Nat) (orphans : List (Nat × Nat)) (replica : List (Nat × Claim)) (s : State) := run (reconciliation (member % 8) freed orphans replica) s
def execCasJoin (s : State) := run joinCmd s
def execCasJoinTimeout (s : State) := run joinTimeout s
def execAlignHold (s : State) := run alignHold s
def execCasLeave (s : State) := run leaveCmd s
def execCasEvict (target : Nat) (s : State) := run (evictCmd (target % 8)) s
def execLatencyMeasure (l : List (Nat × Option Nat)) (s : State) := run (latency (l.map (fun p => (p.1 % 8, p.2)))) s
def execCascadeStopNotice (member : Nat) (ep : Bool) (active : Nat) (s : State) := run (fun s => if ep || active != tget 0 (member % 8) s.cas.sources then stopNotice (member % 8) active s else s) s
def execCascadeLinkFrame (ok : Bool) (f : CasFrame) (s : State) := run (fun s => if ok then linkTake f s else s) s

end Sys2Proof.Machine
end

