-- ==== Sys2Proof/Machine/Down.lean ====
section
/-!
DEFINITION. Sys2Proof/Machine/Down.lean: the broadcast phase (06_fleet_radio.md, R29 to R33, R168, R175 to R181, R194, R631): freezing a hop's frames, filling them with items, sending them, and RTCM epochs.
-/
namespace Sys2Proof.Machine

/-! ### Items (Table AIR-6) -/

/-- The greatest room for items in a frame (bytes 192 or 96 to the end). -/
def itemRoom (s : State) : Nat := if planE s then 44 else 88
def recordsPer (s : State) : Nat := if planE s then 8 else 16

def itemRank (i : DItem) : Nat := match i.kind with | .grant _ _ => 0 | .call => 0 | .ack _ => 1 | .rdv _ => 1 | .order _ => 2 | .key => 2 | .corr _ => 3

/-- The frame of carrier k and hop h may carry the item (R180). -/
def mayCarry (k h : Nat) (i : DItem) (s : State) : Bool :=
  if i.target = 0xFFFF then true
  else if bit i.target 15 then k == groupU s * carriersPer s + i.target % 512 % carriersPer s
  else carrierOf i.target s == k && hopOf i.target s == h

def header4 (type len target : Nat) : List Byte := leBytes 1 type ++ leBytes 1 len ++ leBytes 2 target

/-- The EUI-64 of a target. -/
def targetEui (t : Nat) (s : State) : List Byte :=
  if bit t 15 then ((ptr? (t % 512) s).map Ptr.eui).getD [] else ((idx? t s).map Idx.eui).getD []

/-- The cycle after c that has a contention slot. -/
def callCycle (c : Nat) (s : State) : Nat := if planE s && c % 2 == 1 then (c + 2) % 2 ^ 32 else (c + 1) % 2 ^ 32

/-- A lane of this module whose contention slot of cycle c nobody holds, the partner's own before any other. -/
def callLane (c lane : Nat) (s : State) : Option Nat :=
  (lane :: (List.range (lanesPer s)).map (fun g => groupU s * lanesPer s + g)).find? (fun g => !reservedLane c g s)

/-- The order that an ORDER item carries, while it is in flight (R194). -/
def itemOrder (target num : Nat) (s : State) : Option Order :=
  match inFlight target s with
  | some o => if o.num = num then some o else none
  | none => none

/-- Bytes an item takes, its header included; none while there is nothing to place. -/
def itemSize (c : Nat) (i : DItem) (s : State) : Option Nat :=
  match i.kind with
  | .grant b _ => some (4 + b.length)
  | .ack b => some (4 + b.length)
  | .rdv _ => some 28
  | .call => (match ptr? (i.target % 512) s with | some x => (callLane (callCycle c s) x.lane s).map (fun _ => 12) | none => none)
  | .key => s.key.bkey.map (fun _ => 28)
  | .order n => (itemOrder i.target n s).map (fun o => 16 + o.data.length)
  | .corr b => some (4 + b.length)

/-- The item as cycle c's frame carries it, and the state after: an RDV takes the next SEQ, a CALL reserves its slot, the first KEY starts the count of R192. -/
def itemBytes (c : Nat) (i : DItem) (s : State) : List Byte × State :=
  let t := i.target
  let key := (linkKey (targetEui t s) s).getD []
  match i.kind with
  | .grant b _ => (header4 2 b.length t ++ b, s)
  | .ack b => (header4 3 b.length t ++ b, s)
  | .rdv fcnt =>
    let p := t % 512
    let x := (ptr? p s).getD { st := .granted }
    let q := (getEntry p 24 1 s + 1) % 256
    let b := header4 5 24 t ++ leBytes 4 fcnt ++ leBytes 4 x.next ++ leBytes 4 x.sentPeriod ++ leBytes 4 (getEntry p 8 4 s) ++ leBytes 2 (getEntry p 14 2 s)
      ++ leBytes 1 x.lane ++ leBytes 1 q
    (b ++ (itemMic key t 5 c b [] s).2, putEntry p 24 1 q s)
  | .call =>
    let p := t % 512
    match ptr? p s with
    | some x =>
      let cc := callCycle c s
      let g := (callLane cc x.lane s).getD x.lane
      (header4 6 8 t ++ leBytes 4 cc ++ leBytes 1 g ++ leBytes 3 0, setPtr p { x with callAt := some (cc, g) } s)
    | none => ([], s)
  | .key =>
    let k := s.key.bkey.getD (0, [])
    let b := header4 7 24 t ++ leBytes 1 k.1 ++ leBytes 3 0
    let m := itemMic key t 7 c b k.2 s
    (b ++ m.1 ++ m.2, if s.air.keyFrom.isNone then setAir { s.air with keyFrom := some c } s else s)
  | .order n =>
    match itemOrder t n s with
    | some o =>
      let b := header4 4 (12 + o.data.length) t ++ leBytes 4 o.num ++ leBytes 1 o.kind ++ leBytes 1 (o.flags % 2) ++ leBytes 2 0 ++ o.data
      (b ++ (itemMic key t 4 o.num b [] s).2, s)
    | none => ([], s)
  | .corr b => (header4 8 b.length t ++ b, s)

/-- What filling a frame has reached: room left, bytes placed, items placed, targets that wait. -/
structure Fill where
  room : Nat
  bytes : List Byte := []
  placed : List DItem := []
  waiting : List Nat := []
  deriving DecidableEq, Repr

/-- R33: one item after the other in rank; one that does not fit is carried and counted, and its target waits behind it. An ORDER stays among the items until its echo. -/
def fillItem (c : Nat) (i : DItem) (f : Fill) (s : State) : Fill × State :=
  if f.waiting.contains i.target then (f, s)
  else
    match itemSize c i s with
    | none => (f, s)
    | some n =>
      if f.room < n then ({ f with waiting := i.target :: f.waiting }, count AIR_CNT_ITEM_DEFER 1 s)
      else
        let r := itemBytes c i s
        let keep := match i.kind with | .order _ => true | _ => false
        let s := if keep then r.2 else setAir { r.2.air with items := r.2.air.items.erase i } r.2
        ({ f with room := f.room - n, bytes := f.bytes ++ r.1, placed := f.placed ++ [i] }, s)

def fillAll (c : Nat) : List DItem → Fill → State → Fill × State
  | [], f, s => (f, s)
  | i :: t, f, s => let r := fillItem c i f s; fillAll c t r.1 r.2

/-- The beacon (R181). -/
def beacon (s : State) : List Byte :=
  header4 1 (4 + channelsN s) 0xFFFF ++ leBytes 1 (b2n (planE s) + 2 * (groupN s / 2) + 8 * (groupU s % 8)) ++ leBytes 1 (rd AIR_SITE_EDITION s)
    ++ leBytes 1 (channelsN s) ++ leBytes 1 0 ++ (hopPerm s).map (BitVec.ofNat 8)

/-! ### The freeze (R31, R179 to R181, R480) -/

/-- The records of carrier k in hop h: record i belongs to m = (k - u kappa) + kappa h + 4 kappa i. -/
def frameRecords (c k h : Nat) : List Nat → State → List Byte × State
  | [], s => ([], s)
  | i :: t, s =>
    let n := carriersPer s
    let m := (k - groupU s * n) + n * h + 4 * n * i
    let r := setpoint m c s
    let q := frameRecords c k h t r.2
    (r.1 ++ q.1, q.2)

/-- Freezes the frame of carrier k. -/
def freezeFrame (c h k : Nat) (s : State) : State :=
  let r := frameRecords c k h (List.range (recordsPer s)) s
  let s := r.2
  let first := h == 0 && k == groupU s * carriersPer s + c % carriersPer s
  let b0 := if first then beacon s else []
  let items := sortBy (fun a b => decide (itemRank a ≤ itemRank b)) (s.air.items.filter (fun i => mayCarry k h i s))
  let f := fillAll c items { room := itemRoom s - b0.length, bytes := b0 } s
  let s := f.2
  let flags := b2n (on STP_STATUS_PERMIT s) + airFlags s + 8 * b2n (decide (2 ≤ lane s ∧ lane s ≤ 4))
  let b := downHeader 1 flags c k h s ++ r.1 ++ padTo (itemRoom s) f.1.bytes
  let m := downMic c k h b s
  let d : DFrame := { cycle := c, carrier := k, hop := h, channel := channelAt (downIndex k h c s) s, bytes := b, mic := m.1, items := f.1.placed }
  setAir { m.2.air with frames := m.2.air.frames ++ [d] } m.2

/-- AIR sends BROADCAST hops (Table AIR-16, R626), a burst on air or not. -/
def sendsHops (s : State) : Bool :=
  on AIR_CTRL_EN s && s.air.calDone && inRun s && s.clk.siteSet && on AIR_CTRL_TX_EN s && !s.air.withheld

/-- Hop (c, h) comes before the hop that a YIELD named. -/
def beforeYield (c h : Nat) (s : State) : Bool :=
  match s.twn.yieldAt with
  | some (cy, hy) => let d := sgn 32 (c + 2 ^ 32 - cy); decide (d < 0 ∨ (d = 0 ∧ h < hy))
  | none => false

/-- The fence of the pair: without the acknowledgement the partner counts as STALE from here on (R480). -/
def fence (ack : Bool) (s : State) : State :=
  if twnRole s = 2 ∧ !s.twn.partnerStale ∧ !ack then count TWN_CNT_FENCE_TIMEOUT 1 (setTwn { s.twn with partnerStale := true } s) else s

/-- A standby computes its shadow of the records (Table TWN-4). -/
def shadowRecords (c h : Nat) (s : State) : State :=
  (carriers s).foldl (fun s k => (frameRecords c k h (List.range (recordsPer s)) s).2) s

/-- FRAME_FREEZE. -/
def frameFreeze (h : Nat) (ack : Bool) (s : State) : State :=
  let c := freezeCycle h s
  let s := if h = 0 && !shadowing s && !s.pwr.off then lanePermit s else s
  if !inRun s then s
  else
    let s := completeFrames s
    if shadowing s && !(twnRole s == 3 && beforeYield c h s) then (if on AIR_CTRL_EN s && s.clk.siteSet then shadowRecords c h s else s)
    else if twnRole s == 2 && beforeYield c h s then s
    else
      let s := if twnRole s = 2 then setTwn { s.twn with yieldAt := none } s else s
      if !sendsHops s then s
      else (carriers s).foldl (fun s k => freezeFrame c h k s) (fence ack s)

/-! ### The hop (R168, R175, R197, R631) -/

/-- From hop start to the first preamble symbol, and the air time of a frame (Table AIR-3). -/
def leadNs (s : State) : Nat := if planE s then 250000 else 2000
def frameNs (s : State) : Nat := if planE s then 5504000 else 2496000

/-- A grant that goes out shows the program its join once (R645). -/
def joinNotice (i : DItem) (s : State) : State :=
  match i.kind with
  | .grant _ (some n) =>
    let r := pushBytes (rd AIR_FLUME_RX s) n s
    if r.1 then r.2 else raise 128 (count AIR_CNT_RX_DROP 1 r.2)
  | _ => s

def noticed (i : DItem) : DItem := match i.kind with | .grant b _ => { i with kind := .grant b none } | _ => i

/-- One frozen frame at its hop start t: withheld (R631, R168), skipped (R197), or sent. -/
def sendFrame (t : Nat) (busy : List Nat) (f : DFrame) (s : State) : State :=
  if !sendsHops s then dropFrame f AIR_CNT_TX_WITHHELD 0x0A0D none s
  else if bursting s then dropFrame f AIR_CNT_TX_ABANDONED 0x0A08 (some 126) s
  else if planE s && busy.contains f.carrier then dropFrame f AIR_CNT_LBT_BUSY 0x0A09 (some 127) s
  else
    let fin := t + hopNs s
    if dwellLimit f.channel s - dwellReserve s < dwellUsed f.channel fin s + hopNs s then dropFrame f AIR_CNT_HOP_SKIP 0x0A07 (some 124) s
    else
      let s := f.items.foldl (fun s i => joinNotice i s) s
      let g : DFrame := { f with items := f.items.map noticed, onAir := some (t + leadNs s + frameNs s) }
      let s := setAir { s.air with frames := s.air.frames.map (fun x => if x = f then g else x) } s
      charge f.channel t fin false (emit (.radio f.carrier f.channel (t + leadNs s) (onAirBytes (f.bytes ++ f.mic))) s)

/-- After the hop that its YIELD named, the former active stops transmitting (Table TWN-2). -/
def endYield (c h : Nat) (s : State) : State :=
  match s.twn.yieldAt with
  | some y => if twnRole s = 3 ∧ !beforeYield c h s ∧ y ≠ (c, h) then txOff (setTwn { s.twn with yieldAt := none } s) else s
  | none => s

/-- HOP_TRANSMIT: hop h of the present cycle begins; a new active whose lane is LATCHED sends the burst in its place (R485). -/
def hopTransmit (h : Nat) (busy : List Nat) (s : State) : State :=
  let s := completeFrames s
  let c := cycleNo s
  let t := siteNs s - cyclePhase s + h * hopNs s
  let s := endYield c h s
  let due := s.twn.burstDue
  let s := setTwn { s.twn with burstDue := false } s
  if due && decide (lane s = 2) && mayBurst s then
    startBurst t (setStp { s.stp with repeats := rd STP_BURST_REPEAT s } (dropFrames AIR_CNT_TX_ABANDONED 0x0A08 (some 126) s))
  else (s.air.frames.filter (fun f => f.onAir.isNone && f.cycle == c && f.hop == h)).foldl (fun s f => sendFrame t busy f s) s

/-! ### RTCM epochs (R54, R61; CORR items) -/

/-- Cuts bytes into cutBytes of n; fuel bounds their number. -/
def cutBytes (n : Nat) : Nat → List Byte → List (List Byte)
  | 0, _ => []
  | f + 1, l => if l = [] then [] else l.take n :: cutBytes n f (l.drop n)

/-- The RTCM messages in a byte string, by the length in each frame (10 bits after six of zeros; 6 bytes around the message). -/
def rtcmSplit : Nat → List Byte → List (List Byte)
  | 0, _ => []
  | f + 1, l =>
    if l = [] then []
    else let n := leAt l 1 1 % 4 * 256 + leAt l 2 1 + 6; l.take n :: rtcmSplit f (l.drop n)

/-- One message as CORR items, each filling at most a frame's room; one that needs more than 16 fragments cannot be carried. -/
def queueCorr (m : List Byte) (s : State) : State :=
  let fr := cutBytes (itemRoom s - 6) 17 m
  if 16 < fr.length then s
  else
    let q := s.air.corrSeq
    let n := fr.length
    let items := (List.range n).map (fun j => ({ target := 0xFFFF, kind := .corr (leBytes 1 q ++ leBytes 1 (j + 16 * (n - 1)) ++ fr.getD j []) } : DItem))
    setAir { s.air with corrSeq := (q + 1) % 256, items := s.air.items ++ items } s

/-- RTCM_EPOCH. -/
def rtcmEpoch (msgs air : List Byte) (taken : List (Nat × Nat)) (s : State) : State :=
  let s' := rtcmOut msgs taken s
  if !on REF_CTRL_EN s || !awake s || !on AIR_CTRL_EN s || rd REF_RTCM_AIR_RATE s = 0 then s'
  else (rtcmSplit air.length air).foldl (fun s m => queueCorr m s) s'

def execFrameFreeze (h : Nat) (ack : Bool) (s : State) := run (frameFreeze (h % 4) ack) s
def execHopTransmit (h : Nat) (busy : List Nat) (s : State) := run (hopTransmit (h % 4) busy) s
def execRtcmEpoch (msgs air : List Byte) (taken : List (Nat × Nat)) (s : State) := run (rtcmEpoch msgs air taken) s

end Sys2Proof.Machine
end

