-- ==== Sys2Proof/Machine/Ctl.lean ====
section
/-!
DEFINITION. Sys2Proof/Machine/Ctl.lean: control space as its users meet it (00_scope.md, R12 to R18, R623; 21_register_index.md): a write by its class with every effect of its own, a read with the registers that show what an engine holds,
commit points, and the start of an air cycle.
-/
namespace Sys2Proof.Machine

/-! ### When a register's block is active (R17 and the conditions of the chapters) -/

/-- Index of an offset in a run of registers that starts at base with a stride. -/
def idxIn (base stride off : Nat) : Nat := (off - base) / stride

/-- Block n is active as far as the register at an offset goes. -/
def activeAt (n off : Nat) (s : State) : Bool :=
  let i := instOf n
  match groupOf n with
  | 0 => true
  | 1 => true
  | 5 => true
  | 12 => true
  | 30 => rd CCX_CTRL_EN s != 0
  | 2 => on EVT_CTRL_EN s
  | 3 => on MRC_CTRL_EN s
  | 4 => if 0x1000 ≤ off ∧ off < 0x2000 then on (FLM_CFG_EN (idxIn 0x1000 0x20 off)) s else on FLM_CTRL_EN s
  | 6 => on REF_CTRL_EN s
  | 7 => on SOL_CTRL_EN s
  | 8 => on CLM_CTRL_EN s
  | 9 => on PRO_CTRL_EN s
  | 10 => on AIR_CTRL_EN s
  | 11 => on WKR_CTRL_EN s
  | 13 =>
    if 0x40 ≤ off ∧ off < 0x80 then on (ETH_RING_CTRL_EN i (idxIn 0x40 0x10 off)) s
    else if 0x80 ≤ off ∧ off < 0x100 then on (ETH_TXQ_CTRL_EN i (idxIn 0x80 0x10 off)) s
    else if off = 0x30 then (List.range 4).any (fun p => on (ETH_CTRL_EN p) s)
    else if 0x1000 ≤ off ∧ off < 0x1800 then on (ETH_GCL_CTRL_EN i) s && rd (ETH_GCL_CTRL_OPER i) s == (off - 0x1000) / 0x400
    else on (ETH_CTRL_EN i) s
  | 17 => on PTC_CTRL_EN s
  | 18 => if 0x1000 ≤ off ∧ off < 0x2400 then on (CAN_MB_CTRL_PEND i (idxIn 0x1000 0x50 off)) s else on (CAN_CTRL_EN i) s
  | 20 => on (SER_CTRL_EN i) s
  | 22 => if 0x1000 ≤ off ∧ off < 0x1200 then axisSt (idxIn 0x1000 0x40 off) s != 0 else on AXS_CTRL_EN s
  | 23 => on DIO_CTRL_EN s
  | 24 => on TWN_CTRL_EN s
  | 25 => on CAS_CTRL_EN s
  | 26 => on KEY_CTRL_EN s
  | 27 => on UPD_CTRL_EN s
  | 28 => on OTP_STATUS_BUSY s
  | 29 => on FSH_CTRL_EN s
  | _ => false

/-! ### Who owns a register (R377, R476, R495), and what it refuses -/

/-- The configuration event of block n (Table EVT-2). -/
def cfgEvent (n : Nat) : Nat :=
  match n with
  | 0 => 0 | 30 => 0 | 2 => 1 | 1 => 8 | 5 => 16 | 4 => 24 | 3 => 32 | 6 => 48 | 7 => 64 | 8 => 80 | 9 => 96 | 10 => 112 | 11 => 132 | 12 => 144
  | 13 => 152 | 14 => 160 | 15 => 168 | 16 => 176 | 17 => 184 | 18 => 192 | 19 => 196 | 20 => 200 | 21 => 202 | 22 => 204 | 23 => 216 | 24 => 224 | 25 => 224
  | 26 => 232 | 27 => 235 | 28 => 235 | _ => 240

/-- Registers of ring r or of queue q of an Ethernet port. -/
def ofRing (r off : Nat) : Bool := decide (0x40 + 0x10 * r ≤ off ∧ off < 0x50 + 0x10 * r)
def ofQueue (q off : Nat) : Bool := decide (0x80 + 0x10 * q ≤ off ∧ off < 0x90 + 0x10 * q)

/-- A register that belongs to the steward (ring 3 and queue 6 of E0), to TWN (its port) or to CAS (ring 2 and queue 7 of its port). -/
def taken (n off : Nat) (s : State) : Bool :=
  groupOf n == 13 &&
    ((instOf n == 0 && (s.site.service || on REF_NTRIP_CFG_EN s) && (ofRing 3 off || ofQueue 6 off))
      || (on TWN_CTRL_EN s && rd TWN_CTRL_PORT s == instOf n)
      || (on CAS_CTRL_EN s && rd CAS_CTRL_PORT s == instOf n && (ofRing 2 off || ofQueue 7 off)))

/-- A word that its field map says is refused: EVT_CREDIT outside R577, PORT of TWN_CTRL (R475), PORT and ROLE of CAS_CTRL. -/
def badWord (n off v : Nat) : Bool :=
  (n == 2 && off == 8 && (decide (bits v 22 10 < 16) || decide (4096 < 4 * bits v 11 11 + 4 * bits v 22 10) || decide (4096 < 4 * bits v 0 11 + 4 * bits v 22 10)))
    || (n == 24 && off == 0 && (bits v 8 2 == 0 || bits v 8 2 == 3))
    || (n == 25 && off == 0 && (bits v 16 2 == 3 || bits v 1 2 == 3))

/-- The write would change an H-class field (R16). -/
def changesHeld (n off v : Nat) (s : State) : Bool :=
  match regAt n off with
  | none => false
  | some r => r.fields.any (fun f => f.cls == .held && f.acc == .rw && bits v f.lo f.width != rd (fldOf n off f) s)

/-- The write would change an output while a double fault holds them (R219). -/
def changesOutput (n off v : Nat) (s : State) : Bool :=
  doubleFaulted s && n == 23 &&
    ((off == 0 && bits v 0 2 != wordAt 23 0 s) || (off == 0x20 && v % 256 != rd DIO_OUT_OUT s) || (off == 0x24 && bits v 8 8 &&& rd DIO_OUT_STAT_OVERCURRENT s != 0))

/-! ### What a write does beside its fields -/

/-- A field core is reset: its item ends ABANDONED with 0x0308 (Table MRC-2), and the core is IDLE, or OFF where its bit of CCX_CTRL.EN is 0. -/
def coreReset (n : Nat) (s : State) : State :=
  let c := coreOf n s
  let s := match c.item with | some q => endItem q 3 0x0308 0 s | none => s
  setCore n { st := if coreEn n s then .idle else .off, ccFrom := s.clk.frc, mhz := coreMhz s } s

/-- What a start-up finds, where a register write commands the reset. -/
def drawBoot (s : State) : Boot × State :=
  let r := fresh s
  ({ fw0 := Config.startCheck r.1 0, fw1 := Config.startCheck r.1 1, siteOk := Config.startCheck r.1 2, migrateOk := Config.startCheck r.1 3,
     bad := Config.startBad r.1, ms := Config.startMs r.1, newEpoch := Config.startEpoch r.1, newTables := Config.startTables r.1 }, r.2)

/-- PWR_CMD. -/
def pwrCommand (c : Nat) (s : State) : State :=
  match c with
  | 1 => pwrRunCmd s
  | 2 => pwrReadyCmd s
  | 3 => pwrWatchCmd s
  | 4 => match drawBoot s with | (b, s) => pwrResetCmd b s
  | _ => pwrOther c s

/-- A bias supply switched off reads as off (Table REF-1). -/
def biasOff (v : Nat) (s : State) : State :=
  let s := if bit v 9 then s else wr REF_STATUS_BIAS1 0 (setRef { s.ref with low1 := 0 } s)
  if bit v 10 then s else wr REF_STATUS_BIAS2 0 (setRef { s.ref with low2 := 0 } s)

/-- REF_CTRL.EN (Table REF-3): a survey's position in site data is taken into use. -/
def refEnable (b : Bool) (s : State) : State :=
  if b == on REF_CTRL_EN s then s
  else if b then
    let p := if rd REF_CTRL_POS_MODE s = 1 then s.ref.pos <|> s.site.surveyed else s.ref.pos
    enterRef 1 (wr REF_CTRL_EN 1 (setRef { s.ref with pos := p, noSat := 0 } s))
  else enterRef 0 (wr REF_CTRL_EN 0 s)

/-- SOL_CTRL.EN (R635). -/
def solEnable (b : Bool) (s : State) : State :=
  if b == on SOL_CTRL_EN s then s
  else if b then enterSol (if refUsable (cycleNo s) s then 1 else 2) (wr SOL_CTRL_EN 1 s)
  else enterSol 0 (wr SOL_CTRL_EN 0 s)

/-- PRO_CTRL.EN. -/
def proEnable (b : Bool) (s : State) : State :=
  if b == on PRO_CTRL_EN s then s
  else if b then showPro (wr PRO_CTRL_EN 1 s)
  else enterPro 0 (wr PRO_CTRL_EN 0 s)

/-- AIR_CTRL after its fields have changed: frames end withheld when transmission stops (R631), and calibration is due again when AIR has been off. -/
def airCtrl (was : Bool) (s : State) : State :=
  let s := if was && !(on AIR_CTRL_EN s && on AIR_CTRL_TX_EN s) then dropFrames AIR_CNT_TX_WITHHELD 0x0A0D none s else s
  airRefresh (if on AIR_CTRL_EN s then s else setAir { s.air with calDone := false } s)

/-- One word of MRC_GRAPH_EN. -/
def graphWord (n v : Nat) (s : State) : State :=
  (List.range 32).foldl (fun s i => if bit v i then graphEnable (32 * n + i) s else graphDisable (32 * n + i) s) s

/-- PTC_CTRL.EN: the best master is chosen anew, or no port serves PTP. -/
def ptcEnable (b : Bool) (s : State) : State :=
  if b == on PTC_CTRL_EN s then s
  else react (runBmca (wr PTC_CTRL_EN (b2n b) (if b then s else { s with ptc := { s.ptc with ports := [] } })))

/-- AXS_CTRL.EN cleared: no pulse goes out any more, and every axis is disabled. -/
def axsEnable (b : Bool) (s : State) : State :=
  if b || !on AXS_CTRL_EN s then wr AXS_CTRL_EN (b2n b) s
  else
    (List.range 8).foldl (fun s n =>
      let s := axisOff n s
      match chan? (256 + n) s with
      | some c => axisRest n (setChan (256 + n) { c with v := 0, a := 0 } s)
      | none => s) (wr AXS_CTRL_EN 0 s)

/-- TWN_CTRL.EN: a module with a pair in site data starts (Table TWN-2). -/
def twnEnable (b : Bool) (s : State) : State :=
  let was := on TWN_CTRL_EN s
  let s := wr TWN_CTRL_EN (b2n b) s
  if b && !was && twnRole s == 0 && s.nv.pair.isSome then enterRole 1 (setTwn { s.twn with startAt := s.clk.frc } s) else s

/-- CAS_CTRL.EN and ROLE: CLM's mode follows, and a headwater shows state 6. -/
def casCtrl (was : Bool) (v : Nat) (s : State) : State :=
  let b := bit v 0
  let s := wr CLM_CTRL_MODE (if b then rd CAS_CTRL_ROLE s else 0) (wr CAS_CTRL_EN (b2n b) s)
  if b == was then s
  else if b then enterCas (if rd CAS_CTRL_ROLE s = 1 then 6 else 0) s
  else
    enterCas 0 (withhold false (wr CAS_STATUS_PRESENT 0 (wr CAS_STATUS_UNREACH 0 (setCas { regs := s.cas.regs } s))))

/-- The commands of OTP_CMD. -/
def otpCommand (v : Nat) (s : State) : State :=
  match bits v 0 4 with
  | 1 =>
    let r := fresh s
    otpWrite (Config.editionBytes r.1) (Config.fusesTake r.1 0) (Config.fusesTake r.1 1) r.2
  | 2 => otpAdvance (bits v 4 2) (bits v 8 7) s
  | c => otpCmdDone c 4 0x1CF3 s

/-- The commands of TWN_CMD. -/
def twnCommand (c : Nat) (s : State) : State :=
  match c with
  | 1 => yieldCmd s
  | 2 => resyncCmd s
  | 3 => let r := fresh s; pairCmd (Config.partnerPart r.1) r.2
  | 4 => let r := fresh s; unpairCmd (Config.partnerAgrees r.1) r.2
  | _ => twnCmdDone c 4 0x18F3 s

/-- One register's effect beside its plain fields: the lowest bits of the fields it writes itself, and what it does once the others are written. pre is the state before the write. -/
def special (n off v : Nat) (pre : State) : Option (List Nat × (State → State)) :=
  let i := instOf n
  let c := bits v 0 4
  match groupOf n with
  | 1 =>
    if off = 0 then some ([0], fun s => if bit v 0 then autoRunSet s else wr PWR_CTRL_AUTO_RUN 0 s)
    else if off = 8 then some ([0], fun s => pwrCommand c s)
    else none
  | 2 =>
    if off = 0x0C then some ([0, 8], fun s => if c = 1 then evtClear (bits v 8 5) s else cmdResQuiet 2 0 0x10 c 4 0x02F3 s)
    else if off = 0x18 then some ([1], fun s => softwareEvents v s)
    else none
  | 3 =>
    if off = 0 then some ([0], fun s => if bit v 0 then millraceOn s else millraceOff s)
    else if off = 0x0C then some ([0, 16], fun s => match c with | 1 => cancelFlow (bits v 16 12) s | 2 => cancelOp (bits v 16 10) s | _ => mrcCmdDone c 4 0x03F3 s)
    else if off = 0x38 then some ([0], fun s => if bit v 0 then wr MRC_LAT_MAX 0 s else s)
    else if off < 0x1000 then
      (if (MRC_GRAPH_EN 0).key = 32 * off then some ([0], fun s => graphWord 0 v s)
       else if (MRC_GRAPH_EN 1).key = 32 * off then some ([0], fun s => graphWord 1 v s) else none)
    else none
  | 4 =>
    if off = 0 then some ([0], fun s => if bit v 0 then wr FLM_CTRL_EN 1 s else flumesOff s)
    else if off = 0x0C then some ([0, 8], fun s => if c = 1 then flushCmd (bits v 8 7) s else flmCmdDone c 4 0x04F3 s)
    else if 0x1000 ≤ off ∧ off < 0x2000 ∧ off % 0x20 = 0 then
      some ([31], fun s => let f := idxIn 0x1000 0x20 off; if bit v 31 then flumeEnable f s else flumeDisable f s)
    else none
  | 5 =>
    if off = 8 then some ([0], fun s => match c with | 1 => scrubRestart s | 2 => injectError s | 3 => memCmdDone 3 0 0 (clearErr 5 s) | _ => memCmdDone c 4 0x05F3 s)
    else none
  | 6 =>
    if off = 0 then some ([0], fun s => refEnable (bit v 0) (biasOff v s))
    else if off = 4 then some ([0], fun s => refCmd c s)
    else if off = 0x88 then some ([], fun s => if bit v 0 then s else wr REF_NTRIP_STATUS_CLIENTS 0 (setRef { s.ref with clients := [] } s))
    else none
  | 7 =>
    if off = 0 then some ([0], fun s => solEnable (bit v 0) s)
    else if off = 0x20 then some ([0, 8], fun s => let k := bits v 8 4; if k = 1 ∨ k = 2 then machCmd k (bits v 0 8) s else solCmdDone (bits v 0 8) k 4 0x07F3 s)
    else if off = 0x2C then some ([0], fun s => if bit v 0 then wr SOL_LAT_MAX 0 s else s)
    else none
  | 8 =>
    if off = 0 then some ([0], fun s => if bit v 0 then clmOn s else clmOff s)
    else if off = 8 then some ([0], fun s => match c with | 1 => mapLoad s | 2 => mapUnload s | _ => clmCmdDone c 4 0x08F3 s)
    else if off = 0x28 then some ([0], fun s => if bit v 0 then wr CLM_LAT_MAX 0 s else s)
    else none
  | 9 =>
    if off = 0 then some ([0], fun s => proEnable (bit v 0) s)
    else if 0x4000 ≤ off ∧ off < 0x4400 ∧ off % 0x10 = 0 then
      some ([31], fun s => let f := idxIn 0x4000 0x10 off; if bit v 31 then (if on (PRO_FENCE_CTRL_EN f) s then s else fenceEnable f s) else wr (PRO_FENCE_CTRL_EN f) 0 s)
    else none
  | 10 =>
    if off = 0 then some ([], fun s => airCtrl (on AIR_CTRL_EN pre && on AIR_CTRL_TX_EN pre) s)
    else if off = 0x1C then some ([0, 8], fun s => match c with | 1 => releaseIndex (bits v 8 8) s | 2 => cancelOrdersCmd (bits v 8 8) s | _ => airCmdDone (bits v 8 8) c 4 0x0AF3 s)
    else none
  | 11 =>
    if off = 0x20 then some ([0, 8], fun s => match c with | 1 => releasePartner (bits v 8 9) s | 2 => wkrCall (bits v 8 9) s | _ => wkrCmdDone (bits v 8 9) c 4 0x0BF3 s)
    else none
  | 12 =>
    if off = 8 then some ([0], fun s => match c with | 1 => stopCmd s | 2 => clearProgram s | 3 => releaseCmd s | 4 => overrideCmd s | _ => stpCmdDone c 4 0x0CF3 s)
    else if off = 0x30 then some ([0], fun s => if bit v 0 then wr STP_LAT_MAX 0 s else s)
    else none
  | 13 =>
    if off = 0 then some ([0], fun s => if bit v 0 then wr (ETH_CTRL_EN i) 1 s else if on (ETH_CTRL_EN i) s then ethOff i s else s)
    else if off = 0x28 then some ([0, 8], fun s =>
      match c with | 1 => restartAn i s | 2 => verifyCmd i s | 3 => flushTxq i (bits v 8 3) s | 4 => gclSwitch i s | _ => ethCmdDone i c 4 0xF3 s)
    else if 0x40 ≤ off ∧ off < 0x80 ∧ off % 0x10 = 4 then
      some ([31], fun s => let r := idxIn 0x40 0x10 off; if bit v 31 then (if on (ETH_RING_CTRL_EN i r) s then s else ringOn i r s) else ringOff i r s)
    else if 0x40 ≤ off ∧ off < 0x80 ∧ off % 0x10 = 8 then some ([0], fun s => ringReturn i (idxIn 0x40 0x10 off) (bits v 0 11) s)
    else if 0x80 ≤ off ∧ off < 0x100 ∧ off % 0x10 = 4 then
      some ([30, 31], fun s =>
        let q := idxIn 0x80 0x10 off
        let s := if bit v 31 then (if on (ETH_TXQ_CTRL_EN i q) s then s else txqOn i q s) else if on (ETH_TXQ_CTRL_EN i q) s then txqOff i q s else s
        if bit v 30 then txqKick i q s else s)
    else none
  | 17 =>
    if off = 0 then some ([0], fun s => ptcEnable (bit v 0) s)
    else if off = 0x48 then some ([0], fun s => react (match c with | 1 => stepPortCmd s | 2 => reselectCmd s | _ => ptcCmdDone c 4 0x11F3 s))
    else none
  | 18 =>
    if off = 0 then some ([0, 4], fun s =>
      let s := if bit v 4 then (if on (CAN_CTRL_SLEEP i) s then s else canSleep i s) else if on (CAN_CTRL_SLEEP i) s then canUnsleep i s else s
      if bit v 0 then canEnable i s else if on (CAN_CTRL_EN i) s then (let r := fresh s; canDisable i (Config.frameOnBus r.1) r.2) else s)
    else if off = 0x10 then some ([0], fun s => if c = 1 then canRecover i s else canCmdDone i c 4 0xF3 s)
    else if 0x1000 ≤ off ∧ off < 0x2400 ∧ (off - 0x1000) % 0x50 = 4 then
      some ([30, 31], fun s =>
        let m := idxIn 0x1000 0x50 off
        let s := if bit v 31 then mbPend i m s else s
        if bit v 30 then (let r := fresh s; mbAbort i m (Config.frameOnBus r.1) r.2) else s)
    else none
  | 22 =>
    if off = 0 then some ([0], fun s => axsEnable (bit v 0) s)
    else if off = 0x0C then some ([0, 8], fun s =>
      let a := bits v 8 3
      match c with | 1 => homeCmd a s | 2 => setPosCmd a s | 3 => clearFaultCmd a s | 4 => abortHomeCmd a s | _ => axsCmdDone a c 4 0x16F3 s)
    else if 0x1000 ≤ off ∧ off < 0x1200 ∧ off % 0x40 = 0 then
      some ([31], fun s => let a := idxIn 0x1000 0x40 off; if bit v 31 then axisOn a s else axisOff a s)
    else none
  | 23 =>
    if off = 0 then some ([], fun s => showOut s)
    else if off = 0x20 then some ([0], fun s => dioWrite (v % 256) s)
    else if off = 0x24 then some ([8], fun s => (List.range 8).foldl (fun s k => if bit v (8 + k) && fbit DIO_OUT_STAT_OVERCURRENT k s then overcurrentClear k s else s) s)
    else none
  | 24 =>
    if off = 0 then some ([0], fun s => twnEnable (bit v 0) s)
    else if off = 0x20 then some ([0], fun s => twnCommand c s)
    else none
  | 25 =>
    if off = 0 then some ([0], fun s => casCtrl (on CAS_CTRL_EN pre) v s)
    else if off = 0x20 then some ([0, 8], fun s => match c with | 1 => joinCmd s | 2 => leaveCmd s | 3 => evictCmd (bits v 8 3) s | _ => casCmdDone c 4 0x19F3 s)
    else none
  | 26 =>
    if off = 0x0C then some ([0], fun s => match c with | 1 => rotateCmd s | 2 => keyDebugEnable s | 3 => closeWindow s | _ => keyCmdDone c 4 0x1AF3 s)
    else none
  | 27 =>
    if off = 0x38 then some ([0, 8], fun s => match c with | 1 => abortCmd s | 2 => verifyCmd2 (bits v 8 3) s | 3 => activateCmd (bits v 8 3) s | _ => updCmdDone c 4 0x1BF3 s)
    else none
  | 28 => if off = 0x10 then some ([0, 4, 8], fun s => otpCommand v s) else none
  | 30 =>
    if off = 0 then some ([0], fun s => setCoreEn (bits v 0 16) s)
    else if 0x1000 ≤ off ∧ off < 0x2000 ∧ off % 0x100 = 0 then some ([0], fun s => if bit v 0 then coreReset (idxIn 0x1000 0x100 off) s else s)
    else none
  | _ => none

/-! ### A write (R14 to R16) -/

/-- An S-class field takes its value at once: while the block does not run; in STP while site time has not been set (R237); in KEY, which has no operation in progress between commands (R528). -/
def commitsAtOnce (n off : Nat) (s : State) : Bool := !activeAt n off s || (n == 12 && !s.clk.siteSet) || n == 26

/-- One plain field of a register takes its bits of a word. -/
def putField (n off v : Nat) (now : Bool) (s : State) (f : FDef) : State :=
  let x := bits v f.lo f.width
  let g := fldOf n off f
  let k := g.blk * 0x100000000 + g.key
  match f.acc with
  | .ro => s
  | .wo => s
  | .w1c => wr g (rd g s - (rd g s &&& x)) s
  | .w1s => wr g (rd g s ||| x) s
  | .rw =>
    if f.cls = .shadowed then
      if now then wr g x { s with held := tdel k s.held } else { s with held := tins k x s.held }
    else wr g x s

/-- ETH_POOL and ETH_POOL_STATUS are ETH0's alone. -/
def hidden (n off : Nat) : Bool := groupOf n == 13 && instOf n != 0 && (off == 0x30 || off == 0x34)

/-- Blocks and fields whose writes an active twin mirrors (Table TWN-3). -/
def mirrored (n off : Nat) : Bool :=
  (decide (6 ≤ n ∧ n ≤ 12) || n == 22 || n == 23) &&
    (match regAt n off with | some r => r.fields.any (fun f => f.acc == .rw && (f.cls == .shadowed || f.cls == .held)) | none => false)

/-- The fields and effects of an accepted write. -/
def acceptWord (n off v : Nat) (s : State) : State :=
  match regAt n off with
  | none => s
  | some r =>
    let now := commitsAtOnce n off s
    let x := special n off v s
    let own := match x with | some p => p.1 | none => []
    let t := (r.fields.filter (fun f => !own.contains f.lo)).foldl (fun s f => putField n off v now s f) s
    let t := match x with | some p => p.2 t | none => t
    if twnRole s = 2 && mirrored n off then issue (.write (addrOf n off) v) t else t

/-- The flume that a write to FLM_CFG_n would enable against R333, LOG2 being as written: the write is refused whole. -/
def badFlume (n off v : Nat) (s : State) : Option Nat :=
  let f := idxIn 0x1000 0x20 off
  if n = 4 ∧ 0x1000 ≤ off ∧ off < 0x2000 ∧ off % 0x20 = 0 ∧ bit v 31 = true ∧ on (FLM_CFG_EN f) s = false ∧ flumeValid f (wr (FLM_CFG_LOG2 f) (bits v 8 5) s) = false then some f else none

/-- A write of word v to control space (R12 to R16): the error of a refusal (0: none), and the state after. who is 0 to 15 for a field core, 16 for the steward, 17 for the host. -/
def writeControl (who addr v : Nat) (s : State) : Nat × State :=
  let n := blkOfAddr addr
  let off := offOfAddr addr
  let refuse := fun (cause : Nat) => (n * 256 + cause, cfgRefuse (groupOf n) (instOf n) (cfgEvent n) off s)
  if s.pwr.off || decide (addr < 0xE0000000 ∨ 0xE01F0000 ≤ addr) || addr % 4 != 0 || (who != 16 && decide (26 ≤ n ∧ n ≤ 29)) || (who == 17 && n == 30) || hidden n off then (0, s)
  else if n = 2 ∧ off = 0x14 then (0, wdogWrite who v s)
  else if n = 3 ∧ 0x8000 ≤ off then
    let k := (off - 0x8000) / 0x20
    let s' := descriptorWrite k ((off - 0x8000) / 4 % 8) v s
    (if opLoaded k s && graphOn (opGraph k s) s then 0x3F1 else 0, s')
  else if (regAt n off).isNone then (0, s)
  else if who ≠ 16 ∧ taken n off s = true then refuse 0x0D
  else if badWord n off v then (if n = 2 then (0x0206, report 0x0206 off (refuse 0x06).2) else refuse 0xF1)
  else if changesOutput n off v s then (0x1705, report 0x1705 off s)
  else if activeAt n off s && changesHeld n off v s then refuse 0xF1
  else
    match badFlume n off v s with
    | some f => (0x0403, flumeRefused f s)
    | none => (0, acceptWord n off v s)

/-! ### A read (R12 to R14; the registers that show what an engine holds) -/

/-- A number with bit i set for each i below k that p picks. -/
def maskOf (k : Nat) (p : Nat → Bool) : Nat := (List.range k).foldl (fun (a : Nat) i => a + b2n (p i) * 2 ^ i) 0

/-- STATE of CCX_CORE_STATUS_n. -/
def coreCode (c : Core) : Nat := match c.st with | .off => 0 | .idle => 1 | .op => 2 | .run => 3 | .halted => 4

/-- PRO_CH_STATUS, LIMIT, POS and VEL of channel n, by the register's place in the run. -/
def chanWord (n w : Nat) (s : State) : Nat :=
  match chan? n s with
  | none => 0
  | some c =>
    match w with
    | 0 => 2 ^ 31 + b2n c.late * 2 ^ 30 + b2n c.deferred * 2 ^ 29 + c.kind % 8 * 2 ^ 26 + min 31 c.queue.length * 2 ^ 21 + c.phase % 8 * 2 ^ 18 + modeCode c.mode * 2 ^ 16
    | 1 => enc 32 (c.lim / fineOf n)
    | 2 => enc 32 (c.st / fineOf n)
    | _ => enc 32 (c.v / (if n < 256 then fineV else 125000000000))

/-- The word of OTP that OTP_READ_SEL selects: the factory block, or an edition with its SEAL (Table UPD-9). -/
def otpWord (s : State) : Nat :=
  let k := rd OTP_READ_SEL_BLOCK s
  let w := rd OTP_READ_SEL_WORD s
  if k = 0 then ofLe ((List.range 4).map (fun i => Config.factoryByte (4 * w + i)))
  else match tfind k s.otp.editions with
    | some e => if w = 255 then (if e.sealed then 0x3C5AC3A5 else 0) else leAt e.bytes (4 * w) 4
    | none => 0

/-- A register whose word is taken from an engine's tables at the read; none: it is the word its fields hold. -/
def shown (n off : Nat) (s : State) : Option Nat :=
  match n with
  | 0 => if off = 0x10 then some (s.clk.frc / 500000000 % 2 ^ 32) else none
  | 2 =>
    if off = 4 then some (heldOf 3 s * 2 ^ 19 + s.evt.staged.length)
    else if off = 0x20 then some (s.evt.seq % 2 ^ 32)
    else if off = 0x24 then some s.evt.seqHi
    else none
  | 3 =>
    if off = 4 then some (rd MRC_STATUS_STATE s * 2 ^ 30 + (inboxesUsed s).length * 2 ^ 17 + s.mrc.items.length)
    else if off = 0x30 ∨ off = 0x34 then
      let n := (off - 0x30) / 4
      some ((List.range 4).foldl (fun (a : Nat) j => a + min 255 (readyAt (4 * n + j) s).length * 2 ^ (8 * j)) 0)
    else none
  | 4 =>
    if off = 8 then
      some (((List.range 128).filter (fun f => flumeOn f s)).length * 2 ^ 16 + ((List.range 128).filter (fun f => (flume f s).high)).length * 2 ^ 8)
    else if 0x20 ≤ off ∧ off < 0x30 then some (maskOf 32 (fun i => (flume (32 * ((off - 0x20) / 4) + i) s).high))
    else if 0x1000 ≤ off ∧ off < 0x2000 ∧ off % 0x20 = 0xC then
      let f := idxIn 0x1000 0x20 off
      let x := flume f s
      some (b2n x.high * 2 ^ 31 + b2n x.heldByPin * 2 ^ 30 + b2n x.dropping * 2 ^ 29 + flumeLen f s)
    else none
  | 5 => if off = 4 then some (rd MEM_STATUS_PASSES s * 2 ^ 16 + tget 0 0 s.ecc.pos * 65536 / storeLines 0 % 65536) else none
  | 6 => if off = 0x7C then some (holdSeconds s % 2 ^ 32) else none
  | 8 =>
    if off = 4 then some (clmState s * 2 ^ 28 + strandedOwners s % 4096 * 2 ^ 16 + min 65535 (s.clm.claims.filter (fun p => p.2.st == .blocked)).length)
    else if off = 0x24 then some s.clm.claims.length
    else none
  | 9 =>
    if off = 4 then
      let l := s.pro.chans.filter (fun p => decide (p.1 < 256))
      some (l.length * 2 ^ 15 + (l.filter (fun p => !atRest { v := p.2.v, a := p.2.a })).length * 2 ^ 6 + rd PRO_STATUS_STATE s)
    else if 0x1000 ≤ off ∧ off < 0x3100 ∧ 0x10 ≤ off % 0x20 then some (chanWord (idxIn 0x1000 0x20 off) ((off % 0x20 - 0x10) / 4) s)
    else none
  | 11 => if off = 0x1C then some (rd WKR_STATUS_MEMBER s * 2 ^ 22 + rd WKR_STATUS_RESCUE s * 2 ^ 12 + rd WKR_STATUS_LOST s * 2 ^ 2 + b2n (wkrOn s)) else none
  | 17 =>
    if off = 0x28 then some (enc 64 (timeDiff s) % 2 ^ 32)
    else if off = 0x2C then some s.ptc.diffHi
    else if off = 0x30 then some (s.clk.frc % 2 ^ 32)
    else if off = 0x34 then some s.ptc.frcHi
    else if off = 0x38 then some (enc 32 ((s.clk.incSite : Int) - 0x200000000))
    else if off = 0x3C then some (enc 32 ((s.clk.incPort : Int) - 0x200000000))
    else if off = 0x54 then some s.ptc.ppsHi
    else none
  | 26 =>
    if off = 8 then
      some (wordAt 26 8 s / 256 * 256 + (match s.key.window with | some w => min 255 ((w.1 - s.clk.frc) / 500000000) | none => 0))
    else if off = 0x18 then some (slotInfo s)
    else none
  | 28 => if off = 0x0C then some (otpWord s) else none
  | 30 =>
    if off = 4 then
      some (maskOf 16 (fun i => (coreOf i s).st == .halted) * 2 ^ 16 + maskOf 16 (fun i => (coreOf i s).st == .op || (coreOf i s).st == .run))
    else if 0x1000 ≤ off ∧ off < 0x2000 ∧ off % 0x100 = 4 then
      let i := idxIn 0x1000 0x100 off
      some (rd (CCX_CORE_STATUS_CAUSE i) s * 2 ^ 24 + coreCode (coreOf i s) * 2 ^ 16 + rd (CCX_CORE_STATUS_ITEM i) s)
    else none
  | _ => none

/-- What a read does beside answering: the latches of the high halves, and the stamp queue. -/
def readEffect (n off : Nat) (s : State) : State :=
  if groupOf n = 13 ∧ off = 0x120 then tsqPop (instOf n) s
  else if n = 2 ∧ off = 0x20 then setEvt { s.evt with seqHi := s.evt.seq / 2 ^ 32 } s
  else if n = 17 ∧ off = 0x28 then { s with ptc := { s.ptc with diffHi := enc 64 (timeDiff s) / 2 ^ 32 } }
  else if n = 17 ∧ off = 0x30 then { s with ptc := { s.ptc with frcHi := s.clk.frc / 2 ^ 32 % 2 ^ 32 } }
  else if n = 17 ∧ off = 0x50 then { s with ptc := { s.ptc with ppsHi := rd PTC_PPSIN_HI s } }
  else s

/-- A read of control space: the word, and the state after. An undefined offset reads 0 (R252, R620). -/
def readControl (addr : Nat) (s : State) : Nat × State :=
  let n := blkOfAddr addr
  let off := offOfAddr addr
  if s.pwr.off || decide (addr < 0xE0000000 ∨ 0xE01F0000 ≤ addr) || hidden n off || (regAt n off).isNone then (0, s)
  else
    let s := readEffect n off s
    ((shown n off s).getD (wordAt n off s), s)

/-! ### Commit points (R15) -/

/-- The commit point of block n has come, for the part of it that has one of its own: a flume of FLM, a direction of a port (0 receive, 1 transmit), an axis (8: AXS as a whole), a core of CCX. STP's comes only while the lane
is not in PERMIT (R237), an axis's only while it is at rest (R473). -/
def commitPart (n part : Nat) (s : State) : State :=
  match groupOf n with
  | 4 => commitFlume (part % 128) s
  | 12 => if lane s = 1 then s else showStat (commitBlk 12 s)
  | 13 => if part % 2 = 0 then commitRx (instOf n) s else commitTx (instOf n) s
  | 18 => commitCan (instOf n) s
  | 20 => commitSer (instOf n) s
  | 22 => if part < 8 then commitAxis part s else commitFld AXS_CHAT_CHAT_MAX (commitFld AXS_CHAT_CHAT_WIN s)
  | 30 => commitRegions (part % 16) s
  | g => commitBlk g s

/-! ### The start of an air cycle (R7, R27) -/

/-- What every block does when an air cycle begins: the commit points of AIR, TWN and CAS, REF's epoch, SOL's report, the plans' positions, WKR, the stop lane's frames, the mirror of the channels' charges, and port time's pursuit of site time. -/
def cycleStart (m : Option Meas) (s : State) : State :=
  if s.pwr.off || !s.clk.siteSet then s
  else
    let c := cycleNo s
    let s := commitBlk 25 (commitBlk 24 (commitBlk 10 s))
    let s := solCycle (refCycle m s)
    let s := stopCycle (wkrCycle (snapAll c s))
    let s := if twnRole s = 2 then issue (.charges s.air.charges) s else s
    react (airRefresh (pwrPoll (followSite s)))

def execRegisterWrite (who addr value : Nat) (s : State) := run (fun s => (writeControl who addr (value % 2 ^ 32) s).2) s
def execCommitPoint (blk part : Nat) (s : State) := run (commitPart blk part) s
def execCycleStart (m : Option Meas) (s : State) := run (cycleStart m) s

end Sys2Proof.Machine
end

