-- ==== Sys2Proof/Machine/Alu.lean ====
section
/-!
DEFINITION. Sys2Proof/Machine/Alu.lean: the integer operations of Table ISA-4 and the lane operations of Table ISA-6 as functions of
their operands (R243, R244, R245).
-/
namespace Sys2Proof.Machine

/-- The low 32 bits, sign-extended (the W forms of R243). -/
def sext32 (v : Word) : Word := (v.truncate 32).signExtend 64

/-- A two-operand operation of width 64, or of width 32 with its result sign-extended when wf. -/
def aluW (wf : Bool) (f64 : Word → Word → Word) (f32 : W32 → W32 → W32) (a b : Word) : Word :=
  if wf then (f32 (a.truncate 32) (b.truncate 32)).signExtend 64 else f64 a b

def divS {w : Nat} (a b : BitVec w) : BitVec w := if b = 0 then BitVec.allOnes w else a.sdiv b
def divU {w : Nat} (a b : BitVec w) : BitVec w := if b = 0 then BitVec.allOnes w else a.udiv b
def remS {w : Nat} (a b : BitVec w) : BitVec w := if b = 0 then a else a.srem b
def remU {w : Nat} (a b : BitVec w) : BitVec w := if b = 0 then a else a.umod b

def aluAdd (wf : Bool) := aluW wf (· + ·) (· + ·)
def aluSub (wf : Bool) := aluW wf (· - ·) (· - ·)
def aluAnd (wf : Bool) := aluW wf (· &&& ·) (· &&& ·)
def aluOr (wf : Bool) := aluW wf (· ||| ·) (· ||| ·)
def aluXor (wf : Bool) := aluW wf (· ^^^ ·) (· ^^^ ·)
def aluSll (wf : Bool) := aluW wf (fun a b => a <<< (b.toNat % 64)) (fun a b => a <<< (b.toNat % 32))
def aluSrl (wf : Bool) := aluW wf (fun a b => a >>> (b.toNat % 64)) (fun a b => a >>> (b.toNat % 32))
def aluSra (wf : Bool) := aluW wf (fun a b => a.sshiftRight (b.toNat % 64)) (fun a b => a.sshiftRight (b.toNat % 32))
def aluSlt (wf : Bool) := aluW wf (fun a b => if a.slt b then 1 else 0) (fun a b => if a.slt b then 1 else 0)
def aluSltu (wf : Bool) := aluW wf (fun a b => if a.ult b then 1 else 0) (fun a b => if a.ult b then 1 else 0)
def aluMin (wf : Bool) := aluW wf (fun a b => if a.slt b then a else b) (fun a b => if a.slt b then a else b)
def aluMax (wf : Bool) := aluW wf (fun a b => if a.slt b then b else a) (fun a b => if a.slt b then b else a)
def aluMinu (wf : Bool) := aluW wf (fun a b => if a.ult b then a else b) (fun a b => if a.ult b then a else b)
def aluMaxu (wf : Bool) := aluW wf (fun a b => if a.ult b then b else a) (fun a b => if a.ult b then b else a)
def aluMul (wf : Bool) := aluW wf (· * ·) (· * ·)
def aluDiv (wf : Bool) := aluW wf divS divS
def aluDivu (wf : Bool) := aluW wf divU divU
def aluRem (wf : Bool) := aluW wf remS remS
def aluRemu (wf : Bool) := aluW wf remU remU

/-- The high 64 bits of the signed and of the unsigned product. -/
def aluMulh (a b : Word) : Word := BitVec.ofInt 64 (a.toInt * b.toInt / 2 ^ 64)
def aluMulhu (a b : Word) : Word := BitVec.ofNat 64 (a.toNat * b.toNat / 2 ^ 64)

def aluClz (a : Word) : Word := if a = 0 then 64 else BitVec.ofNat 64 (63 - Nat.log2 a.toNat)

/-- Trailing zeros of a 64-bit number; n bounds the count. -/
def ctzN : Nat → Nat → Nat
  | 0, _ => 0
  | n + 1, v => if v % 2 = 1 then 0 else 1 + ctzN n (v / 2)

def popN : Nat → Nat → Nat
  | 0, _ => 0
  | n + 1, v => v % 2 + popN n (v / 2)

def aluCtz (a : Word) : Word := BitVec.ofNat 64 (ctzN 64 a.toNat)
def aluPopc (a : Word) : Word := BitVec.ofNat 64 (popN 64 a.toNat)

/-- The n low bytes of v in the opposite order. -/
def revBytes (n v : Nat) : Nat := ((List.range n).map (fun i => v / 2 ^ (8 * i) % 256 * 2 ^ (8 * (n - 1 - i)))).sum

def aluBswap (wf : Bool) (a : Word) : Word :=
  if wf then (BitVec.ofNat 32 (revBytes 4 a.toNat)).signExtend 64 else BitVec.ofNat 64 (revBytes 8 a.toNat)

/-- SHIFTI: none for a reserved kind; the amount of a W kind is taken modulo 32. -/
def aluShift (kind amt : Nat) (a : Word) : Option Word :=
  match kind with
  | 0 => some (a <<< (amt % 64))
  | 1 => some (a >>> (amt % 64))
  | 2 => some (a.sshiftRight (amt % 64))
  | 4 => some (aluSll true a (BitVec.ofNat 64 amt))
  | 5 => some (aluSrl true a (BitVec.ofNat 64 amt))
  | 6 => some (aluSra true a (BitVec.ofNat 64 amt))
  | _ => none

/-! ### Lanes (Table ISA-6) -/

/-- Bits of a lane at a width code; 0 for a reserved code. -/
def laneBits (wd : Nat) : Nat := match wd with | 0 => 8 | 1 => 16 | 2 => 32 | 3 => 64 | 4 => 64 | _ => 0

def laneOf (w : Nat) (v : Vec) (i : Nat) : Nat := v.toNat / 2 ^ (w * i) % 2 ^ w

/-- A vector from its lanes, lane 0 lowest. -/
def packLanes (w : Nat) : List Nat → Nat
  | [] => 0
  | x :: t => x % 2 ^ w + 2 ^ w * packLanes w t

/-- The lanes of a vector register. -/
def lanes (w : Nat) (v : Vec) : List Nat := (List.range (128 / w)).map (laneOf w v)

def ofLanes (w : Nat) (l : List Nat) : Vec := BitVec.ofNat 128 (packLanes w l)

/-- Joins the flags of the lanes. -/
def joinAll (l : List (Nat × FFlags)) : List Nat × FFlags := (l.map Prod.fst, l.foldl (fun a x => a.join x.2) {})

/-- A lane-wise operation of two registers at width code wd: fi over integer lanes of w bits, ff over binary64 lanes; none where the width is not listed. -/
def vec2 (wd : Nat) (fi : Option (Nat → Nat → Nat → Nat)) (ff : Option (Nat → Nat → Nat × FFlags)) (a b : Vec) : Option (Vec × FFlags) :=
  let w := laneBits wd
  let ps := (lanes w a).zip (lanes w b)
  if wd = 4 then ff.map (fun f => let r := joinAll (ps.map (fun p => f p.1 p.2)); (ofLanes w r.1, r.2))
  else if wd < 4 then fi.map (fun f => (ofLanes w (ps.map (fun p => f w p.1 p.2)), {}))
  else none

def laneMin (w a b : Nat) : Nat := if sgn64 w a < sgn64 w b then a else b
where sgn64 (w v : Nat) : Int := if v < 2 ^ (w - 1) then v else (v : Int) - 2 ^ w

def laneMax (w a b : Nat) : Nat := if laneMin.sgn64 w a < laneMin.sgn64 w b then b else a
def laneLt (w a b : Nat) : Bool := decide (laneMin.sgn64 w a < laneMin.sgn64 w b)
def laneSar (w a b : Nat) : Nat := ((laneMin.sgn64 w a / 2 ^ (b % w)) % 2 ^ w).toNat
def laneMask (w : Nat) (b : Bool) : Nat := if b then 2 ^ w - 1 else 0

end Sys2Proof.Machine
end

