-- ==== Sys2Proof/Machine/Operands.lean ====
section
/-!
DEFINITION. Sys2Proof/Machine/Operands.lean: the operands of Cyent instructions (08_cyent_instruction_set.md): registers, immediates, effective addresses and targets; the address map with its rights (Table ISA-8, R248 to R252, R262, R334); and loads and stores
at an address.
-/
namespace Sys2Proof.Machine

/-! ### Registers (Table ISA-1, R239, R246) -/

/-- Vector register r. -/
def Core.vr (c : Core) (r : Nat) : Vec := tget 0 r c.v

def Core.setVr (c : Core) (r : Nat) (x : Vec) : Core := { c with v := tset 0 r x c.v }

/-- Lane 0 of vector register r as binary64 bits. -/
def Core.fr (c : Core) (r : Nat) : Nat := (c.vr r).toNat % 2 ^ 64

/-- A scalar result: lane 0 of D written, lane 1 cleared (R246). -/
def Core.setFr (c : Core) (r : Nat) (x : Nat) : Core := c.setVr r (BitVec.ofNat 128 (x % 2 ^ 64))

/-- Rounding mode FPCTL.RM. -/
def Core.rm (c : Core) : Nat := c.fpctl.toNat % 4

/-- The sticky flags of FPCTL take an operation's flags (R245). -/
def Core.addFlags (c : Core) (f : FFlags) : Core := { c with fpctl := c.fpctl ||| BitVec.ofNat 64 f.toBits }

/-! ### Immediates, addresses and targets (Table ISA-2, R240, R241) -/

/-- The signed value of a 16-bit field. -/
def imm16 (i : Nat) : Int := sgn 16 i

/-- S1 + IMM as a 64-bit sum. -/
def addImm (a : Word) (i : Int) : Word := a + BitVec.ofInt 64 i

/-- Effective address of format M: a 64-bit sum (R240). -/
def effAddr (c : Core) (s1 ofs scale : Nat) : Nat := (addImm (c.gr s1) (scale * imm16 ofs)).toNat

/-- Target of a branch or jump: the instruction's own address plus 4 times a signed displacement, as a 64-bit number. -/
def targetOf (c : Core) (disp : Int) : Nat := enc 64 ((c.pc.toNat : Int) + 4 * disp)

/-! ### The address map (Table ISA-8) -/

/-- Parts of the address map. -/
inductive Area where
  | main | clm | sol | ctl | stew | rom | hole
  deriving DecidableEq, Repr

def areaOf (a : Nat) : Area :=
  if a < 0x4000000 then .main
  else if 0x40000000 ≤ a ∧ a < 0x40600000 then .clm
  else if 0x41000000 ≤ a ∧ a < 0x41400000 then .sol
  else if 0xE0000000 ≤ a ∧ a < 0xE01F0000 then .ctl
  else if 0xFE000000 ≤ a ∧ a < 0xFE080000 then .stew
  else if 0xFF000000 ≤ a ∧ a < 0xFF010000 then .rom
  else .hole

/-- Privilege level: 0 OP, 1 RUN, 2 STEWARD (R261). -/
def levelOf (n : Nat) (s : State) : Nat := if n = 16 then 2 else if (coreOf n s).st = .op then 0 else 1

/-- The lowest enabled region of core n that contains an address (R262). -/
def regionOf (n a : Nat) (s : State) : Option Nat :=
  (List.range 16).find? (fun r => on (CCX_RGN_BASE_EN n r) s && decide (rd (CCX_RGN_BASE_BASE n r) s ≤ a / 4096 ∧ a / 4096 ≤ rd (CCX_RGN_LIMIT_LIMIT n r) s))

/-- The kinds of access that regions grant. -/
inductive Acs where
  | load | store | fetch
  deriving DecidableEq, Repr

/-- Core n's regions grant an access at OP level; RUN and STEWARD ignore them. -/
def regionsGrant (n a : Nat) (k : Acs) (s : State) : Bool :=
  levelOf n s != 0 ||
    (match regionOf n a s with
     | none => false
     | some r => match k with | .load => on (CCX_RGN_BASE_R n r) s | .store => on (CCX_RGN_BASE_W n r) s | .fetch => on (CCX_RGN_BASE_X n r) s)

/-- An address in the flume pool (R334). -/
def inPool (a : Nat) (s : State) : Bool :=
  decide (rd FLM_POOL_ADDR s * 0x100000 ≤ a ∧ a < (rd FLM_POOL_ADDR s + rd FLM_POOL_MIB s) * 0x100000)

/-- What a part of a store window allows: 0 nothing, 1 loads, 2 loads and stores (Tables CLM-1, SOL-9). The reach and ford tables never refuse a store: R98 decides it. -/
def windowRights (a : Nat) : Nat :=
  match areaOf a with
  | .clm => let o := a - 0x40000000; if o < 0x64000 then 2 else if o < 0x80000 then 0 else if o < 0x480000 then 1 else 0
  | .sol => let o := a - 0x41000000; if o < 0x24000 then 2 else if o < 0x324000 then 1 else 0
  | _ => 2

/-- The protection exception of an access: LOAD_PROT or STORE_PROT. -/
def protCause (store : Bool) : Nat := if store then 6 else 5

/-- Control space at the level of core n (Table ISA-8, R250, R288). -/
def ctlAllows (n a : Nat) (store : Bool) (s : State) : Bool :=
  let b := blkOfAddr a
  if n = 16 then true
  else if b = 0 then !store
  else if 26 ≤ b ∧ b ≤ 29 then false
  else if b = 30 then levelOf n s != 0
  else regionsGrant n a (if store then .store else .load) s

/-- The exception that a load or store of w bytes at an address raises, by cause (none: it is allowed): R240, R252, R248, R249, R251, R262, R334. -/
def dataCheck (n a w : Nat) (store : Bool) (s : State) : Option Nat :=
  if 2 ^ 32 ≤ a then some 7
  else
    match areaOf a with
    | .ctl => if w ≠ 4 ∨ a % 4 ≠ 0 then some 7 else if ctlAllows n a store s then none else some (protCause store)
    | .hole => some (if a % w ≠ 0 then 3 else 7)
    | .main =>
      if a % w ≠ 0 then some 3
      else if n ≠ 16 && inPool a s then some (protCause store)
      else if regionsGrant n a (if store then .store else .load) s then none else some (protCause store)
    | .stew => if a % w ≠ 0 then some 3 else if n = 16 then none else some (protCause store)
    | .rom => if a % w ≠ 0 then some 3 else if n = 16 && !store then none else some (protCause store)
    | _ =>
      if a % w ≠ 0 then some 3
      else if n ≠ 16 && decide (8 < w) then some 7
      else if windowRights a = 0 || (store && windowRights a == 1) then some (protCause store)
      else if regionsGrant n a (if store then .store else .load) s then none else some (protCause store)

/-- Core n may fetch from an address: 4-aligned, in the map, and executable at its level (Table ISA-8, R262, R264). -/
def fetchOk (n a : Nat) (s : State) : Bool :=
  a % 4 == 0 &&
    (match areaOf a with
     | .main => regionsGrant n a .fetch s
     | .stew => n == 16
     | .rom => n == 16 || a == 0xFF00FFF0
     | _ => false)

/-! ### Loads and stores that have passed the checks -/

/-- The words under n bytes from a, read through the codes by core n: false where one is uncorrectable (Table MEM-3). -/
def eccCore (a w source n : Nat) (s : State) : Bool × State :=
  if s.ecc.marks.isEmpty && s.ecc.badLines.isEmpty then (true, s) else eccReadRange a w source n s

/-- The number in w bytes of a byte string from an offset. -/
def partOf (l : List Byte) (i w : Nat) : Nat := ofLe (slice l i w)

/-- A load of w bytes by core n: the little-endian number there, none where a word is uncorrectable. -/
def loadData (n a w : Nat) (s : State) : Option Nat × State :=
  match areaOf a with
  | .ctl => let r := readControl a s; (some r.1, r.2)
  | .rom => (some (ofLe ((List.range w).map (fun i => Config.romByte (a - 0xFF000000 + i)))), s)
  | _ =>
    let e := eccCore a w 0 n s
    if !e.1 then (none, e.2)
    else if 0x40080000 ≤ a ∧ a < 0x40480000 then (some (partOf (claimBytes ((a - 0x40080000) / 32) e.2) (a % 32) w), e.2)
    else if 0x41024000 ≤ a ∧ a < 0x41324000 then
      let r := fresh e.2
      (some (ofLe ((List.range w).map (fun i => Config.filterByte r.1 (a - 0x41024000 + i)))), r.2)
    else (some (loadLe e.2.mem a w), e.2)

/-- A store of the w low bytes of v by core n: in control space a register write (R14 to R16), in the reach and ford tables as R98 says, elsewhere memory. -/
def storeData (n a w v : Nat) (s : State) : State :=
  match areaOf a with
  | .ctl => (writeControl n a (v % 2 ^ 32) s).2
  | .clm => if a < 0x40060000 ∧ clmTablesOpen s = false then count CLM_CNT_STORE_REFUSED 1 s else memWrite a (leBytes w v) n s
  | _ => memWrite a (leBytes w v) n s

end Sys2Proof.Machine
end

