-- ==== Sys2Proof/Machine/Cy.lean ====
section
/-!
DEFINITION. Sys2Proof/Machine/Cy.lean: how a Cyent core executes one instruction (08_cyent_instruction_set.md): whether it runs, its fetch, taking an exception and returning from one (R279 to R284), waiting (R267), and the shapes the instruction classes share.
-/
namespace Sys2Proof.Machine

/-! ### Ending an operation -/

/-- The core of an ended operation is IDLE (Table MRC-2, R272). -/
def idleCore (n : Nat) (s : State) : State :=
  let c := (coreOf n s).syncClock s.clk.frc
  setCore n { c with st := .idle, item := none, wait := none } s

/-- Ends the item in service on core n, if it has one, and idles the core. -/
def endOperation (n status error : Nat) (result : Word) (s : State) : State :=
  match (coreOf n s).item with
  | some q => endItem q status error result (idleCore n s)
  | none => idleCore n s

/-! ### Exceptions (R279 to R283) -/

/-- CCX shows the last exception of a field core. -/
def showExc (n cause eaddr : Nat) (s : State) : State :=
  wr (CCX_CORE_STATUS_CAUSE n) cause (wr (CCX_CORE_EPC n) (coreOf n s).pc.toNat (wr (CCX_CORE_EADDR n) eaddr s))

/-- The control registers an exception writes, and where the core goes (R280). -/
def enterHandler (cause eaddr : Nat) (vec : W32) (c : Core) : Core :=
  { c with epc := c.pc.zeroExtend 64, ecause := BitVec.ofNat 64 cause, eaddr := BitVec.ofNat 64 eaddr, estat := 0, st := .run, pc := vec, wait := none }

/-- CCX_VBASE.ADDR. -/
def handlerPc (s : State) : W32 := BitVec.ofNat 32 (64 * rd CCX_VBASE_ADDR s)

/-- Counters of the exceptions that have one (CCX_CNT_ECC, CCX_CNT_BUDGET). -/
def countExc (cause : Nat) (s : State) : State :=
  if cause = 8 then count CCX_CNT_ECC 1 s else if cause = 0x0B then count CCX_CNT_BUDGET 1 s else s

/-- Core n takes the exception of a cause: at OP level into the handler (R280) or, without one, ending the item (R282); at RUN level the core halts (R283); on the steward into its error handling (R566). -/
def takeExc (n cause eaddr : Nat) (s : State) : State :=
  if n = 16 then stewardErr (0x1E00 + cause) (eaddr % 65536) (setCore 16 (enterHandler cause eaddr Config.stewardVector (coreOf 16 s)) s)
  else
    let s := countExc cause (showExc n cause eaddr s)
    if (coreOf n s).st = .op then
      if on CCX_VBASE_HEN s then setCore n (enterHandler cause eaddr (handlerPc s) (coreOf n s)) s
      else endOperation n 1 (0x1E00 + cause) 0 (count CCX_CNT_EXC 1 s)
    else
      let s := raise 2 (count CCX_CNT_NESTED 1 s)
      let s := if (coreOf n s).item.isNone then report 0x1E10 n s else s
      let s := endOperation n 3 0x1E10 0 s
      setCore n { coreOf n s with st := .halted } s

/-! ### Executing -/

/-- Core n executes instructions: in OP or RUN, neither waiting nor in debug, in a power state that runs it (R581). -/
def coreRuns (n : Nat) (s : State) : Bool :=
  let c := coreOf n s
  decide (n ≤ 16) && (c.st == .op || c.st == .run) && c.wait.isNone && !c.debug && (if n = 16 then !s.pwr.off && !s.pwr.romFail else awake s)

/-- The instruction has completed: the next word, one more retired. -/
def Core.step (c : Core) : Core := { c with pc := c.pc + 4, icount := c.icount + 1 }

/-- Updates a core. -/
def onCore (n : Nat) (f : Core → Core) (s : State) : State := setCore n (f (coreOf n s)) s

/-- One instruction on core n, from its fetch on: FETCH where it may not fetch (R262, R264), ECC where the word is uncorrectable, ILLEGAL on the steward for a class it lacks (R238), else the instruction's own effect. -/
def exec1 (n : Nat) (field : Bool) (k : Core → State → State) (s : State) : State :=
  if !coreRuns n s then s
  else
    let pc := (coreOf n s).pc.toNat
    if !fetchOk n pc s then takeExc n 4 pc s
    else
      let e := if areaOf pc = .rom then (true, s) else eccCore pc 4 0 n s
      if !e.1 then takeExc n 8 pc e.2
      else if field && n == 16 then takeExc n 1 0 e.2
      else k (coreOf n e.2) e.2

/-- An instruction that only changes its core's registers. -/
def regInstr (n : Nat) (field : Bool) (f : Core → Core) (s : State) : State :=
  exec1 n field (fun _ s => onCore n (fun c => (f c).step) s) s

/-- As regInstr, or ILLEGAL where the operands are reserved (R242). -/
def tryInstr (n : Nat) (field : Bool) (f : Core → Option Core) (s : State) : State :=
  exec1 n field (fun c s => match f c with | some c' => setCore n c'.step s | none => takeExc n 1 0 s) s

/-- D = f(S1, S2). -/
def aluInstr (n d s1 s2 : Nat) (f : Word → Word → Word) (s : State) : State :=
  regInstr n false (fun c => c.setGr d (f (c.gr s1) (c.gr s2))) s

/-- D = f(S1). -/
def aluInstr1 (n d s1 : Nat) (f : Word → Word) (s : State) : State := regInstr n false (fun c => c.setGr d (f (c.gr s1))) s

/-- Lane 0 of D = f(S1, S2) with its flags (R245, R246). -/
def fpInstr (n d s1 s2 : Nat) (f : Nat → Nat → Nat → Nat × FFlags) (s : State) : State :=
  regInstr n true (fun c => let r := f c.rm (c.fr s1) (c.fr s2); (c.setFr d r.1).addFlags r.2) s

/-- Lane 0 of D = f(S1, S2, D). -/
def fmaInstr (n d s1 s2 : Nat) (f : Nat → Nat → Nat → Nat → Nat × FFlags) (s : State) : State :=
  regInstr n true (fun c => let r := f c.rm (c.fr s1) (c.fr s2) (c.fr d); (c.setFr d r.1).addFlags r.2) s

/-- g[D] = 1 when a relation holds, else 0. -/
def fcmpInstr (n d s1 s2 : Nat) (f : Nat → Nat → Bool × FFlags) (s : State) : State :=
  regInstr n true (fun c => let r := f (c.fr s1) (c.fr s2); (c.setGr d (if r.1 then 1 else 0)).addFlags r.2) s

/-- A lane-wise operation of v[S1] and v[S2] at a width code; ILLEGAL where Table ISA-6 does not list the width. -/
def vecInstr (n wd d s1 s2 : Nat) (fi : Option (Nat → Nat → Nat → Nat)) (ff : Option (Nat → Nat → Nat → Nat × FFlags)) (s : State) : State :=
  tryInstr n true (fun c => (vec2 wd fi (ff.map (fun f => f c.rm)) (c.vr s1) (c.vr s2)).map (fun r => (c.setVr d r.1).addFlags r.2)) s

/-! ### Memory instructions -/

/-- Changes a core's registers and completes the instruction, in one. -/
def finish (n : Nat) (f : Core → Core) (s : State) : State := onCore n (fun c => (f c).step) s

/-- A load of w bytes whose number f puts into the core. -/
def loadInstr (n s1 ofs scale w : Nat) (field : Bool) (f : Nat → Core → Core) (s : State) : State :=
  exec1 n field (fun c s =>
    let a := effAddr c s1 ofs scale
    match dataCheck n a w false s with
    | some e => takeExc n e a s
    | none =>
      let r := loadData n a w s
      match r.1 with
      | none => takeExc n 8 a r.2
      | some v => finish n (f v) r.2) s

/-- A store of the w low bytes of the number f reads from the core. -/
def storeInstr (n s1 ofs scale w : Nat) (field : Bool) (f : Core → Nat) (s : State) : State :=
  exec1 n field (fun c s =>
    let a := effAddr c s1 ofs scale
    match dataCheck n a w true s with
    | some e => takeExc n e a s
    | none => storeData n a w (f c) (finish n (fun c => c) s)) s

/-- What an atomic stores (Table ISA-7), for operands of w bits; none for a reserved OP. -/
def atomicNew (op : Nat) {w : Nat} (a b : BitVec w) : Option (BitVec w) :=
  match op with
  | 0 => some b
  | 1 => some (a + b)
  | 2 => some (a &&& b)
  | 3 => some (a ||| b)
  | 4 => some (a ^^^ b)
  | 5 => some (if a.slt b then a else b)
  | 6 => some (if a.slt b then b else a)
  | 7 => some (if a.ult b then a else b)
  | 8 => some (if a.ult b then b else a)
  | _ => none

/-- The new value of an atomic of a SIZE code from the old one, as numbers: none for a reserved OP. -/
def atomicVal (op size old : Nat) (b : Word) : Option Nat :=
  if size = 2 then (atomicNew op (BitVec.ofNat 32 old) (b.truncate 32)).map BitVec.toNat
  else (atomicNew op (BitVec.ofNat 64 old) b).map BitVec.toNat

/-- The check of an atomic: naturally aligned main SRAM, or ACCESS (R253); outside the pool and under W (R262, R334). -/
def atomicCheck (n a w : Nat) (s : State) : Option Nat :=
  if 0x4000000 ≤ a ∨ a % w ≠ 0 then some 7
  else dataCheck n a w true s

/-- One indivisible read and write (R253): upd gives the new number from the old, or none to leave it; D receives the old one, zero-extended (R254). -/
def atomicInstr (n size order d s1 : Nat) (upd : Core → Nat → Option (Option Nat)) (s : State) : State :=
  exec1 n false (fun c s =>
    let w := if size = 2 then 4 else 8
    let a := (c.gr s1).toNat
    if (size ≠ 2 ∧ size ≠ 3) ∨ 3 < order ∨ upd c 0 = none then takeExc n 1 0 s
    else
      match atomicCheck n a w s with
      | some e => takeExc n e a s
      | none =>
        let e := eccCore a w 4 n s
        if !e.1 then takeExc n 8 a e.2
        else
          let old := loadLe e.2.mem a w
          let s := finish n (fun c => c.setGr d (BitVec.ofNat 64 old)) e.2
          match upd c old with
          | some (some v) => memWrite a (leBytes w v) n s
          | _ => s) s

/-! ### Branches and jumps (R241) -/

/-- Goes to a target, after link has changed the core; FETCH at the jump where the core may not fetch there. -/
def jumpTo (n target : Nat) (link : Core → Core) (s : State) : State :=
  if target < 2 ^ 32 ∧ fetchOk n target s = true then
    onCore n (fun c => { link c with pc := BitVec.ofNat 32 target, icount := c.icount + 1 }) s
  else takeExc n 4 target s

def branchInstr (n s1 s2 disp : Nat) (p : Word → Word → Bool) (s : State) : State :=
  exec1 n false (fun c s => if p (c.gr s1) (c.gr s2) then jumpTo n (targetOf c (imm16 disp)) (fun c => c) s else finish n (fun c => c) s) s

/-! ### Flume instructions (R265 to R269, R304, R335) -/

/-- The program on core n is granted flume f (R269, R335). -/
def flumeGrant (n f : Nat) (s : State) : Bool :=
  flumeOn f s && (rd (FLM_CFG_PROG f) s == 2 || (rd (FLM_CFG_PROG f) s == 1 && levelOf n s != 0))

/-- The inbox that stands for flume f on core n: that of an item in service whose operation f triggers (R304), with the item's serial. -/
def inboxFor (n f : Nat) (s : State) : Option (Nat × Item × Inbox) :=
  match (coreOf n s).item with
  | none => none
  | some q =>
    match item? q s with
    | none => none
    | some i =>
      match i.inbox with
      | some b => if opTflume i.op s = some f then some (q, i, b) else none
      | none => none

/-- Tags of the words core n may take under flume f's number. -/
def sightTags (n f : Nat) (s : State) : List Nat :=
  match inboxFor n f s with
  | some x => x.2.2.tags
  | none => (flume f s).tags.take (flumeVisible f s)

/-- The word at the head of an inbox: its tags, and how many words leave with it; a mark with ECC in place of the rest of the record where it is uncorrectable (R344). -/
def inboxHead (n f : Nat) (b : Inbox) (s : State) : (Word × Nat × Nat) × State :=
  let a := inboxAddr b.slot s + 8 * b.pos
  match b.tags with
  | [] => ((0, 4, 0), s)
  | t :: _ =>
    let e := eccCore a 8 2 n s
    if e.1 then ((BitVec.ofNat 64 (loadLe e.2.mem a 8), t, 1), e.2)
    else ((markWord f true false 1 (throughEnd b.tags), 2, throughEnd b.tags), eccMark f e.2)

/-- Takes the head word under flume f's number: the word and its tags, EMPTY with 0 where there is none. -/
def takeHead (n f : Nat) (s : State) : (Word × Nat) × State :=
  match inboxFor n f s with
  | some (q, i, b) =>
    let r := inboxHead n f b s
    ((r.1.1, r.1.2.1), setItem q { i with inbox := some { b with pos := b.pos + r.1.2.2, tags := b.tags.drop r.1.2.2 } } r.2)
  | none => popWord f s

/-- Looks at the head word without removing it. -/
def lookHead (n f : Nat) (s : State) : (Word × Nat) × State :=
  match inboxFor n f s with
  | some (_, _, b) => let r := inboxHead n f b s; ((r.1.1, r.1.2.1), r.2)
  | none => peekWord f s

/-- Two results, for D and for the register S1 names; where both are one register, either may stay. -/
def Core.setTwo (c : Core) (d s1 : Nat) (x y : Word) : Core :=
  if d = s1 then c.setGr d (if Config.dWins then x else y) else (c.setGr d x).setGr s1 y

/-- A flume instruction on core n: FLUME where the flume is not granted, with its number. -/
def flumeInstr (n f : Nat) (k : Core → State → State) (s : State) : State :=
  exec1 n true (fun c s => if flumeGrant n f s then k c s else takeExc n 9 f s) s

/-- A pop or a look: D = word, the register S1 = tags. -/
def headDone (n d s1 : Nat) (r : (Word × Nat) × State) : State :=
  finish n (fun c => c.setTwo d s1 r.1.1 (BitVec.ofNat 64 r.1.2)) r.2

/-- The first of k eight-byte words from a whose access raises an exception: the cause and the address. -/
def rangeCheck (n a k : Nat) (store : Bool) (s : State) : Option (Nat × Nat) :=
  (List.range k).findSome? (fun i => (dataCheck n (a + 8 * i) 8 store s).map (fun e => (e, a + 8 * i)))

/-- The k eight-byte words from a as FSEND reads them: none and the address of the first that is uncorrectable. -/
def loadWords (n a : Nat) : Nat → State → (Option (List Word) × Nat) × State
  | 0, s => ((some [], 0), s)
  | k + 1, s =>
    let r := loadData n a 8 s
    match r.1 with
    | none => ((none, a), r.2)
    | some v =>
      let t := loadWords n (a + 8) k r.2
      match t.1.1 with
      | some ws => ((some (BitVec.ofNat 64 v :: ws), 0), t.2)
      | none => (t.1, t.2)

/-- FRECV's copy: up to k words to memory at a, through the first END, or a mark: words copied, whether END and whether a mark was copied. -/
def copyWords (n f a : Nat) : Nat → State → (Nat × Bool × Bool) × State
  | 0, s => ((0, false, false), s)
  | k + 1, s =>
    let r := takeHead n f s
    if r.1.2 = 4 then ((0, false, false), r.2)
    else
      let s := storeData n a 8 r.1.1.toNat r.2
      if r.1.2 = 2 then ((1, false, true), s)
      else if r.1.2 % 2 = 1 then ((1, true, false), s)
      else
        let t := copyWords n f (a + 8) k s
        ((t.1.1 + 1, t.1.2), t.2)

/-- The FRECV result word. -/
def recvResult (x : Nat × Bool × Bool) : Word := BitVec.ofNat 64 (x.1 + b2n x.2.1 * 2 ^ 32 + b2n x.2.2 * 2 ^ 33)

/-! ### Waiting (R267) -/

/-- The condition of a waiting instruction on core n holds. -/
def waitReady (n : Nat) (w : Waiting) (s : State) : Bool :=
  let c := coreOf n s
  match w.kind with
  | .push _ => flumeOn w.flume s && flumeRoom w.flume 1 s
  | .pop => !(sightTags n w.flume s).isEmpty
  | .send => flumeOn w.flume s && flumeRoom w.flume (c.gr w.s2).toNat s
  | .recv => let t := sightTags n w.flume s; t.any (fun x => x % 2 == 1) || decide ((c.gr w.s2).toNat ≤ t.length)
  | .twait => decide ((c.gr w.s1).toNat ≤ siteNs s)

/-- A waiting instruction whose condition holds completes. -/
def waitDone (n : Nat) (w : Waiting) (s : State) : State :=
  let c := coreOf n s
  let s := setCore n { c with wait := none } s
  match w.kind with
  | .push e => let r := pushWord w.flume (c.gr w.s1) e s; finish n (fun c => c.setGr w.d (BitVec.ofNat 64 r.1)) r.2
  | .pop => headDone n w.d w.s1 (takeHead n w.flume s)
  | .send =>
    let r := loadWords n (c.gr w.s1).toNat (c.gr w.s2).toNat s
    match r.1.1 with
    | none => takeExc n 8 r.1.2 r.2
    | some ws => let p := pushRecord w.flume ws r.2; finish n (fun c => c.setGr w.d (if p.1 then 0 else 1)) p.2
  | .recv =>
    let r := copyWords n w.flume (c.gr w.s1).toNat (c.gr w.s2).toNat s
    finish n (fun c => c.setGr w.d (recvResult r.1)) r.2
  | .twait => finish n (fun c => c.setGr w.d 0) s

/-- The timeout indication: nothing has moved. -/
def waitOver (n : Nat) (w : Waiting) (s : State) : State :=
  match w.kind with
  | .push _ => finish n (fun c => { c with wait := none }.setGr w.d 2) s
  | .pop => finish n (fun c => { c with wait := none }.setTwo w.d w.s1 0 4) s
  | .send => finish n (fun c => { c with wait := none }.setGr w.d 2) s
  | .recv => finish n (fun c => { c with wait := none }.setGr w.d (BitVec.ofNat 64 (2 ^ 34))) s
  | .twait => finish n (fun c => { c with wait := none }.setGr w.d 1) s

/-- A waiting form: done at once where its condition holds, else the core waits. -/
def startWait (n : Nat) (w : Waiting) (s : State) : State :=
  if waitReady n w s then waitDone n w s else onCore n (fun c => { c with wait := some w }) s

/-- FLUME_WAIT_DONE: the condition of a core's waiting instruction has come to hold. -/
def waitMet (n : Nat) (s : State) : State :=
  match (coreOf n s).wait with
  | some w => if (if n = 16 then !s.pwr.off else awake s) && waitReady n w s then waitDone n w s else s
  | none => s

/-- WAIT_TIMEOUT: a core has waited for 1 ms and its condition does not hold. -/
def waitTimeout (n : Nat) (s : State) : State :=
  match (coreOf n s).wait with
  | some w =>
    if (if n = 16 then !s.pwr.off else awake s) && decide (w.since + ticksOfMs 1 ≤ s.clk.frc) && !waitReady n w s then waitOver n w s else s
  | none => s

/-- FSEND and FRECV: the count, then the whole range, checked before any word moves (R268). -/
def blockInstr (n d s1 s2 f : Nat) (send : Bool) (s : State) : State :=
  flumeInstr n f (fun c s =>
    let k := (c.gr s2).toNat
    if k = 0 ∨ 128 < k then takeExc n 1 0 s
    else
      match rangeCheck n (c.gr s1).toNat k (!send) s with
      | some e => takeExc n e.1 e.2 s
      | none => startWait n { kind := if send then .send else .recv, d := d, s1 := s1, s2 := s2, flume := f, since := s.clk.frc } s) s

/-! ### Budget (R281) and return (R280, R289) -/

/-- The operation on core n has used up its budget: the site time since its dispatch exceeds it. -/
def budgetOut (n : Nat) (s : State) : Bool :=
  let c := coreOf n s
  match c.item with
  | none => false
  | some q =>
    match item? q s with
    | none => false
    | some i => opBudget i.op s != 0 && decide (1000 * opBudget i.op s < siteNs s - c.since)

/-- BUDGET at OP level; a wait is abandoned with nothing moved. -/
def budgetExc (n : Nat) (s : State) : State :=
  if n < 16 ∧ (coreOf n s).st = .op ∧ (coreOf n s).debug = false ∧ awake s = true ∧ budgetOut n s = true then takeExc n 0x0B 0 s else s

/-- ERET: to EPC at the level of ESTAT.PLEVEL; the held region fields of the core take effect; BUDGET at the instruction returned to where it has run out. On the steward it ends the error handling. -/
def eretInstr (n : Nat) (s : State) : State :=
  exec1 n false (fun c s =>
    if levelOf n s = 0 then takeExc n 2 0 s
    else if 2 ^ 32 ≤ c.epc.toNat then takeExc n 4 c.epc.toNat s
    else
      let back := fun c : Core => { c with pc := c.epc.truncate 32, icount := c.icount + 1 }
      if n = 16 then wr EVT_DFAULT_HANDLING 0 (onCore n back s)
      else
        let op := c.estat.toNat % 2 = 0
        budgetExc n (commitRegions n (onCore n (fun c => { back c with st := if op then .op else .run }) s))) s

/-! ### Control registers (Table ISA-14) -/

/-- Access to a control register at OP and at RUN level: 0 none, 1 read, 2 read and write; none for an unlisted number. -/
def crAccess (num : Nat) : Option (Nat × Nat) :=
  match num with
  | 0x000 => some (0, 2)
  | 0x001 => some (0, 1)
  | 0x002 => some (0, 1)
  | 0x003 => some (0, 2)
  | 0x004 => some (0, 2)
  | 0x005 => some (0, 2)
  | 0x010 => some (2, 2)
  | 0x020 => some (1, 1)
  | 0x021 => some (1, 1)
  | 0x030 => some (1, 1)
  | _ => none

def crRead (n num frc : Nat) (c : Core) : Word :=
  match num with
  | 0x000 => c.epc
  | 0x001 => c.ecause
  | 0x002 => c.eaddr
  | 0x003 => c.estat
  | 0x004 => c.scratch0
  | 0x005 => c.scratch1
  | 0x010 => c.fpctl
  | 0x020 => (c.syncClock frc).ccount
  | 0x021 => c.icount
  | _ => BitVec.ofNat 64 n

def crWrite (num : Nat) (x : Word) (c : Core) : Core :=
  match num with
  | 0x000 => { c with epc := x }
  | 0x003 => { c with estat := x &&& 1 }
  | 0x004 => { c with scratch0 := x }
  | 0x005 => { c with scratch1 := x }
  | 0x010 => { c with fpctl := x &&& 0x7F }
  | _ => c

/-- CRR and CRW: an unlisted number is ILLEGAL, a register closed to the level PRIV, a write to a read-only one ILLEGAL. -/
def crInstr (n d num : Nat) (src : Option Nat) (s : State) : State :=
  exec1 n false (fun c s =>
    match crAccess num with
    | none => takeExc n 1 0 s
    | some a =>
      let r := if levelOf n s = 0 then a.1 else a.2
      if r = 0 then takeExc n 2 0 s
      else if src.isSome && r == 1 then takeExc n 1 0 s
      else
        finish n (fun c' =>
          let c' := c'.setGr d (crRead n num s.clk.frc c)
          match src with | some s1 => crWrite num (c.gr s1) c' | none => c') s) s

end Sys2Proof.Machine
end

