-- ==== Sys2Proof/Machine/CyFlm.lean ====
section
/-!
DEFINITION. Sys2Proof/Machine/CyFlm.lean: the flume instructions (Table ISA-9; R265 to R269, R304), the ends of their waits, and the engine snapshot ERD (Table ISA-10; R270, R271).
-/
namespace Sys2Proof.Machine

/-- FPUSH and FPUSHE never wait (R266): D = 0 accepted, 1 dropped. -/
def pushInstr (n d s1 f : Nat) (tagEnd : Bool) (s : State) : State :=
  flumeInstr n f (fun c s => let r := pushWord f (c.gr s1) tagEnd s; finish n (fun c => c.setGr d (BitVec.ofNat 64 r.1)) r.2) s

/-- FPUSHW and FPUSHWE wait for room (R267). -/
def pushWait (n d s1 f : Nat) (tagEnd : Bool) (s : State) : State :=
  flumeInstr n f (fun _ s => startWait n { kind := .push tagEnd, d := d, s1 := s1, s2 := 0, flume := f, since := s.clk.frc } s) s

def execFpush (c d s1 f : Nat) (s : State) := run (pushInstr c d s1 f false) s
def execFpushe (c d s1 f : Nat) (s : State) := run (pushInstr c d s1 f true) s
def execFpushw (c d s1 f : Nat) (s : State) := run (pushWait c d s1 f false) s
def execFpushwe (c d s1 f : Nat) (s : State) := run (pushWait c d s1 f true) s
def execFpop (c d s1 f : Nat) (s : State) := run (flumeInstr c f (fun _ s => headDone c d s1 (takeHead c f s))) s
def execFpopw (c d s1 f : Nat) (s : State) :=
  run (flumeInstr c f (fun _ s => startWait c { kind := .pop, d := d, s1 := s1, s2 := 0, flume := f, since := s.clk.frc } s)) s
def execFpeek (c d s1 f : Nat) (s : State) := run (flumeInstr c f (fun _ s => headDone c d s1 (lookHead c f s))) s

/-- D = words held, by the flume or by the inbox that stands for it. -/
def execFlen (c d f : Nat) (s : State) :=
  run (flumeInstr c f (fun _ s =>
    let k := match inboxFor c f s with | some x => x.2.2.tags.length | none => flumeLen f s
    finish c (fun r => r.setGr d (BitVec.ofNat 64 k)) s)) s

def execFsend (c d s1 s2 f : Nat) (s : State) := run (blockInstr c d s1 s2 f true) s
def execFrecv (c d s1 s2 f : Nat) (s : State) := run (blockInstr c d s1 s2 f false) s
def execFlumeWaitDone (c : Nat) (s : State) := run (waitMet c) s
def execWaitTimeout (c : Nat) (s : State) := run (waitTimeout c) s

/-! ### ERD -/

/-- Entries of a table of Table ISA-10, and whether its engine is enabled. -/
def erdCount (tbl : Nat) : Nat := match tbl with | 0 => 131072 | 1 => 8192 | 2 => 4096 | 3 => 256 | 4 => 264 | _ => 512

def erdOn (tbl : Nat) (s : State) : Bool :=
  match tbl with
  | 3 => on SOL_CTRL_EN s
  | 4 => on PRO_CTRL_EN s
  | 5 => on WKR_CTRL_EN s
  | _ => on CLM_CTRL_EN s

/-- Where an entry lies in addressed memory; none for those the engine holds itself. -/
def erdAddr (tbl i : Nat) (s : State) : Option Nat :=
  match tbl with
  | 0 => some (claimAddr i)
  | 1 => some (reachAddr i)
  | 2 => some (fordAddr i)
  | 5 => some (ptrAddr i s)
  | _ => none

/-- The bytes of an entry, all from this one state (R270). -/
def erdBytes (tbl i : Nat) (s : State) : List Byte :=
  match tbl with
  | 0 => claimBytes i s
  | 1 => bytesAt s.mem (reachAddr i) 32
  | 2 => bytesAt s.mem (fordAddr i) 32
  | 3 => padTo 64 (tget [] i s.sol.newest)
  | 4 => (List.range 4).flatMap (fun w => leBytes 4 (wordAt 9 (0x1000 + 0x20 * i + 4 * w) s)) ++ (List.range 4).flatMap (fun w => leBytes 4 (chanWord i w s))
  | _ => bytesAt s.mem (ptrAddr i s) 32

/-- Vector registers from d on take 16 bytes each. -/
def setVecs (d : Nat) (l : List Byte) (c : Core) : Core :=
  (List.range (l.length / 16)).foldl (fun (c : Core) k => c.setVr (d + k) (BitVec.ofNat 128 (partOf l (16 * k) 16))) c

def execErd (c tbl d s1 : Nat) (s : State) :=
  run (exec1 c true (fun r s =>
    let i := (r.gr s1).toNat
    if 6 ≤ tbl ∨ d % (if tbl = 3 then 4 else 2) ≠ 0 then takeExc c 1 0 s
    else if erdCount tbl ≤ i ∨ erdOn tbl s = false then takeExc c 0x0A i s
    else
      match erdAddr tbl i s with
      | some a =>
        let e := eccCore a 32 0 c s
        if e.1 then finish c (setVecs d (erdBytes tbl i e.2)) e.2 else takeExc c 8 a e.2
      | none => finish c (setVecs d (erdBytes tbl i s)) s)) s

end Sys2Proof.Machine
end

