-- ==== Sys2Proof/Machine/CyFp.lean ====
section
/-!
DEFINITION. Sys2Proof/Machine/CyFp.lean: the float64 and vector instructions (Tables ISA-5 and ISA-6; R243, R245 to R247).
-/
namespace Sys2Proof.Machine

def execFadd (c d s1 s2 : Nat) (s : State) := run (fpInstr c d s1 s2 fAdd) s
def execFsub (c d s1 s2 : Nat) (s : State) := run (fpInstr c d s1 s2 fSub) s
def execFmul (c d s1 s2 : Nat) (s : State) := run (fpInstr c d s1 s2 fMul) s
def execFdiv (c d s1 s2 : Nat) (s : State) := run (fpInstr c d s1 s2 fDiv) s
def execFmin (c d s1 s2 : Nat) (s : State) := run (fpInstr c d s1 s2 (fun _ => fMin)) s
def execFmax (c d s1 s2 : Nat) (s : State) := run (fpInstr c d s1 s2 (fun _ => fMaxNum)) s
def execFsqrt (c d s1 : Nat) (s : State) := run (fpInstr c d s1 s1 (fun rm a _ => fSqrt rm a)) s
def execFmadd (c d s1 s2 : Nat) (s : State) := run (fmaInstr c d s1 s2 fFma) s
def execFmsub (c d s1 s2 : Nat) (s : State) := run (fmaInstr c d s1 s2 fFmsub) s
def execFnmadd (c d s1 s2 : Nat) (s : State) := run (fmaInstr c d s1 s2 fFnmadd) s
def execFabs (c d s1 : Nat) (s : State) := run (fpInstr c d s1 s1 (fun _ a _ => (a % 2 ^ 63, {}))) s
def execFneg (c d s1 : Nat) (s : State) := run (fpInstr c d s1 s1 (fun _ a _ => (fNeg a, {}))) s
def execFeq (c d s1 s2 : Nat) (s : State) := run (fcmpInstr c d s1 s2 fEq) s
def execFlt (c d s1 s2 : Nat) (s : State) := run (fcmpInstr c d s1 s2 fLt) s
def execFle (c d s1 s2 : Nat) (s : State) := run (fcmpInstr c d s1 s2 fLe) s

/-- v[D] = float of signed g[S1]. -/
def execFcvtDL (c d s1 : Nat) (s : State) :=
  run (regInstr c true (fun r => let x := fOfInt r.rm (r.gr s1).toInt; (r.setFr d x.1).addFlags x.2)) s

/-- g[D] = signed integer of v[S1] (R247); no vector register changes (R246). -/
def execFcvtLD (c d s1 : Nat) (s : State) :=
  run (regInstr c true (fun r => let x := fToInt r.rm (r.fr s1); (r.setGr d (BitVec.ofInt 64 x.1)).addFlags x.2)) s

def execFmvX (c d s1 : Nat) (s : State) := run (regInstr c true (fun r => r.setGr d (BitVec.ofNat 64 (r.fr s1)))) s
def execFmvD (c d s1 : Nat) (s : State) := run (regInstr c true (fun r => r.setFr d (r.gr s1).toNat)) s
def execFclass (c d s1 : Nat) (s : State) := run (regInstr c true (fun r => r.setGr d (BitVec.ofNat 64 (fClass (r.fr s1))))) s

/-! ### Vectors -/

def laneMod (f : Nat → Nat → Nat) (w a b : Nat) : Nat := f a b % 2 ^ w

def execVadd (c wd d s1 s2 : Nat) (s : State) := run (vecInstr c wd d s1 s2 (some (laneMod (· + ·))) (some fAdd)) s
def execVsub (c wd d s1 s2 : Nat) (s : State) := run (vecInstr c wd d s1 s2 (some (fun w a b => (a + 2 ^ w - b) % 2 ^ w)) (some fSub)) s
def execVmul (c wd d s1 s2 : Nat) (s : State) := run (vecInstr c wd d s1 s2 (some (laneMod (· * ·))) (some fMul)) s
def execVmin (c wd d s1 s2 : Nat) (s : State) := run (vecInstr c wd d s1 s2 (some laneMin) (some (fun _ => fMin))) s
def execVmax (c wd d s1 s2 : Nat) (s : State) := run (vecInstr c wd d s1 s2 (some laneMax) (some (fun _ => fMaxNum))) s
def execVshl (c wd d s1 s2 : Nat) (s : State) := run (vecInstr c wd d s1 s2 (some (fun w a b => a * 2 ^ (b % w) % 2 ^ w)) none) s
def execVshr (c wd d s1 s2 : Nat) (s : State) := run (vecInstr c wd d s1 s2 (some (fun w a b => a / 2 ^ (b % w))) none) s
def execVsar (c wd d s1 s2 : Nat) (s : State) := run (vecInstr c wd d s1 s2 (some laneSar) none) s
def execVdiv (c wd d s1 s2 : Nat) (s : State) := run (vecInstr c wd d s1 s2 none (some fDiv)) s
def execVsqrt (c wd d s1 : Nat) (s : State) := run (vecInstr c wd d s1 s1 none (some (fun rm a _ => fSqrt rm a))) s

/-- A relation's lane: all ones when true. -/
def maskLane (f : Nat → Nat → Bool × FFlags) (a b : Nat) : Nat × FFlags := let r := f a b; (laneMask 64 r.1, r.2)

def execVcmpeq (c wd d s1 s2 : Nat) (s : State) :=
  run (vecInstr c wd d s1 s2 (some (fun w a b => laneMask w (a == b))) (some (fun _ => maskLane fEq))) s
def execVcmplt (c wd d s1 s2 : Nat) (s : State) :=
  run (vecInstr c wd d s1 s2 (some (fun w a b => laneMask w (laneLt w a b))) (some (fun _ => maskLane fLt))) s

/-- Bitwise on 128 bits; the width is ignored, but a reserved one is ILLEGAL (R242). -/
def bitwise (c wd d s1 s2 : Nat) (f : Vec → Vec → Vec) (s : State) : State :=
  tryInstr c true (fun r => if 4 < wd then none else some (r.setVr d (f (r.vr s1) (r.vr s2)))) s

def execVand (c wd d s1 s2 : Nat) (s : State) := run (bitwise c wd d s1 s2 (· &&& ·)) s
def execVor (c wd d s1 s2 : Nat) (s : State) := run (bitwise c wd d s1 s2 (· ||| ·)) s
def execVxor (c wd d s1 s2 : Nat) (s : State) := run (bitwise c wd d s1 s2 (· ^^^ ·)) s

/-- D = S1 × S2 + D in each lane, one rounding; float64 only. -/
def execVfma (c wd d s1 s2 : Nat) (s : State) :=
  run (tryInstr c true (fun r =>
    if wd ≠ 4 then none
    else
      let x := fFma r.rm (laneOf 64 (r.vr s1) 0) (laneOf 64 (r.vr s2) 0) (laneOf 64 (r.vr d) 0)
      let y := fFma r.rm (laneOf 64 (r.vr s1) 1) (laneOf 64 (r.vr s2) 1) (laneOf 64 (r.vr d) 1)
      some ((r.setVr d (ofLanes 64 [x.1, y.1])).addFlags (x.2.join y.2)))) s

/-- Every lane the low bits of g[S1]. -/
def execVsplat (c wd d s1 : Nat) (s : State) :=
  run (tryInstr c true (fun r =>
    if 4 < wd then none else some (r.setVr d (ofLanes (laneBits wd) (List.replicate (128 / laneBits wd) (r.gr s1).toNat))))) s

/-- g[D] = a lane, sign-extended; a lane number beyond the count is ILLEGAL. -/
def execVext (c wd d s1 lane : Nat) (s : State) :=
  run (tryInstr c true (fun r =>
    if 4 < wd ∨ 128 ≤ lane * laneBits wd then none
    else some (r.setGr d (BitVec.ofInt 64 (sgn (laneBits wd) (laneOf (laneBits wd) (r.vr s1) lane)))))) s

/-- One lane of v[D] replaced by the low bits of g[S1]. -/
def execVins (c wd d s1 lane : Nat) (s : State) :=
  run (tryInstr c true (fun r =>
    if 4 < wd ∨ 128 ≤ lane * laneBits wd then none
    else some (r.setVr d (BitVec.ofNat 128 (setBits (r.vr d).toNat (laneBits wd * lane) (laneBits wd) (r.gr s1).toNat))))) s

/-- Lane 0 = lane 0 + lane 1 of S1, lane 1 cleared; float64 and 64-bit integers. -/
def execVsum (c wd d s1 : Nat) (s : State) :=
  run (tryInstr c true (fun r =>
    let a := laneOf 64 (r.vr s1) 0
    let b := laneOf 64 (r.vr s1) 1
    if wd = 4 then (let x := fAdd r.rm a b; some ((r.setFr d x.1).addFlags x.2))
    else if wd = 3 then some (r.setFr d (a + b))
    else none)) s

end Sys2Proof.Machine
end

