-- ==== Sys2Proof/Machine/CyInt.lean ====
section
/-!
DEFINITION. Sys2Proof/Machine/CyInt.lean: the integer, branch and jump instructions (Table ISA-3, Table ISA-4; R241 to R244), and the word that is no instruction (R242).
-/
namespace Sys2Proof.Machine

/-- The instruction on which a core raises ILLEGAL for the word w: none that Table ISA-3 lists, or one of a class the steward lacks (R238, R242). -/
def illegalWord (c w : Nat) : Bool := (decodeCyent c w).isNone || (c == 16 && fieldOnly w)

def execIllegal (c w : Nat) (s : State) := run (exec1 c false (fun _ s => if illegalWord c w then takeExc c 1 0 s else s)) s

def execAdd (c d s1 s2 : Nat) (wf : Bool) (s : State) := run (aluInstr c d s1 s2 (aluAdd wf)) s
def execSub (c d s1 s2 : Nat) (wf : Bool) (s : State) := run (aluInstr c d s1 s2 (aluSub wf)) s
def execAnd (c d s1 s2 : Nat) (wf : Bool) (s : State) := run (aluInstr c d s1 s2 (aluAnd wf)) s
def execOr (c d s1 s2 : Nat) (wf : Bool) (s : State) := run (aluInstr c d s1 s2 (aluOr wf)) s
def execXor (c d s1 s2 : Nat) (wf : Bool) (s : State) := run (aluInstr c d s1 s2 (aluXor wf)) s
def execSll (c d s1 s2 : Nat) (wf : Bool) (s : State) := run (aluInstr c d s1 s2 (aluSll wf)) s
def execSrl (c d s1 s2 : Nat) (wf : Bool) (s : State) := run (aluInstr c d s1 s2 (aluSrl wf)) s
def execSra (c d s1 s2 : Nat) (wf : Bool) (s : State) := run (aluInstr c d s1 s2 (aluSra wf)) s
def execSlt (c d s1 s2 : Nat) (wf : Bool) (s : State) := run (aluInstr c d s1 s2 (aluSlt wf)) s
def execSltu (c d s1 s2 : Nat) (wf : Bool) (s : State) := run (aluInstr c d s1 s2 (aluSltu wf)) s
def execMin (c d s1 s2 : Nat) (wf : Bool) (s : State) := run (aluInstr c d s1 s2 (aluMin wf)) s
def execMax (c d s1 s2 : Nat) (wf : Bool) (s : State) := run (aluInstr c d s1 s2 (aluMax wf)) s
def execMinu (c d s1 s2 : Nat) (wf : Bool) (s : State) := run (aluInstr c d s1 s2 (aluMinu wf)) s
def execMaxu (c d s1 s2 : Nat) (wf : Bool) (s : State) := run (aluInstr c d s1 s2 (aluMaxu wf)) s
def execClz (c d s1 : Nat) (s : State) := run (aluInstr1 c d s1 aluClz) s
def execCtz (c d s1 : Nat) (s : State) := run (aluInstr1 c d s1 aluCtz) s
def execPopc (c d s1 : Nat) (s : State) := run (aluInstr1 c d s1 aluPopc) s
def execBswap (c d s1 : Nat) (wf : Bool) (s : State) := run (aluInstr1 c d s1 (aluBswap wf)) s

/-! ### Multiply and divide (R243, R244) -/

def execMul (c d s1 s2 : Nat) (wf : Bool) (s : State) := run (aluInstr c d s1 s2 (aluMul wf)) s
def execDiv (c d s1 s2 : Nat) (wf : Bool) (s : State) := run (aluInstr c d s1 s2 (aluDiv wf)) s
def execDivu (c d s1 s2 : Nat) (wf : Bool) (s : State) := run (aluInstr c d s1 s2 (aluDivu wf)) s
def execRem (c d s1 s2 : Nat) (wf : Bool) (s : State) := run (aluInstr c d s1 s2 (aluRem wf)) s
def execRemu (c d s1 s2 : Nat) (wf : Bool) (s : State) := run (aluInstr c d s1 s2 (aluRemu wf)) s
def execMulh (c d s1 s2 : Nat) (s : State) := run (aluInstr c d s1 s2 aluMulh) s
def execMulhu (c d s1 s2 : Nat) (s : State) := run (aluInstr c d s1 s2 aluMulhu) s

/-! ### Immediates (Table ISA-3) -/

def execAddi (c d s1 imm : Nat) (s : State) := run (aluInstr1 c d s1 (fun a => addImm a (imm16 imm))) s
def execAndi (c d s1 imm : Nat) (s : State) := run (aluInstr1 c d s1 (fun a => a &&& BitVec.ofNat 64 (imm % 65536))) s
def execOri (c d s1 imm : Nat) (s : State) := run (aluInstr1 c d s1 (fun a => a ||| BitVec.ofNat 64 (imm % 65536))) s
def execXori (c d s1 imm : Nat) (s : State) := run (aluInstr1 c d s1 (fun a => a ^^^ BitVec.ofNat 64 (imm % 65536))) s
def execSlti (c d s1 imm : Nat) (s : State) := run (aluInstr1 c d s1 (fun a => if a.toInt < imm16 imm then 1 else 0)) s

/-- A reserved kind is ILLEGAL (R242). -/
def execShifti (c d s1 kind amt : Nat) (s : State) := run (tryInstr c false (fun r => (aluShift kind amt (r.gr s1)).map (fun x => r.setGr d x))) s

/-- KEEP 0: IMM at its quarter, the rest 0; KEEP 1: that quarter replaced. -/
def movQuarter (q : Nat) (keep : Bool) (imm : Nat) (old : Word) : Word :=
  BitVec.ofNat 64 (setBits (if keep then old.toNat else 0) (16 * (q % 4)) 16 imm)

def execMovw (c d q : Nat) (keep : Bool) (imm : Nat) (s : State) := run (aluInstr1 c d d (movQuarter q keep imm)) s
def execPcadd (c d imm : Nat) (s : State) := run (regInstr c false (fun r => r.setGr d (addImm (r.pc.zeroExtend 64) (65536 * imm16 imm)))) s

/-! ### Branches and jumps (R241) -/

def execBeq (c s1 s2 disp : Nat) (s : State) := run (branchInstr c s1 s2 disp (fun a b => a == b)) s
def execBne (c s1 s2 disp : Nat) (s : State) := run (branchInstr c s1 s2 disp (fun a b => a != b)) s
def execBlt (c s1 s2 disp : Nat) (s : State) := run (branchInstr c s1 s2 disp (fun a b => a.slt b)) s
def execBge (c s1 s2 disp : Nat) (s : State) := run (branchInstr c s1 s2 disp (fun a b => !a.slt b)) s
def execBltu (c s1 s2 disp : Nat) (s : State) := run (branchInstr c s1 s2 disp (fun a b => a.ult b)) s
def execBgeu (c s1 s2 disp : Nat) (s : State) := run (branchInstr c s1 s2 disp (fun a b => !a.ult b)) s

/-- g31 = PC + 4, then the jump. -/
def execJal (c disp : Nat) (s : State) :=
  run (exec1 c false (fun r s => jumpTo c (targetOf r (sgn 26 disp)) (fun r => r.setGr 31 (r.pc.zeroExtend 64 + 4)) s)) s

/-- D = PC + 4; PC = S1 + IMM, S1 read first. -/
def execJalr (c d s1 imm : Nat) (s : State) :=
  run (exec1 c false (fun r s => jumpTo c (addImm (r.gr s1) (imm16 imm)).toNat (fun r => r.setGr d (r.pc.zeroExtend 64 + 4)) s)) s

end Sys2Proof.Machine
end

