-- ==== Sys2Proof/Machine/CyMem.lean ====
section
/-!
DEFINITION. Sys2Proof/Machine/CyMem.lean: loads, stores, atomics and fences (R246, R248 to R260).
-/
namespace Sys2Proof.Machine

/-- A number of w bytes, sign-extended to 64 bits. -/
def sextB (w v : Nat) : Word := BitVec.ofInt 64 (sgn (8 * w) v)

def execLb (c d s1 ofs : Nat) (s : State) := run (loadInstr c s1 ofs 1 1 false (fun v r => r.setGr d (sextB 1 v))) s
def execLbu (c d s1 ofs : Nat) (s : State) := run (loadInstr c s1 ofs 1 1 false (fun v r => r.setGr d (BitVec.ofNat 64 v))) s
def execLh (c d s1 ofs : Nat) (s : State) := run (loadInstr c s1 ofs 1 2 false (fun v r => r.setGr d (sextB 2 v))) s
def execLhu (c d s1 ofs : Nat) (s : State) := run (loadInstr c s1 ofs 1 2 false (fun v r => r.setGr d (BitVec.ofNat 64 v))) s
def execLw (c d s1 ofs : Nat) (s : State) := run (loadInstr c s1 ofs 1 4 false (fun v r => r.setGr d (sextB 4 v))) s
def execLwu (c d s1 ofs : Nat) (s : State) := run (loadInstr c s1 ofs 1 4 false (fun v r => r.setGr d (BitVec.ofNat 64 v))) s
def execLd (c d s1 ofs : Nat) (s : State) := run (loadInstr c s1 ofs 1 8 false (fun v r => r.setGr d (sextB 8 v))) s

def execSb (c d s1 ofs : Nat) (s : State) := run (storeInstr c s1 ofs 1 1 false (fun r => (r.gr d).toNat)) s
def execSh (c d s1 ofs : Nat) (s : State) := run (storeInstr c s1 ofs 1 2 false (fun r => (r.gr d).toNat)) s
def execSw (c d s1 ofs : Nat) (s : State) := run (storeInstr c s1 ofs 1 4 false (fun r => (r.gr d).toNat)) s
def execSd (c d s1 ofs : Nat) (s : State) := run (storeInstr c s1 ofs 1 8 false (fun r => (r.gr d).toNat)) s

/-- VLD and VST: address S1 + 16 × OFFSET, lane 0 at the lowest address; FLD and FST: lane 0 of D. -/
def execVld (c d s1 ofs : Nat) (s : State) := run (loadInstr c s1 ofs 16 16 true (fun v r => r.setVr d (BitVec.ofNat 128 v))) s
def execVst (c d s1 ofs : Nat) (s : State) := run (storeInstr c s1 ofs 16 16 true (fun r => (r.vr d).toNat)) s
def execFld (c d s1 ofs : Nat) (s : State) := run (loadInstr c s1 ofs 1 8 true (fun v r => r.setFr d v)) s
def execFst (c d s1 ofs : Nat) (s : State) := run (storeInstr c s1 ofs 1 8 true (fun r => r.fr d)) s

/-! ### Atomics (R253, R254) -/

def execAtomic (c op size order d s1 s2 : Nat) (s : State) :=
  run (atomicInstr c size order d s1 (fun r old => (atomicVal op size old (r.gr s2)).map some)) s

/-- CAS: S2 is stored only where memory equals the old contents of D (for 32 bits, D zero-extended). -/
def execAtomicCas (c size order d s1 s2 : Nat) (s : State) :=
  run (atomicInstr c size order d s1 (fun r old => some (if old = (r.gr d).toNat then some (r.gr s2).toNat else none))) s

/-! ### Fences: every core observes memory in the order of the commands, so a fence only completes (R255 to R260) -/

def execFenceRw (c : Nat) (s : State) := run (regInstr c false (fun r => r)) s
def execFenceAll (c : Nat) (s : State) := run (regInstr c false (fun r => r)) s
def execFenceI (c : Nat) (s : State) := run (regInstr c false (fun r => r)) s

end Sys2Proof.Machine
end

