-- ==== Sys2Proof/Machine/CySys.lean ====
section
/-!
DEFINITION. Sys2Proof/Machine/CySys.lean: the Millrace, time and system instructions (Tables ISA-11, ISA-12, ISA-14; R272 to R284), the end of an operation's budget and the reset of a core.
-/
namespace Sys2Proof.Machine

/-! ### Millrace (R272 to R276) -/

/-- An instruction of the Millrace class. -/
def mrcInstr (n : Nat) (k : Core → State → State) (s : State) : State := exec1 n true k s

/-- MDONE, MFAIL: the operation ends with a status, an error and a result; the core takes its next dispatch from Millrace. -/
def endInstr (n : Nat) (f : Core → Nat × Nat × Word) (s : State) : State :=
  mrcInstr n (fun c s => let x := f c; endOperation n x.1 x.2.1 x.2.2 (finish n (fun c => c) s)) s

def execMdone (c s1 : Nat) (s : State) := run (endInstr c (fun r => (0, 0, r.gr s1))) s

/-- The error of MFAIL (R273). -/
def failCode (x : Word) : Nat := 0x1E00 + (if x.toNat % 256 = 0 then 0x80 else x.toNat % 256)

def execMfail (c s1 : Nat) (s : State) := run (endInstr c (fun r => (1, failCode (r.gr s1), 0))) s

/-- The cause of R274 for which MPOST posts nothing, or 0. -/
def postCause (x : Nat) (s : State) : Nat :=
  let op := x % 1024
  if x ≠ op + bits x 16 12 * 65536 then 2
  else if !on MRC_CTRL_EN s || !opLoaded op s then 1
  else if !graphOn (opGraph op s) s then 3
  else if freeItems s ≤ rd MRC_RESERVE_RESERVE s then 0xF2 else 0

/-- MPOST: the number of the item posted, or all ones (R274, R302, R310). -/
def mpost (x : Nat) (arg : Word) (s : State) : Word × State :=
  let e := postCause x s
  if e ≠ 0 then (BitVec.allOnes 64, raise 34 (report (0x300 + e) (x % 65536) (count MRC_CNT_POST_REFUSED 1 s)))
  else
    let r := postItem (x % 1024) (bits x 16 12) arg .mpost none s
    (BitVec.ofNat 64 (match item? r.1 r.2 with | some i => i.num | none => 0), r.2)

def execMpost (c d s1 s2 : Nat) (s : State) :=
  run (mrcInstr c (fun r s => let x := mpost (r.gr s1).toNat (r.gr s2) s; finish c (fun r => r.setGr d x.1) x.2)) s

/-- MCANCEL of the item numbered n (R275): 0 cancelled, 1 in service or complete, 2 no such item. -/
def mcancel (n : Nat) (s : State) : Nat × State :=
  match itemNum n s with
  | some q =>
    match item? q s with
    | some i => if i.st = .service then (1, s) else (0, endItem q 2 0x0304 0 s)
    | none => (2, s)
  | none => (if s.mrc.done.contains n then 1 else 2, s)

def execMcancel (c d s1 : Nat) (s : State) :=
  run (mrcInstr c (fun r s => let x := mcancel (r.gr s1).toNat s; finish c (fun r => r.setGr d (BitVec.ofNat 64 x.1)) x.2)) s

/-- MYIELD: the item goes to the tail of its level, its flow stays held (R276). -/
def yieldItem (n : Nat) (s : State) : State :=
  match (coreOf n s).item with
  | some q => makeReady q (idleCore n s)
  | none => idleCore n s

def execMyield (c : Nat) (s : State) := run (mrcInstr c (fun _ s => yieldItem c (finish c (fun r => r) s))) s

/-- What the item in service on core n gives, or a free value on a core without one. -/
def ofItem (n : Nat) (f : Item → State → Word) (s : State) : Word × State :=
  match (coreOf n s).item.bind (fun q => item? q s) with
  | some i => (f i s, s)
  | none => let r := fresh s; (Config.noItemWord r.1, r.2)

def execMarg (c d : Nat) (s : State) :=
  run (mrcInstr c (fun _ s => let x := ofItem c (fun i _ => i.arg) s; finish c (fun r => r.setGr d x.1) x.2)) s
def execMid (c d : Nat) (s : State) :=
  run (mrcInstr c (fun _ s => let x := ofItem c identity s; finish c (fun r => r.setGr d x.1) x.2)) s

/-! ### Time (R277, R278) -/

/-- D = a number taken from the clocks. -/
def timeInstr (n d : Nat) (f : State → Nat) (s : State) : State :=
  exec1 n false (fun _ s => finish n (fun c => c.setGr d (BitVec.ofNat 64 (f s))) s) s

def execTsite (c d : Nat) (s : State) := run (timeInstr c d siteNs) s
def execTct (c d : Nat) (s : State) := run (timeInstr c d claimTime) s
def execTcyc (c d s1 : Nat) (s : State) :=
  run (exec1 c false (fun _ s => finish c (fun r => r.setTwo d s1 (BitVec.ofNat 64 (cycleNo s)) (BitVec.ofNat 64 (cyclePhase s))) s)) s

/-- All four ports share one port time (R379); a port number above 3 is ILLEGAL. -/
def execTport (c d port : Nat) (s : State) :=
  run (exec1 c false (fun _ s => if 3 < port then takeExc c 1 0 s else finish c (fun r => r.setGr d (BitVec.ofInt 64 (portNs s))) s)) s

def execTwait (c d s1 : Nat) (s : State) :=
  run (exec1 c false (fun _ s => startWait c { kind := .twait, d := d, s1 := s1, s2 := 0, flume := 0, since := s.clk.frc } s)) s

/-! ### System -/

/-- SYSC raises SYSCALL and changes no general register. -/
def execSysc (c _s1 : Nat) (s : State) := run (exec1 c false (fun _ s => takeExc c 0x0C 0 s)) s

/-- BRK halts the core into debug where debug is enabled, and raises BREAK otherwise (R284). -/
def execBrk (c : Nat) (s : State) :=
  run (exec1 c false (fun _ s => if debugOn s then onCore c (fun r => { r with debug := true }) s else takeExc c 0x0D 0 s)) s

def execEret (c : Nat) (s : State) := run (eretInstr c) s
def execCrr (c d num : Nat) (s : State) := run (crInstr c d num none) s
def execCrw (c d s1 num : Nat) (s : State) := run (crInstr c d num (some s1)) s

/-- BUDGET at OP level (R281). -/
def execBudgetExpiry (c : Nat) (s : State) := run (budgetExc c) s

/-- CCX_CORE_CTRL_n.RESET (R283, Table MRC-2). -/
def execCoreReset (n : Nat) (s : State) := run (fun s => if n < 16 ∧ s.pwr.off = false then coreReset n s else s) s

end Sys2Proof.Machine
end

