-- ==== Sys2Proof/Machine/Mill.lean ====
section
/-!
DEFINITION. Sys2Proof/Machine/Mill.lean: the commands of Millrace (09_millrace_scheduler.md), of the memory controller and of the flume
controller (10_memory_and_flumes.md), each over the operations of Mrc.lean, Mem.lean and Flm.lean.
-/
namespace Sys2Proof.Machine

/-- One dispatch decision (R294, R295). -/
def execItemDispatch (s : State) := run dispatch s
/-- R296. -/
def execAffinityRelease (n : Nat) (s : State) := run (affinityRelease n) s
/-- WAIT_LIM (Table MRC-8, event 39). -/
def execReadyWaitLong (n : Nat) (s : State) := run (waitLong n) s
/-- R303. -/
def execFlumeTrigger (f : Nat) (s : State) := run (flumeTrigger f) s
/-- R307. -/
def execTriggerSpillMark (f : Nat) (s : State) := run (triggerMark f) s
/-- R313. -/
def execMillraceTimer (t : Nat) (s : State) := run (timerExpiry t) s
/-- R314. -/
def execCancelFlow (flow : Nat) (s : State) := run (cancelFlow flow) s
/-- R314. -/
def execCancelOp (op : Nat) (s : State) := run (cancelOp op) s
/-- R302. -/
def execGraphEnable (g : Nat) (s : State) := run (graphEnable g) s
/-- R315. -/
def execGraphDisable (g : Nat) (s : State) := run (graphDisable g) s
/-- R315. -/
def execMillraceDisable (s : State) := run millraceOff s
/-- R300, R301. -/
def execDescriptorWrite (k w value : Nat) (s : State) := run (descriptorWrite k w value) s
/-- MRC_LAT.CLEAR (R297). -/
def execMrcLatClear (s : State) := run (wr MRC_LAT_MAX 0) s

/-- R327 to R330. -/
def execScrubVisit (store : Nat) (upsets : List (Nat × Nat)) (syndrome late : Bool) (s : State) :=
  run (scrubVisit store upsets syndrome late) s
/-- R327. -/
def execScrubRestart (s : State) := run scrubRestart s
/-- R332. -/
def execInject (s : State) := run injectError s
/-- CLEAR_ERR of MEM_CMD (R331). -/
def execMemClearErr (s : State) := run (fun s => memCmdDone 3 0 0 (clearErr 5 s)) s

/-- R348. -/
def execFlush (f : Nat) (s : State) := run (flushCmd f) s
/-- R333. -/
def execFlumeEnable (f : Nat) (s : State) := run (flumeEnable f) s
/-- R348. -/
def execFlumeDisable (f : Nat) (s : State) := run (flumeDisable f) s
/-- R347. -/
def execFlowPinIn (p : Nat) (level : Bool) (s : State) := run (flowPin p level) s

end Sys2Proof.Machine
end

