-- ==== Sys2Proof/Machine/Svc.lean ====
section
/-!
DEFINITION. Sys2Proof/Machine/Svc.lean: the service protocol (12_service_protocol.md, R396 to R420): discovery, sessions, requests, ledger streams, digests, and KEY_CHANGE (16_keys_and_presence.md, R517 to R522).
-/
namespace Sys2Proof.Machine

/-! ### Sessions (R396 to R405) -/

/-- The steward serves hosts: the service record is enabled, and E0 runs. -/
def serviceOn (s : State) : Bool := stewardUp s && s.site.service && ethOn 0 s

/-- A datagram's KIND carries a tag. -/
def hasTag (kind : Nat) : Bool := kind != 1 && kind != 2 && kind != 7

/-- MAGIC, VERSION, KIND (one the module receives), LEN, the reserved bits and the length agree with Table GSP-2 (R399). -/
def datagramOk (d : List Byte) : Bool :=
  decide (24 ≤ d.length) && leAt d 0 2 == 0x4753 && leAt d 2 1 == 1 && (leAt d 3 1 == 1 || leAt d 3 1 == 3) && leAt d 15 1 / 4 == 0 && leAt d 20 4 == 0
    && decide (leAt d 18 2 ≤ 1280) && d.length == 24 + leAt d 18 2 + (if hasTag (leAt d 3 1) then 16 else 0) && (leAt d 3 1 != 1 || leAt d 18 2 == 34)

/-- Adds one to a counter of Table GSP-6. -/
def sat32 (n : Nat) : Nat := min (n + 1) 0xFFFFFFFF

def countMalformed (s : State) : State := setStw { s.stw with malformed := sat32 s.stw.malformed } s
def countBadTag (s : State) : State := setStw { s.stw with badTag := sat32 s.stw.badTag } s

/-- An identifier that no session holds. -/
def newSession (s : State) : Nat × State :=
  let r := fresh s
  (((List.range 5).map (fun i => (Config.sessionId r.1 + i) % 0xFFFFFFFF + 1)).find? (fun i => (sessOf i s).isNone) |>.getD 1, r.2)

/-- HELLO: WELCOME, REJECT, or nothing. -/
def hello (peer : Nat) (d : List Byte) (s : State) : State :=
  let slot := leAt d 24 2
  let key : Option (List Byte) := if slot = 16 ∧ lifecycle s = 2 then none else match folioKey slot 1 s with | .ok k => some k | .error _ => none
  match key with
  | none => countBadTag s
  | some k =>
    if (hmac k (d.take 42)).take 16 ≠ slice d 42 16 then countBadTag s
    else if 4 ≤ s.stw.sessions.length then emit (.host peer (gspHeader 7 0 (leAt d 8 4) 0 4 0 0x00F2 0)) s
    else
      let n := newSession s
      let r := randomBytes 16 n.2
      let host := slice d 26 16
      let h := gspHeader 2 n.1 (leAt d 8 4) 0 0 0 0 32
      let x : Session := { slot := slot, key := hkdf k (host ++ r.1) (ascii "GSP1" ++ leBytes 4 n.1) 32, peer := peer, win := 1, last := s.clk.frc }
      emit (.host peer (h ++ r.1 ++ (hmac k (h ++ r.1 ++ host)).take 16)) (setSess n.1 x r.2)

/-- HELLO as a datagram. -/
def helloDatagram (peer : Nat) (d : List Byte) (s : State) : State :=
  if !serviceOn s then s else if !datagramOk d then countMalformed s else if leAt d 3 1 = 1 then hello peer d s else s

def closeSession (id : Nat) (s : State) : State := setStw { s.stw with sessions := tdel id s.stw.sessions } s

/-- 60 s of the free-running counter without a valid REQUEST. -/
def sessionTimeout (id : Nat) (s : State) : State :=
  match sessOf id s with
  | some x => if decide (30000000000 ≤ s.clk.frc - x.last) && stewardUp s then closeSession id s else s
  | none => s

/-! ### Requests (R404 to R411) -/

/-- What a request is answered: STATUS, ERROR, payload; none while its completion is awaited. -/
abbrev Reply := Option (Nat × Nat × List Byte)

def done (p : List Byte) : Reply := some (0, 0, p)
def refused (e : Nat) : Reply := some (4, e, [])
def ended (r : Nat × Nat) : Reply := some (r.1, r.2, [])

/-- A RESPONSE that is not stored: to a STALE request, or to one whose response has left the store. -/
def respondOnce (id seq code error : Nat) (x : Session) (s : State) : State :=
  emit (.host x.peer (gspSealed x.key (gspHeader 4 id seq code 4 0 error 0) 2 id seq [])) s

/-- The RESPONSE of a request served; a session that the request itself has closed is answered under the key it had. -/
def answer (id seq code : Nat) (x : Session) (r : Reply) (s : State) : State :=
  match r with
  | none => s
  | some (st, e, p) =>
    let flags := if st = 4 ∧ e % 256 = 0xF0 then 1 else 0
    if (sessOf id s).isSome then respond id seq code st e flags p s
    else emit (.host x.peer (gspSealed x.key (gspHeader 4 id seq code st flags e p.length) 2 id seq p)) s

/-- One REQUEST whose tag holds. exempt: always accepted (R409); serve answers it. -/
def takeRequest (id seq code : Nat) (p : List Byte) (x : Session) (exempt : Bool) (serve : Nat → Nat → List Byte → State → Reply × State) (s : State) : State :=
  let f := dupFilter x.top x.win seq
  let x := { x with last := s.clk.frc }
  let s := setSess id x s
  let dup := setStw { s.stw with dupStale := sat32 s.stw.dupStale } s
  if f.1 = 2 then respondOnce id seq code 0x0044 x dup
  else if f.1 = 1 then
    match x.kept.find? (fun k => k.1 == seq) with
    | some k => emit (.host x.peer k.2) dup
    | none => if x.busy.any (fun b => b.1 == seq) then dup else respondOnce id seq code 0x0045 x dup
  else
    let full := !exempt && decide (8 ≤ x.busy.length)
    let x := { x with top := f.2.1, win := f.2.2 }
    let s := setSess id x s
    if full then answer id seq code x (refused 0x00F2) (setStw { s.stw with queueFull := sat32 s.stw.queueFull } s)
    else match serve id seq p s with | (r, s) => answer id seq code x r s

/-- A datagram taken as a REQUEST that this row serves: mine says of which code and payload. -/
def hostRequest (mine : Nat → List Byte → Bool) (exempt : Bool) (serve : Nat → Nat → List Byte → State → Reply × State) (d : List Byte) (s : State) : State :=
  if !serviceOn s then s
  else if !datagramOk d then countMalformed s
  else if leAt d 3 1 = 1 then s
  else
    let id := leAt d 4 4
    let seq := leAt d 8 4
    let n := leAt d 18 2
    match sessOf id s with
    | none => countBadTag s
    | some x =>
      match gcmOpen x.key (gspNonce 1 id seq) (d.take 24) (slice d 24 n) (slice d (24 + n) 16) with
      | none => countBadTag s
      | some p => if mine (leAt d 12 2) p then takeRequest id seq (leAt d 12 2) p x exempt serve s else s

/-- The rows with one code. -/
def ofCode (c : Nat) : Nat → List Byte → Bool := fun code _ => code == c

/-- A request whose payload has a fixed length, and a content test. -/
def sized (n : Nat) (ok : List Byte → Bool) (f : List Byte → State → Reply × State) : Nat → Nat → List Byte → State → Reply × State :=
  fun _ _ p s => if p.length = n ∧ ok p = true then f p s else (refused 0x0041, s)

def bare (f : State → Reply × State) : Nat → Nat → List Byte → State → Reply × State := sized 0 (fun _ => true) (fun _ s => f s)

/-- Codes of Table GSP-5. -/
def knownCode (c : Nat) : Bool :=
  [0x02, 0x03, 0x10, 0x11, 0x12, 0x20, 0x21, 0x22, 0x23, 0x24, 0x28, 0x29, 0x2A, 0x2B, 0x2C, 0x30, 0x31, 0x38, 0x39, 0x3A, 0x40, 0x41, 0x42, 0x43, 0x50, 0x51].contains c

/-! ### Registers and memory (R412 to R414, R620) -/

/-- A control-space address the host may name: aligned, and inside. -/
def hostAddr (a : Nat) : Bool := a % 4 == 0 && decide (0xE0000000 ≤ a ∧ a < 0xE01F0000)

/-- A block closed to the host (R412). -/
def closedBlk (a : Nat) : Bool := decide (26 ≤ blkOfAddr a ∧ blkOfAddr a ≤ 30)

def regRead (p : List Byte) (s : State) : Reply × State :=
  let a := leAt p 0 4
  let l := (List.range (leAt p 4 2)).map (fun i => a + 4 * i)
  if !l.all hostAddr then (refused 0x0041, s)
  else if l.any closedBlk then (refused 0x0042, s)
  else
    let r := l.foldl (fun (q : List Byte × State) a => let x := readControl a q.2; (q.1 ++ leBytes 4 x.1, x.2)) ([], s)
    (done r.1, r.2)

/-- The pairs of a REG_WRITE in order, up to the first that is refused: how many were written, the error. -/
def writePairs : List (Nat × Nat) → Nat → State → (Nat × Nat) × State
  | [], n, s => ((n, 0), s)
  | (a, v) :: t, n, s =>
    if closedBlk a then ((n, 0x0042), s)
    else
      let r := writeControl 17 a v s
      if r.1 = 0 then writePairs t (n + 1) r.2 else ((n, r.1), r.2)

def regWrite (p : List Byte) (s : State) : Reply × State :=
  let n := leAt p 0 2
  let l := (List.range n).map (fun i => (leAt p (2 + 8 * i) 4, leAt p (6 + 8 * i) 4))
  if decide (n < 1 ∨ 128 < n) || p.length != 2 + 8 * n || !l.all (fun x => hostAddr x.1) then (refused 0x0041, s)
  else match writePairs l 0 s with | (r, s) => (some (if r.2 = 0 then 0 else 1, r.2, leBytes 2 r.1), s)

def memRead (p : List Byte) (s : State) : Reply × State :=
  let a := leAt p 0 4
  let n := leAt p 4 2
  if sramSize < a + n then (refused 0x0041, s)
  else
    let r := eccReadRange a n 0 16 s
    if r.1 then (done (bytesAt r.2.mem a n), r.2) else (some (1, 0x0501, []), r.2)

/-! ### Images, editions, the program (R415, R416) -/

/-- Sixty-four pieces in order. -/
def joinPieces (t : Tbl (List Byte)) : List Byte := (t.map Prod.snd).flatten

def gatherPut (p : List Byte) (s : State) : Reply × State :=
  let g := leAt p 0 2
  let i := leAt p 2 1
  match s.upd.dl with
  | none => (refused 0x1BF4, s)
  | some d =>
    let held := tget [] g s.upd.pieces
    if d.have_.contains g || (tfind i held).isSome then (done [], s)
    else
      let held := tins i (p.drop 4) held
      if held.length < 64 then (done [], setUpd { s.upd with pieces := tins g held s.upd.pieces } s)
      else match acceptGather g (joinPieces held) (setUpd { s.upd with pieces := tdel g s.upd.pieces } s) with | (e, s) => (if e = 0 then done [] else refused e, s)

/-- UPD_STATUS and the download bitmap of 1,024 bits. -/
def imageStatus (s : State) : Reply × State :=
  let have_ := match s.upd.dl with | some d => d.have_ | none => []
  (done (leBytes 4 (wordAt 27 4 s) ++ leBytes 128 (maskOf 1024 (fun i => have_.contains i))), s)

def imageVerify (s : State) : Reply × State :=
  match s.upd.dl with
  | none => (refused 0x1BF4, s)
  | some d => match startVerification (2 * (d.kind - 1) + d.slot) s with | (true, s) => (done [], s) | (false, s) => (refused 0x1BF4, s)

def withError (r : Nat × State) : Reply × State := (if r.1 = 0 then done [] else refused r.1, r.2)

def editionWrite (good lost : Bool) (p : List Byte) (s : State) : Reply × State :=
  if !windowOpen s then (refused 0x1CF0, gateRefused s) else match writeEdition p good lost s with | (r, s) => (ended r, s)

/-- The program image in force is running. -/
def programRuns (s : State) : Bool := rd STW_BOOT_STAGE s == 3 && (List.range 16).any (fun n => (coreOf n s).st == .op || (coreOf n s).st == .run || ((coreOf n s).st == .idle && coreEn n s))

def progStart (s : State) : Reply × State :=
  if programRuns s || (programSlot s).isNone || !awake s then (refused 0x00F4, s)
  else match startProgram 0 s with | (true, s) => (done [], s) | (false, s) => (some (1, 0x1E11, []), s)

def progHalt (s : State) : Reply × State := if lane s = 1 then (refused 0x0046, s) else (done [], haltProgram s)

/-- PROG_VERSION of the running program image. -/
def progVersion (s : State) : Option Nat :=
  if rd STW_BOOT_STAGE s = 3 then (programSlot s).map (fun k => leAt (slotContent k s) 24 4) else none

/-! ### Pair and cascade (R492, R499) -/

def twinPair (pub : Option (List Byte)) (p : List Byte) (s : State) : Reply × State :=
  if !windowOpen s then (refused 0x18F0, gateRefused s)
  else match pairWith pub (wr TWN_PARTNER_LO (leAt p 0 4) (wr TWN_PARTNER_HI (leAt p 4 4) s)) with | (r, s) => (ended r, s)

/-- JOIN with the headwater and the member number named; a CAS that is off is enabled as a tributary first. -/
def cascadeJoin (p : List Byte) (s : State) : Reply × State :=
  if !windowOpen s then (refused 0x19F0, gateRefused s)
  else
    let was := on CAS_CTRL_EN s
    let free := !was || (rd CAS_CTRL_ROLE s == 2 && casState s == 0)
    let s := if free then wr CAS_HEAD_LO (leAt p 0 4) (wr CAS_HEAD_HI (leAt p 4 4) (wr CAS_CTRL_MEMBER (leAt p 8 1) s)) else s
    let s := if was then s else casCtrl false 1 (wr CAS_CTRL_ROLE 2 s)
    match startJoin s with | (some r, s) => (ended r, s) | (none, s) => (done [], s)

/-! ### The stop lane (R417) -/

def hostStop (s : State) : Reply × State :=
  let s := react (setStp { s.stp with host := true } s)
  (done (leBytes 8 (rd64 STP_EPOCH_LO STP_EPOCH_HI s) ++ leBytes 2 (rd STP_SERIAL_SERIAL s)), s)

def hostResume (s : State) : Reply × State := (done [], react (setStp { s.stp with host := false } s))

/-- RELEASE through STP_CMD: answered at once when refused, else when the step completes. -/
def hostRelease (id seq : Nat) (p : List Byte) (s : State) : Reply × State :=
  if !p.isEmpty then (refused 0x0041, s)
  else
    let e := releaseCause s
    if e ≠ 0 then (refused e, releaseCmd s)
    else (none, releaseCmd (match sessOf id s with | some x => setSess id { x with busy := x.busy ++ [(seq, 0x0042)] } s | none => s))

def hostOverride (s : State) : Reply × State :=
  let s := overrideCmd s
  (ended (rd STP_CMD_RES_STATUS s, rd STP_CMD_RES_ERROR s), s)

/-! ### Ledger streams (R418, R419) -/

/-- A ledger record as its 64 bytes (Table EVT-4). -/
def recBytes (r : LRec) : List Byte :=
  let b := leBytes 8 r.seq ++ leBytes 8 r.site ++ leBytes 1 r.cls ++ leBytes 1 r.kind ++ leBytes 2 r.source ++ leBytes 2 r.error ++ leBytes 2 r.rep ++ leBytes 8 r.last ++ leBytes 4 r.cycle
    ++ (padTo 24 r.data).take 24
  b ++ leBytes 4 (crc32 b)

/-- A class is chosen by CLASSES (bit 0 alarms, bit 1 logs, bit 2 traces). -/
def classChosen (classes cls : Nat) : Bool := bit classes (3 - cls)

/-- The ledger's records from a sequence on, of the classes chosen, in order, each once. -/
def ledgerFrom (classes from_ : Nat) (s : State) : List LRec :=
  let pick := fun (l : List LRec) => l.filter (fun r => decide (from_ ≤ r.seq) && classChosen classes r.cls)
  let l := sortBy (fun a b => decide (a.seq ≤ b.seq)) (pick (archived s) ++ pick s.evt.staged)
  l.foldr (fun r t => match t with | x :: _ => if x.seq = r.seq then t else r :: t | [] => [r]) []

def ledgerOpen (id : Nat) (p : List Byte) (s : State) : Reply × State :=
  if p.length ≠ 9 ∨ 7 < leAt p 0 1 then (refused 0x0041, s)
  else
    match sessOf id s with
    | none => (refused 0x0043, s)
    | some x => if x.stream.isSome then (refused 0x0047, s) else (done [], setSess id { x with stream := some { classes := leAt p 0 1, next := leAt p 1 8 } } s)

def ledgerAck (id : Nat) (p : List Byte) (s : State) : Reply × State :=
  if p.length ≠ 4 then (refused 0x0041, s)
  else
    match sessOf id s with
    | some x =>
      match x.stream with
      | some t => (done [], setSess id { x with stream := some { t with open_ := t.open_.filter (fun o => decide (leAt p 0 4 < o.1)) } } s)
      | none => (refused 0x00F4, s)
    | none => (refused 0x0043, s)

def ledgerClose (id : Nat) (p : List Byte) (s : State) : Reply × State :=
  if !p.isEmpty then (refused 0x0041, s)
  else
    match sessOf id s with
    | some x => if x.stream.isSome then (done [], setSess id { x with stream := none } s) else (refused 0x00F4, s)
    | none => (refused 0x0043, s)

/-- Bytes of digests and STREAM messages sent in the last second. -/
def recentlySent (s : State) : Nat := ((s.stw.sentAt.filter (fun p => decide (s.clk.frc - p.1 < 500000000))).map Prod.snd).sum

def noteSent (n : Nat) (s : State) : State :=
  setStw { s.stw with sentAt := s.stw.sentAt.filter (fun p => decide (s.clk.frc - p.1 < 500000000)) ++ [(s.clk.frc, n)] } s

/-- A STREAM message of n bytes waits for the rate of R420. -/
def streamWaits (n : Nat) (s : State) : Bool := decide (65536 < recentlySent s + n)

def countDefer (s : State) : State := setStw { s.stw with streamDefer := sat32 s.stw.streamDefer } s

/-- STREAM_SEND: the next records of a session's stream, at most twenty. -/
def streamSend (id : Nat) (s : State) : State :=
  match sessOf id s with
  | none => s
  | some x =>
    match x.stream with
    | none => s
    | some t =>
      let l := ledgerFrom t.classes t.next s
      if l.isEmpty || decide (64 ≤ t.open_.length) || !serviceOn s then s
      else
        let part := l.take 20
        let body := part.flatMap recBytes
        if streamWaits (40 + body.length) s then countDefer s
        else
          let seq := (x.streamSeq + 1) % 2 ^ 32
          let d := gspSealed x.key (gspHeader 5 id seq 0 0 (if 20 < l.length then 2 else 0) 0 body.length) 3 id seq body
          let next := match part.getLast? with | some r => r.seq + 1 | none => t.next
          emit (.host x.peer d) (noteSent d.length (setSess id { x with streamSeq := seq, stream := some { t with next := next, at_ := s.clk.frc, open_ := t.open_ ++ [(seq, d)] } } s))

/-- STREAM_RESEND: while 64 messages are outstanding the oldest goes out again every 1 s. -/
def streamResend (id : Nat) (s : State) : State :=
  match sessOf id s with
  | none => s
  | some x =>
    match x.stream with
    | none => s
    | some t =>
      match t.open_ with
      | [] => s
      | o :: _ =>
        if t.open_.length < 64 || decide (s.clk.frc - t.at_ < 500000000) || !serviceOn s then s
        else if streamWaits o.2.length s then countDefer s
        else emit (.host x.peer o.2) (noteSent o.2.length (setSess id { x with stream := some { t with at_ := s.clk.frc } } s))

/-! ### Discovery and digest (R398, R420) -/

/-- The role as Table GSP-1 names it: 0 single, 1 active, 2 standby, 3 headwater, 4 tributary. -/
def roleCode (s : State) : Nat :=
  let r := twnRole s
  if r = 1 ∨ r = 3 ∨ r = 4 then 2 else if heads s then 3 else if isTrib s then 4 else if r = 2 then 1 else 0

def mdnsAnswer (s : State) : State :=
  if serviceOn s then
    emit (.mdns (ofBe ((moduleEui s).drop 5)) (rd AIR_SITE_SITE_ID s) (rd STW_FW_VERSION s) (progVersion s) (roleCode s) (pwrState s)) s
  else s

/-- Payload of a DIGEST (Table GSP-6). -/
def digestBytes (s : State) : List Byte :=
  leBytes 8 (siteNs s) ++ leBytes 4 (cycleNo s) ++ leBytes 1 (pwrState s) ++ leBytes 1 (wordAt 12 4 s / 2 ^ 24) ++ leBytes 1 (wordAt 6 (REF_STATUS_STATE.key / 32) s) ++ leBytes 1 (roleCode s)
    ++ leBytes 2 (s.air.idx.filter (fun p => p.2.st == .member)).length ++ leBytes 2 (rd SOL_STATUS_FIXED s) ++ leBytes 2 (rd WKR_STATUS_MEMBER s) ++ leBytes 2 (rd WKR_STATUS_LOST s)
    ++ leBytes 4 s.clm.claims.length ++ leBytes 4 s.mrc.items.length ++ leBytes 4 s.stw.alarms ++ leBytes 8 (s.evt.seq - 1)
    ++ leBytes 4 (enc 32 (satS 32 (timeDiff s / 1000))) ++ leBytes 2 (rd PWR_SUPPLY_LOGIC s) ++ leBytes 1 (rd PWR_STATUS_TEMP s) ++ leBytes 1 (rd AIR_TXPWR_GOV s) ++ leBytes 4 (rd STW_FW_VERSION s)
    ++ leBytes 4 ((progVersion s).getD 0) ++ leBytes 4 s.stw.malformed ++ leBytes 4 s.stw.badTag ++ leBytes 4 s.stw.dupStale ++ leBytes 4 s.stw.queueFull ++ leBytes 4 s.stw.streamDefer
    ++ leBytes 16 0

def setDigest (id : Nat) (b : Bool) (s : State) : State := match sessOf id s with | some x => setSess id { x with digest := b } s | none => s

/-- DIGEST_SEND: one message to every session that takes digests. -/
def digestSend (s : State) : State :=
  if !serviceOn s || !s.clk.siteSet then s
  else
    let b := digestBytes s
    s.stw.sessions.foldl (fun s p =>
      if p.2.digest then
        let seq := (p.2.digestSeq + 1) % 2 ^ 32
        let d := gspSealed p.2.key (gspHeader 6 p.1 seq 0 0 0 0 b.length) 4 p.1 seq b
        emit (.host p.2.peer d) (noteSent d.length (setSess p.1 { p.2 with digestSeq := seq } s))
      else s) s

/-! ### KEY_CHANGE (Table KEY-5) -/

/-- A KEY_CHANGE payload has the form of Table KEY-5. -/
def keyPayloadOk (p : List Byte) : Bool :=
  let op := leAt p 0 1
  let folio := decide (2 ≤ op ∧ op ≤ 4)
  p.length == 44 && decide (1 ≤ op ∧ op ≤ 6) && leAt p 7 1 == 0 && leAt p 11 1 == 0
    && (decide (op ≤ 4) || leAt p 1 1 == 0) && (op != 6 || leAt p 2 2 == 0)
    && (if folio then leAt p 6 1 == 16 || leAt p 6 1 == 32 else leAt p 4 2 == 0 && leAt p 6 1 == 0)
    && (if op = 2 then (p.drop (12 + leAt p 6 1)).all (· == 0) else leAt p 8 3 == 0 && (p.drop 12).all (· == 0))

/-- The KEY_CHANGE that one row serves; CREATE_QUIRE also takes a payload of the wrong form. -/
def ofOp (op : Nat) : Nat → List Byte → Bool :=
  fun code p => code == 0x0029 && (if keyPayloadOk p then leAt p 0 1 == op else op == 1)

/-- Presence and form, then the change; no answer where power failed before its last write. -/
def keyChange (steps : Nat) (f : List Byte → State → (Nat × Nat) × State) : Nat → Nat → List Byte → State → Reply × State :=
  fun _ _ p s =>
    if !keyPayloadOk p then (refused 0x0041, s)
    else if !windowOpen s then (refused 0x1AF0, gateRefused s)
    else match f p s with | (r, s) => (if steps < 6 then none else ended r, s)

def folioOp (op steps : Nat) (p : List Byte) (s : State) : (Nat × Nat) × State :=
  let len := leAt p 6 1
  folioChange op steps (leAt p 1 1) (leAt p 2 2) (leAt p 4 2) len (slice p 8 3) (slice p 12 len) s

/-- DECOMMISSION (R522): counter 3 advances, every slot is erased, pair and cascade are left, and the lifecycle is OPEN. -/
def decommission (s : State) : (Nat × Nat) × State :=
  if on STP_STATUS_PERMIT s then ((4, 0x1A09), s)
  else if 127 ≤ ctrStep 3 s then ((4, 0x1A08), s)
  else
    let root := (slotOfUsage 2 s).isSome
    let s := advanceCtr 3 (ctrStep 3 s + 1) s
    let s := setKey { s.key with recA := [], recB := [], dbg := [] } s
    let s := if root then rotateBkey s else s
    let s := if twnRole s = 0 then s else leavePair s
    let s := if isTrib s ∨ heads s then leftCascade s else s
    let s := note (.record 2 7 233 0 (leBytes 1 0x1A ++ leBytes 4 4 ++ leBytes 8 (lifecycle s) ++ leBytes 8 1 ++ leBytes 3 0)) s
    let s := wr KEY_STATUS_LIFECYCLE 1 (wr KEY_STATUS_EPOCH (keyEpoch s) s)
    ((0, 0), raise 233 (setStw { s.stw with sessions := [] } s))

/-! ### Meanings -/

def execHello (peer : Nat) (d : List Byte) (s : State) := run (helloDatagram peer d) s
def execSessionTimeout (id : Nat) (s : State) := run (sessionTimeout id) s
def execMdnsQuery (s : State) := run mdnsAnswer s
def execBye (peer : Nat) (d : List Byte) (s : State) :=
  run (hostRequest (ofCode 0x02) false (fun id seq p s =>
    if p.isEmpty then (match sessOf id s with | some x => (none, closeSession id (answer id seq 0x02 x (done []) s)) | none => (none, s)) else (refused 0x0041, s)) d) s
def execPing (peer : Nat) (d : List Byte) (s : State) :=
  run (hostRequest (fun c _ => c == 3 || !knownCode c) false (fun _ _ p s =>
    if knownCode (leAt d 12 2) then (if p.isEmpty then done (leBytes 8 (siteNs s)) else refused 0x0041, s) else (refused 0x0040, s)) d) s
def execRegRead (peer : Nat) (d : List Byte) (s : State) := run (hostRequest (ofCode 0x10) false (sized 6 (fun p => decide (1 ≤ leAt p 4 2 ∧ leAt p 4 2 ≤ 256)) regRead) d) s
def execRegWrite (peer : Nat) (d : List Byte) (s : State) := run (hostRequest (ofCode 0x11) false (fun _ _ p s => regWrite p s) d) s
def execMemRead (peer : Nat) (d : List Byte) (s : State) :=
  run (hostRequest (ofCode 0x12) false (sized 6 (fun p => decide (4 ≤ leAt p 4 2 ∧ leAt p 4 2 ≤ 1024) && leAt p 4 2 % 4 == 0) memRead) d) s
def execImageBegin (peer : Nat) (d : List Byte) (s : State) := run (hostRequest (ofCode 0x20) false (sized 552 (fun _ => true) (fun p s => withError (imageBegin p s))) d) s
def execGatherPut (peer : Nat) (d : List Byte) (s : State) :=
  run (hostRequest (ofCode 0x21) false (sized 1028 (fun p => decide (leAt p 0 2 < 1024) && decide (leAt p 2 1 < 64) && leAt p 3 1 == 0) gatherPut) d) s
def execImageStatus (peer : Nat) (d : List Byte) (s : State) := run (hostRequest (ofCode 0x22) false (bare imageStatus) d) s
def execImageVerify (peer : Nat) (d : List Byte) (s : State) := run (hostRequest (ofCode 0x23) false (bare imageVerify) d) s
def execImageActivate (peer : Nat) (d : List Byte) (s : State) :=
  run (hostRequest (ofCode 0x24) false (sized 1 (fun p => decide (leAt p 0 1 < 6)) (fun p s => withError (activate (leAt p 0 1) s))) d) s
def execEditionWrite (peer : Nat) (d : List Byte) (good lost : Bool) (s : State) := run (hostRequest (ofCode 0x28) false (sized 1024 (fun _ => true) (editionWrite good lost)) d) s
def execDebugEnable (peer : Nat) (d : List Byte) (s : State) := run (hostRequest (ofCode 0x2A) false (bare (fun s => match debugEnable s with | (r, s) => (ended r, s))) d) s
def execTwinPair (peer : Nat) (d : List Byte) (pub : Option (List Byte)) (s : State) := run (hostRequest (ofCode 0x2B) false (sized 8 (fun _ => true) (twinPair pub)) d) s
def execCascadeJoin (peer : Nat) (d : List Byte) (s : State) := run (hostRequest (ofCode 0x2C) false (sized 9 (fun p => decide (leAt p 8 1 < 8)) cascadeJoin) d) s
def execProgStart (peer : Nat) (d : List Byte) (s : State) := run (hostRequest (ofCode 0x30) false (bare progStart) d) s
def execProgHalt (peer : Nat) (d : List Byte) (s : State) := run (hostRequest (ofCode 0x31) false (bare progHalt) d) s
def execLedgerOpen (peer : Nat) (d : List Byte) (s : State) := run (hostRequest (ofCode 0x38) false (fun id _ p s => ledgerOpen id p s) d) s
def execLedgerAck (peer : Nat) (d : List Byte) (s : State) := run (hostRequest (ofCode 0x39) false (fun id _ p s => ledgerAck id p s) d) s
def execLedgerClose (peer : Nat) (d : List Byte) (s : State) := run (hostRequest (ofCode 0x3A) false (fun id _ p s => ledgerClose id p s) d) s
def execStreamSend (id : Nat) (s : State) := run (streamSend id) s
def execStreamResend (id : Nat) (s : State) := run (streamResend id) s
def execHostStop (peer : Nat) (d : List Byte) (s : State) := run (hostRequest (ofCode 0x40) true (bare hostStop) d) s
def execHostResume (peer : Nat) (d : List Byte) (s : State) := run (hostRequest (ofCode 0x41) false (bare hostResume) d) s
def execHostRelease (peer : Nat) (d : List Byte) (s : State) := run (hostRequest (ofCode 0x42) false hostRelease d) s
def execHostOverride (peer : Nat) (d : List Byte) (s : State) := run (hostRequest (ofCode 0x43) false (bare hostOverride) d) s
def execDigestOn (peer : Nat) (d : List Byte) (s : State) := run (hostRequest (ofCode 0x50) false (fun id _ p s => if p.isEmpty then (done [], setDigest id true s) else (refused 0x0041, s)) d) s
def execDigestOff (peer : Nat) (d : List Byte) (s : State) := run (hostRequest (ofCode 0x51) false (fun id _ p s => if p.isEmpty then (done [], setDigest id false s) else (refused 0x0041, s)) d) s
def execDigestSend (s : State) := run digestSend s
def execCreateQuire (peer : Nat) (d : List Byte) (steps : Nat) (s : State) := run (hostRequest (ofOp 1) false (keyChange steps (fun p s => createQuire steps (leAt p 1 1) (leAt p 2 2) s)) d) s
def execImportKey (peer : Nat) (d : List Byte) (steps : Nat) (s : State) := run (hostRequest (ofOp 2) false (keyChange steps (folioOp 2 steps)) d) s
def execGenerateKey (peer : Nat) (d : List Byte) (steps : Nat) (s : State) := run (hostRequest (ofOp 3) false (keyChange steps (folioOp 3 steps)) d) s
def execDeriveKey (peer : Nat) (d : List Byte) (steps : Nat) (s : State) := run (hostRequest (ofOp 4) false (keyChange steps (folioOp 4 steps)) d) s
def execDestroyKey (peer : Nat) (d : List Byte) (steps : Nat) (s : State) := run (hostRequest (ofOp 5) false (keyChange steps (fun p s => destroyKey steps (leAt p 2 2) s)) d) s
def execDecommission (peer : Nat) (d : List Byte) (s : State) := run (hostRequest (ofOp 6) false (keyChange 6 (fun _ s => decommission s)) d) s

end Sys2Proof.Machine
end

