-- ==== Sys2Proof/Machine/Dispatch.lean ====
section
/-!
DEFINITION. Sys2Proof/Machine/Dispatch.lean: one arm per command, each a direct call of its meaning.
-/
namespace Sys2Proof.Machine

def exec (i : Instr) (s : State) : Host.Outcome State Fault Refusal :=
  match i with
  | .registerWrite who addr value => Sys2Proof.Machine.execRegisterWrite who addr value s
  | .commitPoint blk part => Sys2Proof.Machine.execCommitPoint blk part s
  | .cycleStart m => Sys2Proof.Machine.execCycleStart m s
  | .frameFreeze h ack => Sys2Proof.Machine.execFrameFreeze h ack s
  | .hopTransmit h busy => Sys2Proof.Machine.execHopTransmit h busy s
  | .guardCalibration => Sys2Proof.Machine.execGuardCalibration s
  | .airCalDone => Sys2Proof.Machine.execAirCalDone s
  | .observationFrame lane sl off b => Sys2Proof.Machine.execObservationFrame lane sl off b s
  | .replyFrame lane sl off b => Sys2Proof.Machine.execReplyFrame lane sl off b s
  | .joinFrame lane sl off b => Sys2Proof.Machine.execJoinFrame lane sl off b s
  | .partnerJoinFrame lane sl off b => Sys2Proof.Machine.execPartnerJoinFrame lane sl off b s
  | .partnerFrame lane sl off b => Sys2Proof.Machine.execPartnerFrame lane sl off b s
  | .grantLapse m => Sys2Proof.Machine.execGrantLapse m s
  | .indexSilent m => Sys2Proof.Machine.execIndexSilent m s
  | .releaseIndex m => Sys2Proof.Machine.execReleaseIndex m s
  | .cancelOrders m => Sys2Proof.Machine.execCancelOrders m s
  | .orderRecord => Sys2Proof.Machine.execOrderRecord s
  | .orderDeadline => Sys2Proof.Machine.execOrderDeadline s
  | .broadcastKeyRotate => Sys2Proof.Machine.execBroadcastKeyRotate s
  | .broadcastKeySwitch => Sys2Proof.Machine.execBroadcastKeySwitch s
  | .wakePatternRx addr crc => Sys2Proof.Machine.execWakePatternRx addr crc s
  | .rendezvous p => Sys2Proof.Machine.execRendezvous p s
  | .rescueRecall p => Sys2Proof.Machine.execRescueRecall p s
  | .releasePartner p => Sys2Proof.Machine.execReleasePartner p s
  | .wkrCall p => Sys2Proof.Machine.execWkrCall p s
  | .antennaBiasSample n current => Sys2Proof.Machine.execAntennaBiasSample n current s
  | .surveyComplete x y z sigma => Sys2Proof.Machine.execSurveyComplete x y z sigma s
  | .epochLate => Sys2Proof.Machine.execEpochLate s
  | .rawEpoch m => Sys2Proof.Machine.execRawEpoch m s
  | .rtcmEpoch msgs air taken => Sys2Proof.Machine.execRtcmEpoch msgs air taken s
  | .ntripRequest r => Sys2Proof.Machine.execNtripRequest r s
  | .multipathLearning l => Sys2Proof.Machine.execMultipathLearning l s
  | .mapPeriodicSave ok => Sys2Proof.Machine.execMapPeriodicSave ok s
  | .surveyRestart => Sys2Proof.Machine.execSurveyRestart s
  | .posLoad => Sys2Proof.Machine.execPosLoad s
  | .mpClear => Sys2Proof.Machine.execMpClear s
  | .mpSave => Sys2Proof.Machine.execMpSave s
  | .timeAccept => Sys2Proof.Machine.execTimeAccept s
  | .timeSolution tai agree freq => Sys2Proof.Machine.execTimeSolution tai agree freq s
  | .timeSolutionLoss => Sys2Proof.Machine.execTimeSolutionLoss s
  | .holdoverLimit => Sys2Proof.Machine.execHoldoverLimit s
  | .timeConfirm => Sys2Proof.Machine.execTimeConfirm s
  | .slotEnd sl l => Sys2Proof.Machine.execSlotEnd sl l s
  | .solDeadline z stage => Sys2Proof.Machine.execSolDeadline z stage s
  | .solRefMissing => Sys2Proof.Machine.execSolRefMissing s
  | .resetAmb fleet => Sys2Proof.Machine.execResetAmb fleet s
  | .resetAll fleet => Sys2Proof.Machine.execResetAll fleet s
  | .solLatClear => Sys2Proof.Machine.execSolLatClear s
  | .mapLoad => Sys2Proof.Machine.execMapLoad s
  | .mapUnload => Sys2Proof.Machine.execMapUnload s
  | .clmStoreWrite ofs n value => Sys2Proof.Machine.execClmStoreWrite ofs n value s
  | .clmTick => Sys2Proof.Machine.execClmTick s
  | .clmExtend ns => Sys2Proof.Machine.execClmExtend ns s
  | .clmPlace ns => Sys2Proof.Machine.execClmPlace ns s
  | .clmShorten ns => Sys2Proof.Machine.execClmShorten ns s
  | .clmRelease ns => Sys2Proof.Machine.execClmRelease ns s
  | .setReach ns => Sys2Proof.Machine.execSetReach ns s
  | .clmDisable => Sys2Proof.Machine.execClmDisable s
  | .clmLatClear => Sys2Proof.Machine.execClmLatClear s
  | .proTick => Sys2Proof.Machine.execProTick s
  | .axisTick raw => Sys2Proof.Machine.execAxisTick raw s
  | .proAppend => Sys2Proof.Machine.execProAppend s
  | .proClear => Sys2Proof.Machine.execProClear s
  | .proHalt => Sys2Proof.Machine.execProHalt s
  | .proResume => Sys2Proof.Machine.execProResume s
  | .fenceEnable f => Sys2Proof.Machine.execFenceEnable f s
  | .stopInputEdge ch closed => Sys2Proof.Machine.execStopInputEdge ch closed s
  | .stopDiscrepancy => Sys2Proof.Machine.execStopDiscrepancy s
  | .stpStop => Sys2Proof.Machine.execStpStop s
  | .stpClearProgram => Sys2Proof.Machine.execStpClearProgram s
  | .stpRelease => Sys2Proof.Machine.execStpRelease s
  | .stpOverride => Sys2Proof.Machine.execStpOverride s
  | .stopFrameTx k clear lat => Sys2Proof.Machine.execStopFrameTx k clear lat s
  | .stopBurstRepeat => Sys2Proof.Machine.execStopBurstRepeat s
  | .statFault n => Sys2Proof.Machine.execStatFault n s
  | .stpLatClear => Sys2Proof.Machine.execStpLatClear s
  | .illegal c w => Sys2Proof.Machine.execIllegal c w s
  | .add c d s1 s2 wf => Sys2Proof.Machine.execAdd c d s1 s2 wf s
  | .sub c d s1 s2 wf => Sys2Proof.Machine.execSub c d s1 s2 wf s
  | .and c d s1 s2 wf => Sys2Proof.Machine.execAnd c d s1 s2 wf s
  | .or c d s1 s2 wf => Sys2Proof.Machine.execOr c d s1 s2 wf s
  | .xor c d s1 s2 wf => Sys2Proof.Machine.execXor c d s1 s2 wf s
  | .sll c d s1 s2 wf => Sys2Proof.Machine.execSll c d s1 s2 wf s
  | .srl c d s1 s2 wf => Sys2Proof.Machine.execSrl c d s1 s2 wf s
  | .sra c d s1 s2 wf => Sys2Proof.Machine.execSra c d s1 s2 wf s
  | .slt c d s1 s2 wf => Sys2Proof.Machine.execSlt c d s1 s2 wf s
  | .sltu c d s1 s2 wf => Sys2Proof.Machine.execSltu c d s1 s2 wf s
  | .min c d s1 s2 wf => Sys2Proof.Machine.execMin c d s1 s2 wf s
  | .max c d s1 s2 wf => Sys2Proof.Machine.execMax c d s1 s2 wf s
  | .minu c d s1 s2 wf => Sys2Proof.Machine.execMinu c d s1 s2 wf s
  | .maxu c d s1 s2 wf => Sys2Proof.Machine.execMaxu c d s1 s2 wf s
  | .clz c d s1 => Sys2Proof.Machine.execClz c d s1 s
  | .ctz c d s1 => Sys2Proof.Machine.execCtz c d s1 s
  | .popc c d s1 => Sys2Proof.Machine.execPopc c d s1 s
  | .bswap c d s1 wf => Sys2Proof.Machine.execBswap c d s1 wf s
  | .mul c d s1 s2 wf => Sys2Proof.Machine.execMul c d s1 s2 wf s
  | .mulh c d s1 s2 => Sys2Proof.Machine.execMulh c d s1 s2 s
  | .mulhu c d s1 s2 => Sys2Proof.Machine.execMulhu c d s1 s2 s
  | .div c d s1 s2 wf => Sys2Proof.Machine.execDiv c d s1 s2 wf s
  | .divu c d s1 s2 wf => Sys2Proof.Machine.execDivu c d s1 s2 wf s
  | .rem c d s1 s2 wf => Sys2Proof.Machine.execRem c d s1 s2 wf s
  | .remu c d s1 s2 wf => Sys2Proof.Machine.execRemu c d s1 s2 wf s
  | .addi c d s1 imm => Sys2Proof.Machine.execAddi c d s1 imm s
  | .andi c d s1 imm => Sys2Proof.Machine.execAndi c d s1 imm s
  | .ori c d s1 imm => Sys2Proof.Machine.execOri c d s1 imm s
  | .xori c d s1 imm => Sys2Proof.Machine.execXori c d s1 imm s
  | .shifti c d s1 kind amt => Sys2Proof.Machine.execShifti c d s1 kind amt s
  | .slti c d s1 imm => Sys2Proof.Machine.execSlti c d s1 imm s
  | .movw c d q keep imm => Sys2Proof.Machine.execMovw c d q keep imm s
  | .pcadd c d imm => Sys2Proof.Machine.execPcadd c d imm s
  | .lb c d s1 ofs => Sys2Proof.Machine.execLb c d s1 ofs s
  | .lbu c d s1 ofs => Sys2Proof.Machine.execLbu c d s1 ofs s
  | .lh c d s1 ofs => Sys2Proof.Machine.execLh c d s1 ofs s
  | .lhu c d s1 ofs => Sys2Proof.Machine.execLhu c d s1 ofs s
  | .lw c d s1 ofs => Sys2Proof.Machine.execLw c d s1 ofs s
  | .lwu c d s1 ofs => Sys2Proof.Machine.execLwu c d s1 ofs s
  | .ld c d s1 ofs => Sys2Proof.Machine.execLd c d s1 ofs s
  | .sb c d s1 ofs => Sys2Proof.Machine.execSb c d s1 ofs s
  | .sh c d s1 ofs => Sys2Proof.Machine.execSh c d s1 ofs s
  | .sw c d s1 ofs => Sys2Proof.Machine.execSw c d s1 ofs s
  | .sd c d s1 ofs => Sys2Proof.Machine.execSd c d s1 ofs s
  | .vld c d s1 ofs => Sys2Proof.Machine.execVld c d s1 ofs s
  | .vst c d s1 ofs => Sys2Proof.Machine.execVst c d s1 ofs s
  | .fld c d s1 ofs => Sys2Proof.Machine.execFld c d s1 ofs s
  | .fst c d s1 ofs => Sys2Proof.Machine.execFst c d s1 ofs s
  | .atomic c op size order d s1 s2 => Sys2Proof.Machine.execAtomic c op size order d s1 s2 s
  | .atomicCas c size order d s1 s2 => Sys2Proof.Machine.execAtomicCas c size order d s1 s2 s
  | .fenceRw c => Sys2Proof.Machine.execFenceRw c s
  | .fenceAll c => Sys2Proof.Machine.execFenceAll c s
  | .fenceI c => Sys2Proof.Machine.execFenceI c s
  | .beq c s1 s2 disp => Sys2Proof.Machine.execBeq c s1 s2 disp s
  | .bne c s1 s2 disp => Sys2Proof.Machine.execBne c s1 s2 disp s
  | .blt c s1 s2 disp => Sys2Proof.Machine.execBlt c s1 s2 disp s
  | .bge c s1 s2 disp => Sys2Proof.Machine.execBge c s1 s2 disp s
  | .bltu c s1 s2 disp => Sys2Proof.Machine.execBltu c s1 s2 disp s
  | .bgeu c s1 s2 disp => Sys2Proof.Machine.execBgeu c s1 s2 disp s
  | .jal c disp => Sys2Proof.Machine.execJal c disp s
  | .jalr c d s1 imm => Sys2Proof.Machine.execJalr c d s1 imm s
  | .fadd c d s1 s2 => Sys2Proof.Machine.execFadd c d s1 s2 s
  | .fsub c d s1 s2 => Sys2Proof.Machine.execFsub c d s1 s2 s
  | .fmul c d s1 s2 => Sys2Proof.Machine.execFmul c d s1 s2 s
  | .fdiv c d s1 s2 => Sys2Proof.Machine.execFdiv c d s1 s2 s
  | .fsqrt c d s1 => Sys2Proof.Machine.execFsqrt c d s1 s
  | .fmin c d s1 s2 => Sys2Proof.Machine.execFmin c d s1 s2 s
  | .fmax c d s1 s2 => Sys2Proof.Machine.execFmax c d s1 s2 s
  | .fmadd c d s1 s2 => Sys2Proof.Machine.execFmadd c d s1 s2 s
  | .fmsub c d s1 s2 => Sys2Proof.Machine.execFmsub c d s1 s2 s
  | .fnmadd c d s1 s2 => Sys2Proof.Machine.execFnmadd c d s1 s2 s
  | .fabs c d s1 => Sys2Proof.Machine.execFabs c d s1 s
  | .fneg c d s1 => Sys2Proof.Machine.execFneg c d s1 s
  | .feq c d s1 s2 => Sys2Proof.Machine.execFeq c d s1 s2 s
  | .flt c d s1 s2 => Sys2Proof.Machine.execFlt c d s1 s2 s
  | .fle c d s1 s2 => Sys2Proof.Machine.execFle c d s1 s2 s
  | .fcvtDL c d s1 => Sys2Proof.Machine.execFcvtDL c d s1 s
  | .fcvtLD c d s1 => Sys2Proof.Machine.execFcvtLD c d s1 s
  | .fmvX c d s1 => Sys2Proof.Machine.execFmvX c d s1 s
  | .fmvD c d s1 => Sys2Proof.Machine.execFmvD c d s1 s
  | .fclass c d s1 => Sys2Proof.Machine.execFclass c d s1 s
  | .vadd c wd d s1 s2 => Sys2Proof.Machine.execVadd c wd d s1 s2 s
  | .vsub c wd d s1 s2 => Sys2Proof.Machine.execVsub c wd d s1 s2 s
  | .vmul c wd d s1 s2 => Sys2Proof.Machine.execVmul c wd d s1 s2 s
  | .vfma c wd d s1 s2 => Sys2Proof.Machine.execVfma c wd d s1 s2 s
  | .vmin c wd d s1 s2 => Sys2Proof.Machine.execVmin c wd d s1 s2 s
  | .vmax c wd d s1 s2 => Sys2Proof.Machine.execVmax c wd d s1 s2 s
  | .vand c wd d s1 s2 => Sys2Proof.Machine.execVand c wd d s1 s2 s
  | .vor c wd d s1 s2 => Sys2Proof.Machine.execVor c wd d s1 s2 s
  | .vxor c wd d s1 s2 => Sys2Proof.Machine.execVxor c wd d s1 s2 s
  | .vshl c wd d s1 s2 => Sys2Proof.Machine.execVshl c wd d s1 s2 s
  | .vshr c wd d s1 s2 => Sys2Proof.Machine.execVshr c wd d s1 s2 s
  | .vsar c wd d s1 s2 => Sys2Proof.Machine.execVsar c wd d s1 s2 s
  | .vcmpeq c wd d s1 s2 => Sys2Proof.Machine.execVcmpeq c wd d s1 s2 s
  | .vcmplt c wd d s1 s2 => Sys2Proof.Machine.execVcmplt c wd d s1 s2 s
  | .vsplat c wd d s1 => Sys2Proof.Machine.execVsplat c wd d s1 s
  | .vext c wd d s1 lane => Sys2Proof.Machine.execVext c wd d s1 lane s
  | .vins c wd d s1 lane => Sys2Proof.Machine.execVins c wd d s1 lane s
  | .vsum c wd d s1 => Sys2Proof.Machine.execVsum c wd d s1 s
  | .vdiv c wd d s1 s2 => Sys2Proof.Machine.execVdiv c wd d s1 s2 s
  | .vsqrt c wd d s1 => Sys2Proof.Machine.execVsqrt c wd d s1 s
  | .fpush c d s1 flume => Sys2Proof.Machine.execFpush c d s1 flume s
  | .fpushe c d s1 flume => Sys2Proof.Machine.execFpushe c d s1 flume s
  | .fpushw c d s1 flume => Sys2Proof.Machine.execFpushw c d s1 flume s
  | .fpushwe c d s1 flume => Sys2Proof.Machine.execFpushwe c d s1 flume s
  | .fpop c d s1 flume => Sys2Proof.Machine.execFpop c d s1 flume s
  | .fpopw c d s1 flume => Sys2Proof.Machine.execFpopw c d s1 flume s
  | .fpeek c d s1 flume => Sys2Proof.Machine.execFpeek c d s1 flume s
  | .flen c d flume => Sys2Proof.Machine.execFlen c d flume s
  | .fsend c d s1 s2 flume => Sys2Proof.Machine.execFsend c d s1 s2 flume s
  | .frecv c d s1 s2 flume => Sys2Proof.Machine.execFrecv c d s1 s2 flume s
  | .flumeWaitDone c => Sys2Proof.Machine.execFlumeWaitDone c s
  | .waitTimeout c => Sys2Proof.Machine.execWaitTimeout c s
  | .erd c tbl d s1 => Sys2Proof.Machine.execErd c tbl d s1 s
  | .mdone c s1 => Sys2Proof.Machine.execMdone c s1 s
  | .mfail c s1 => Sys2Proof.Machine.execMfail c s1 s
  | .mpost c d s1 s2 => Sys2Proof.Machine.execMpost c d s1 s2 s
  | .mcancel c d s1 => Sys2Proof.Machine.execMcancel c d s1 s
  | .myield c => Sys2Proof.Machine.execMyield c s
  | .marg c d => Sys2Proof.Machine.execMarg c d s
  | .mid c d => Sys2Proof.Machine.execMid c d s
  | .tsite c d => Sys2Proof.Machine.execTsite c d s
  | .tcyc c d s1 => Sys2Proof.Machine.execTcyc c d s1 s
  | .tct c d => Sys2Proof.Machine.execTct c d s
  | .tport c d port => Sys2Proof.Machine.execTport c d port s
  | .twait c d s1 => Sys2Proof.Machine.execTwait c d s1 s
  | .sysc c s1 => Sys2Proof.Machine.execSysc c s1 s
  | .brk c => Sys2Proof.Machine.execBrk c s
  | .eret c => Sys2Proof.Machine.execEret c s
  | .crr c d num => Sys2Proof.Machine.execCrr c d num s
  | .crw c d s1 num => Sys2Proof.Machine.execCrw c d s1 num s
  | .budgetExpiry c => Sys2Proof.Machine.execBudgetExpiry c s
  | .coreReset n => Sys2Proof.Machine.execCoreReset n s
  | .itemDispatch => Sys2Proof.Machine.execItemDispatch s
  | .affinityRelease n => Sys2Proof.Machine.execAffinityRelease n s
  | .readyWaitLong n => Sys2Proof.Machine.execReadyWaitLong n s
  | .flumeTrigger f => Sys2Proof.Machine.execFlumeTrigger f s
  | .triggerSpillMark f => Sys2Proof.Machine.execTriggerSpillMark f s
  | .millraceTimer t => Sys2Proof.Machine.execMillraceTimer t s
  | .cancelFlow flow => Sys2Proof.Machine.execCancelFlow flow s
  | .cancelOp op => Sys2Proof.Machine.execCancelOp op s
  | .graphEnable g => Sys2Proof.Machine.execGraphEnable g s
  | .graphDisable g => Sys2Proof.Machine.execGraphDisable g s
  | .millraceDisable => Sys2Proof.Machine.execMillraceDisable s
  | .descriptorWrite k w value => Sys2Proof.Machine.execDescriptorWrite k w value s
  | .mrcLatClear => Sys2Proof.Machine.execMrcLatClear s
  | .scrubVisit store upsets syndrome late => Sys2Proof.Machine.execScrubVisit store upsets syndrome late s
  | .scrubRestart => Sys2Proof.Machine.execScrubRestart s
  | .inject => Sys2Proof.Machine.execInject s
  | .memClearErr => Sys2Proof.Machine.execMemClearErr s
  | .flush f => Sys2Proof.Machine.execFlush f s
  | .flumeEnable f => Sys2Proof.Machine.execFlumeEnable f s
  | .flumeDisable f => Sys2Proof.Machine.execFlumeDisable f s
  | .flowPinIn p level => Sys2Proof.Machine.execFlowPinIn p level s
  | .ethFrameRx p b err frags age => Sys2Proof.Machine.execEthFrameRx p b err frags age s
  | .txqKick p q => Sys2Proof.Machine.execTxqKick p q s
  | .ethFrameTx p => Sys2Proof.Machine.execEthFrameTx p s
  | .ethTxWriteback p outcome coll frags => Sys2Proof.Machine.execEthTxWriteback p outcome coll frags s
  | .ringReturn p r n => Sys2Proof.Machine.execRingReturn p r n s
  | .restartAn p => Sys2Proof.Machine.execRestartAn p s
  | .ethVerify p => Sys2Proof.Machine.execEthVerify p s
  | .verifyComplete p ok => Sys2Proof.Machine.execVerifyComplete p ok s
  | .flushTxq p q => Sys2Proof.Machine.execFlushTxq p q s
  | .gclSwitch p => Sys2Proof.Machine.execGclSwitch p s
  | .gclChange p => Sys2Proof.Machine.execGclChange p s
  | .linkChange p up half speed => Sys2Proof.Machine.execLinkChange p up half speed s
  | .plcaBeaconLost => Sys2Proof.Machine.execPlcaBeaconLost s
  | .tsqPop p => Sys2Proof.Machine.execTsqPop p s
  | .ptpMessage p b age => Sys2Proof.Machine.execPtpMessage p b age s
  | .ptpMessageTx p kind => Sys2Proof.Machine.execPtpMessageTx p kind s
  | .masterLost => Sys2Proof.Machine.execMasterLost s
  | .stepPort => Sys2Proof.Machine.execStepPort s
  | .reselect => Sys2Proof.Machine.execReselect s
  | .ppsOut => Sys2Proof.Machine.execPpsOut s
  | .ppsinEdge age => Sys2Proof.Machine.execPpsinEdge age s
  | .hello peer d => Sys2Proof.Machine.execHello peer d s
  | .sessionTimeout id => Sys2Proof.Machine.execSessionTimeout id s
  | .mdnsQuery => Sys2Proof.Machine.execMdnsQuery s
  | .bye peer d => Sys2Proof.Machine.execBye peer d s
  | .ping peer d => Sys2Proof.Machine.execPing peer d s
  | .regRead peer d => Sys2Proof.Machine.execRegRead peer d s
  | .regWrite peer d => Sys2Proof.Machine.execRegWrite peer d s
  | .memRead peer d => Sys2Proof.Machine.execMemRead peer d s
  | .imageBegin peer d => Sys2Proof.Machine.execImageBegin peer d s
  | .gatherPut peer d => Sys2Proof.Machine.execGatherPut peer d s
  | .imageStatus peer d => Sys2Proof.Machine.execImageStatus peer d s
  | .imageVerify peer d => Sys2Proof.Machine.execImageVerify peer d s
  | .imageActivate peer d => Sys2Proof.Machine.execImageActivate peer d s
  | .editionWrite peer d good lost => Sys2Proof.Machine.execEditionWrite peer d good lost s
  | .debugEnable peer d => Sys2Proof.Machine.execDebugEnable peer d s
  | .twinPair peer d pub => Sys2Proof.Machine.execTwinPair peer d pub s
  | .cascadeJoin peer d => Sys2Proof.Machine.execCascadeJoin peer d s
  | .progStart peer d => Sys2Proof.Machine.execProgStart peer d s
  | .progHalt peer d => Sys2Proof.Machine.execProgHalt peer d s
  | .ledgerOpen peer d => Sys2Proof.Machine.execLedgerOpen peer d s
  | .ledgerAck peer d => Sys2Proof.Machine.execLedgerAck peer d s
  | .ledgerClose peer d => Sys2Proof.Machine.execLedgerClose peer d s
  | .streamSend id => Sys2Proof.Machine.execStreamSend id s
  | .streamResend id => Sys2Proof.Machine.execStreamResend id s
  | .hostStop peer d => Sys2Proof.Machine.execHostStop peer d s
  | .hostResume peer d => Sys2Proof.Machine.execHostResume peer d s
  | .hostRelease peer d => Sys2Proof.Machine.execHostRelease peer d s
  | .hostOverride peer d => Sys2Proof.Machine.execHostOverride peer d s
  | .digestOn peer d => Sys2Proof.Machine.execDigestOn peer d s
  | .digestOff peer d => Sys2Proof.Machine.execDigestOff peer d s
  | .digestSend => Sys2Proof.Machine.execDigestSend s
  | .canFrameRx p idw fmt data err age => Sys2Proof.Machine.execCanFrameRx p idw fmt data err age s
  | .rateDwell p => Sys2Proof.Machine.execRateDwell p s
  | .mailboxPend p n => Sys2Proof.Machine.execMailboxPend p n s
  | .mailboxAbort p n onBus => Sys2Proof.Machine.execMailboxAbort p n onBus s
  | .mailboxEnd p outcome => Sys2Proof.Machine.execMailboxEnd p outcome s
  | .recover p => Sys2Proof.Machine.execRecover p s
  | .busOffRecovery p => Sys2Proof.Machine.execBusOffRecovery p s
  | .canSleep p => Sys2Proof.Machine.execCanSleep p s
  | .canWake p idw data wup err => Sys2Proof.Machine.execCanWake p idw data wup err s
  | .canEnable p => Sys2Proof.Machine.execCanEnable p s
  | .canDisable p onBus => Sys2Proof.Machine.execCanDisable p onBus s
  | .serFrameRx p cs err age => Sys2Proof.Machine.execSerFrameRx p cs err age s
  | .serTxRecord p => Sys2Proof.Machine.execSerTxRecord p s
  | .serTxStart p => Sys2Proof.Machine.execSerTxStart p s
  | .home n => Sys2Proof.Machine.execHome n s
  | .setPos n => Sys2Proof.Machine.execSetPos n s
  | .clearFault n => Sys2Proof.Machine.execClearFault n s
  | .abortHome n => Sys2Proof.Machine.execAbortHome n s
  | .limitTrip n l => Sys2Proof.Machine.execLimitTrip n l s
  | .limitClear n l => Sys2Proof.Machine.execLimitClear n l s
  | .limitChatter n l => Sys2Proof.Machine.execLimitChatter n l s
  | .homeReference n => Sys2Proof.Machine.execHomeReference n s
  | .diEdge k level => Sys2Proof.Machine.execDiEdge k level s
  | .doWrite v => Sys2Proof.Machine.execDoWrite v s
  | .doPulseEnd k => Sys2Proof.Machine.execDoPulseEnd k s
  | .doOvercurrent k => Sys2Proof.Machine.execDoOvercurrent k s
  | .doOvercurrentClear k => Sys2Proof.Machine.execDoOvercurrentClear k s
  | .doOpen k low => Sys2Proof.Machine.execDoOpen k low s
  | .outSupplyLow => Sys2Proof.Machine.execOutSupplyLow s
  | .outSupplyReturn => Sys2Proof.Machine.execOutSupplyReturn s
  | .leaseTx => Sys2Proof.Machine.execLeaseTx s
  | .leaseRx ok term site seq active => Sys2Proof.Machine.execLeaseRx ok term site seq active s
  | .standbyFrame ok term health seq stop ask lag => Sys2Proof.Machine.execStandbyFrame ok term health seq stop ask lag s
  | .mirrorFrame ok seq r => Sys2Proof.Machine.execMirrorFrame ok seq r s
  | .hopCheck heard => Sys2Proof.Machine.execHopCheck heard s
  | .twnYield => Sys2Proof.Machine.execTwnYield s
  | .yieldFrame ok term cyc hop => Sys2Proof.Machine.execYieldFrame ok term cyc hop s
  | .twnResync => Sys2Proof.Machine.execTwnResync s
  | .resyncFrame ok seq l => Sys2Proof.Machine.execResyncFrame ok seq l s
  | .twinStartTimeout heard partnerStarting => Sys2Proof.Machine.execTwinStartTimeout heard partnerStarting s
  | .ioFrame ok plan out inputs => Sys2Proof.Machine.execIoFrame ok plan out inputs s
  | .ioLoss => Sys2Proof.Machine.execIoLoss s
  | .twnPair pub => Sys2Proof.Machine.execTwnPair pub s
  | .twnUnpair agreed => Sys2Proof.Machine.execTwnUnpair agreed s
  | .heartbeatTx => Sys2Proof.Machine.execHeartbeatTx s
  | .heartbeatRx ok site off => Sys2Proof.Machine.execHeartbeatRx ok site off s
  | .headwaterLost => Sys2Proof.Machine.execHeadwaterLost s
  | .reconciliation member freed orphans replica => Sys2Proof.Machine.execReconciliation member freed orphans replica s
  | .casJoin => Sys2Proof.Machine.execCasJoin s
  | .casJoinTimeout => Sys2Proof.Machine.execCasJoinTimeout s
  | .alignHold => Sys2Proof.Machine.execAlignHold s
  | .casLeave => Sys2Proof.Machine.execCasLeave s
  | .casEvict target => Sys2Proof.Machine.execCasEvict target s
  | .latencyMeasure l => Sys2Proof.Machine.execLatencyMeasure l s
  | .cascadeStopNotice member ep active => Sys2Proof.Machine.execCascadeStopNotice member ep active s
  | .createQuire peer d steps => Sys2Proof.Machine.execCreateQuire peer d steps s
  | .importKey peer d steps => Sys2Proof.Machine.execImportKey peer d steps s
  | .generateKey peer d steps => Sys2Proof.Machine.execGenerateKey peer d steps s
  | .deriveKey peer d steps => Sys2Proof.Machine.execDeriveKey peer d steps s
  | .destroyKey peer d steps => Sys2Proof.Machine.execDestroyKey peer d steps s
  | .decommission peer d => Sys2Proof.Machine.execDecommission peer d s
  | .rotateBkey => Sys2Proof.Machine.execRotateBkey s
  | .keyDebugEnable => Sys2Proof.Machine.execKeyDebugEnable s
  | .closeWindow => Sys2Proof.Machine.execCloseWindow s
  | .presenceOpen => Sys2Proof.Machine.execPresenceOpen s
  | .presenceClose field => Sys2Proof.Machine.execPresenceClose field s
  | .presenceStuck held => Sys2Proof.Machine.execPresenceStuck held s
  | .drbgHealthFail => Sys2Proof.Machine.execDrbgHealthFail s
  | .drbgHealthPass => Sys2Proof.Machine.execDrbgHealthPass s
  | .updAbort => Sys2Proof.Machine.execUpdAbort s
  | .updVerify k => Sys2Proof.Machine.execUpdVerify k s
  | .updActivate k => Sys2Proof.Machine.execUpdActivate k s
  | .trialConfirm kind => Sys2Proof.Machine.execTrialConfirm kind s
  | .trialRevert kind b => Sys2Proof.Machine.execTrialRevert kind b s
  | .otpWriteEdition e good lost => Sys2Proof.Machine.execOtpWriteEdition e good lost s
  | .otpAdvance ctr step => Sys2Proof.Machine.execOtpAdvance ctr step s
  | .flashOpFail region erase => Sys2Proof.Machine.execFlashOpFail region erase s
  | .wearLevelling region mean deferred => Sys2Proof.Machine.execWearLevelling region mean deferred s
  | .countersAppend => Sys2Proof.Machine.execCountersAppend s
  | .second => Sys2Proof.Machine.execSecond s
  | .softwareEvent v => Sys2Proof.Machine.execSoftwareEvent v s
  | .evtClearErr b => Sys2Proof.Machine.execEvtClearErr b s
  | .watchdogKick n v => Sys2Proof.Machine.execWatchdogKick n v s
  | .stewardWatchdogExpiry => Sys2Proof.Machine.execStewardWatchdogExpiry s
  | .stewardError code detail => Sys2Proof.Machine.execStewardError code detail s
  | .dfaultReset b => Sys2Proof.Machine.execDfaultReset b s
  | .progLedgerRecord => Sys2Proof.Machine.execProgLedgerRecord s
  | .archivePageWrite ok => Sys2Proof.Machine.execArchivePageWrite ok s
  | .alarmArchive ok => Sys2Proof.Machine.execAlarmArchive ok s
  | .pwrRun => Sys2Proof.Machine.execPwrRun s
  | .pwrReady => Sys2Proof.Machine.execPwrReady s
  | .pwrWatch => Sys2Proof.Machine.execPwrWatch s
  | .pwrReset b => Sys2Proof.Machine.execPwrReset b s
  | .autoRunSet => Sys2Proof.Machine.execAutoRunSet s
  | .runEntry => Sys2Proof.Machine.execRunEntry s
  | .watchEntryDone => Sys2Proof.Machine.execWatchEntryDone s
  | .wake src => Sys2Proof.Machine.execWake src s
  | .powerOn b => Sys2Proof.Machine.execPowerOn b s
  | .pinReset b => Sys2Proof.Machine.execPinReset b s
  | .brownoutReset b => Sys2Proof.Machine.execBrownoutReset b s
  | .romRetry b => Sys2Proof.Machine.execRomRetry b s
  | .supplyWarn v => Sys2Proof.Machine.execSupplyWarn v s
  | .temperatureReading t logic output b => Sys2Proof.Machine.execTemperatureReading t logic output b s
  | .verificationEnd bad corrected => Sys2Proof.Machine.execVerificationEnd bad corrected s
  | .activationReset b => Sys2Proof.Machine.execActivationReset b s
  | .powerLoss => Sys2Proof.Machine.execPowerLoss s
  | .plcaBeaconReturn => Sys2Proof.Machine.execPlcaBeaconReturn s
  | .standbyTx obs => Sys2Proof.Machine.execStandbyTx obs s
  | .transmitChainFault => Sys2Proof.Machine.execTransmitChainFault s
  | .cascadeLinkFrame ok f => Sys2Proof.Machine.execCascadeLinkFrame ok f s

end Sys2Proof.Machine
end

