-- ==== Sys2Proof/Safety.lean ====
section
/-!
DEFINITION. Sys2Proof/Safety.lean: what the statements say of a run: that it goes on, that nothing reported is left untaken, that memory is in its canonical form, and when a core is in a position to execute.
-/
namespace Sys2Proof.Machine

/-- Between commands every report has been taken by EVT (R559, R562). -/
def Settled (s : State) : Prop := s.notes = []
  deriving Decidable

/-- The outcome is a next state: neither a fault nor a refusal. -/
def GoesOn (o : Host.Outcome State Fault Refusal) : Prop := ∃ t, o = .next t

/-- A command answers a next state of which P holds. -/
def Answers (i : Instr) (s : State) (P : State → Prop) : Prop := ∃ t, Sys2Proof.Machine.exec i s = .next t ∧ P t

/-- The parts of the state that no report, mirror record or replica touches at the end of a command (EVT, Millrace, the steward's counters, TWN and CAS are those that may answer). -/
inductive Part where
  | mem | clk | site | nv | pwr | flm | ecc | ref | sol | clm | pro | air | wkr | stp | eth | ptc | can | ser | axs | dio | key | upd | otp | fsh | ccx
  deriving DecidableEq, Repr

/-- A part is the same in two states. -/
def Part.same : Part → State → State → Prop
  | .mem, a, b => a.mem = b.mem
  | .clk, a, b => a.clk = b.clk
  | .site, a, b => a.site = b.site
  | .nv, a, b => a.nv = b.nv
  | .pwr, a, b => a.pwr = b.pwr
  | .flm, a, b => a.flm = b.flm
  | .ecc, a, b => a.ecc = b.ecc
  | .ref, a, b => a.ref = b.ref
  | .sol, a, b => a.sol = b.sol
  | .clm, a, b => a.clm = b.clm
  | .pro, a, b => a.pro = b.pro
  | .air, a, b => a.air = b.air
  | .wkr, a, b => a.wkr = b.wkr
  | .stp, a, b => a.stp = b.stp
  | .eth, a, b => a.eth = b.eth
  | .ptc, a, b => a.ptc = b.ptc
  | .can, a, b => a.can = b.can
  | .ser, a, b => a.ser = b.ser
  | .axs, a, b => a.axs = b.axs
  | .dio, a, b => a.dio = b.dio
  | .key, a, b => a.key = b.key
  | .upd, a, b => a.upd = b.upd
  | .otp, a, b => a.otp = b.otp
  | .fsh, a, b => a.fsh = b.fsh
  | .ccx, a, b => a.ccx = b.ccx

/-- Of two states: the waiting commands and every part but those listed are the same. -/
def Keeps (ps : List Part) (s t : State) : Prop := t.pending = s.pending ∧ ∀ p, p ∉ ps → p.same t s

/-- The part that holds a block's registers; EVT, MRC, TWN, CAS and the steward's are none of the parts. -/
def blkPart (b : Nat) : Option Part :=
  match b with
  | 1 => some .pwr | 4 => some .flm | 5 => some .ecc | 6 => some .ref | 7 => some .sol | 8 => some .clm | 9 => some .pro | 10 => some .air | 11 => some .wkr
  | 12 => some .stp | 13 => some .eth | 17 => some .ptc | 18 => some .can | 20 => some .ser | 22 => some .axs | 23 => some .dio | 26 => some .key | 27 => some .upd
  | 28 => some .otp | 29 => some .fsh | 30 => some .ccx
  | _ => none

/-- A saturating counter has gone up by n (Table IDX-3). -/
def CountsUp (f : Fld) (n : Nat) (s t : State) : Prop := rd f t = min (rd f s + n) (2 ^ f.width - 1)
  deriving Decidable

/-- Event e pends (EVT_PEND, R559). -/
def Pended (e : Nat) (s : State) : Prop := bit (rd (EVT_PEND (e / 32)) s) (e % 32) = true
  deriving Decidable

/-- The CMD_RES register at offset off of a block (its instance inst) shows a command, its completion status and its error. -/
def Result (blk inst off cmd status error : Nat) (t : State) : Prop :=
  rd (fldAt blk inst off 4 4) t = cmd ∧ rd (fldAt blk inst off 0 3) t = status ∧ rd (fldAt blk inst off 16 16) t = error
  deriving Decidable

/-- Nothing is left to be taken and no event is routed to Millrace (R312): what EVT does with the reports of a command then touches no item and no operation. -/
def Unrouted (s : State) : Prop := Settled s ∧ ∀ e, e < 256 → on (MRC_EVT_EN e) s = false

/-- Every item that p picks and no core runs is gone; every other is as it was but for having become READY, and one in service is untouched. -/
def Cancels (p : Item → Bool) (s t : State) : Prop :=
  (∀ q i, (q, i) ∈ s.mrc.items → i.st ≠ .service → p i = true → item? q t = none) ∧
  (∀ q i, item? q s = some i → (∀ j, (q, j) ∈ s.mrc.items → j.st = .service ∨ p j = false) →
    ∃ d, item? q t = some d ∧ d.num = i.num ∧ d.op = i.op ∧ d.flow = i.flow ∧ d.arg = i.arg ∧ d.src = i.src ∧ d.inbox = i.inbox) ∧
  (∀ q, (∀ j, (q, j) ∈ s.mrc.items → j.st = .service) → item? q t = item? q s)

/-- No operation of an item in flight names a successor for an item that ends CANCELLED (R308). -/
def NoSuccessors (s : State) : Prop := ∀ x ∈ s.mrc.items, opNext x.2.op s = none ∨ bit (opNextMask x.2.op s) 2 = false
  deriving Decidable

/-- AXS runs, and no limit of axis n waits to trip. -/
def AxisFree (n : Nat) (s : State) : Prop := n < 8 ∧ axsOn s = true ∧ settled (2 * n) s ≠ some true ∧ settled (2 * n + 1) s ≠ some true
  deriving Decidable

/-- A record of bytes b has been pushed into flume f as it stood, and nothing else has touched a flume or memory. -/
def Pushes (f : Nat) (b : List Byte) (s t : State) : Prop :=
  ∃ v : State, v.flm = s.flm ∧ v.mem = s.mem ∧ v.ecc = s.ecc ∧ (∀ k, k / 2 ^ 32 = 4 → tfind k v.held = tfind k s.held) ∧
    t.flm = (pushBytes f b v).2.flm ∧ t.mem = (pushBytes f b v).2.mem

/-- Counter k of Ethernet port p (R378), and that it has gone up by n, wrapping. -/
def ethCnt (p k : Nat) (s : State) : Nat := rd (fldAt 13 p (0x200 + 4 * k) 0 32) s
def EthCounts (p k n : Nat) (s t : State) : Prop := ethCnt p k t = (ethCnt p k s + n) % 2 ^ 32
  deriving Decidable

/-- Frame b of a kind, received while AIR receives, in one of this module's lanes and a slot of the plan, in time, opens under the link key of eui to payload p (R177, R185, R628). -/
def UplinkOpens (kind lane sl : Nat) (off : Int) (b : List Byte) (eui p : List Byte) (s : State) : Prop :=
  receiving s = true ∧ ownLane lane sl s = true ∧ (upOf b).kind = kind ∧ b.length = 192 ∧ openUp eui (decide (kind = 3 ∨ kind = 5)) b s = some p ∧ inTime off s = true

/-- CLM takes request r, of operation op and well-formed, whole from its flume, and stands in state u with it: in RUN, not a tributary, with no word in error and no register write held. -/
def RequestTaken (op : Nat) (s : State) (r : Req) (u : State) : Prop :=
  on CLM_CTRL_EN s = true ∧ inRun s = true ∧ clmState u = 2 ∧ isTributary u = false ∧ u.ecc.marks = [] ∧ u.ecc.badLines = [] ∧ u.held = [] ∧ r.op = op ∧ wellFormed r = true ∧
    (∃ w, enginePeek (rd CLM_FLUME_REQ s) { s with out := [] } = some w ∧ w.toNat % 256 = op) ∧
    ∃ ws whole, engineTake (rd CLM_FLUME_REQ s) { s with out := [] } = (some (ws, whole), u) ∧ r = reqOf ws whole

/-- Datagram d is a new REQUEST of a code and payload p in session x, number id, and the host protocol serves it: the module serves hosts, the datagram has its form, its tag holds, its SEQ is new and the session has room (R399, R403 to R406). -/
def Requests (code : Nat) (d p : List Byte) (id seq : Nat) (x : Session) (s : State) : Prop :=
  serviceOn s = true ∧ datagramOk d = true ∧ leAt d 3 1 = 3 ∧ leAt d 4 4 = id ∧ leAt d 8 4 = seq ∧ leAt d 12 2 = code ∧ sessOf id s = some x ∧
    gcmOpen x.key (gspNonce 1 id seq) (d.take 24) (slice d 24 (leAt d 18 2)) (slice d (24 + leAt d 18 2) 16) = some p ∧ (dupFilter x.top x.win seq).1 = 0 ∧ x.busy.length < 8
  deriving Decidable

/-- The host of session x has been sent the RESPONSE to its request: STATUS, ERROR and payload, under the session's key, with flag 0 where presence is missing (Table GSP-2, R406). -/
def Responds (id seq code status error : Nat) (pay : List Byte) (x : Session) (t : State) : Prop :=
  Emit.host x.peer (gspSealed x.key (gspHeader 4 id seq code status (if status = 4 ∧ error % 256 = 0xF0 then 1 else 0) error pay.length) 2 id seq pay) ∈ t.out

/-- The state in which a request is served: its session has been heard, and its SEQ is noted (R404, R405). -/
def served (id seq : Nat) (x : Session) (s : State) : State :=
  setSess id { x with last := s.clk.frc, top := (dupFilter x.top x.win seq).2.1, win := (dupFilter x.top x.win seq).2.2 } { s with out := [] }

/-- A reset of kind k and the start after it, with the ROM's findings b: the module is on, in no state of its former run (no session, claim or index, the lane HELD), the fuses are as they were or further on; where no trial was under way and the confirmed firmware is good the steward runs, in Watch after a THERMAL reset, else in Ready; where neither firmware is good the ROM has failed (R593 to R596, R600, R604). -/
def Restarted (k : Nat) (b : Boot) (s t : State) : Prop :=
  t.pwr.off = false ∧ t.pending = s.pending ∧ lane t = 0 ∧ t.stw.sessions = [] ∧ t.clm.claims = [] ∧ t.air.idx = [] ∧ t.otp.editions = s.otp.editions ∧ (∀ c, ctrStep c s ≤ ctrStep c t) ∧
    (anyTrial s = false →
      (fwGood (bootKind 0 s).conf b = true → t.pwr.romFail = false ∧ rd PWR_STATUS_LAST_RESET t = k ∧ pwrState t = (if k = 5 then 0 else 1)) ∧
      (b.fw0 = false → b.fw1 = false → t.pwr.romFail = true ∧ rd STW_BOOT_STAGE t = 4))

/-- No word of any store is in error (10_memory_and_flumes.md, "The two codes"). -/
def ErrorFree (s : State) : Prop := s.ecc.marks = [] ∧ s.ecc.badLines = []
  deriving Decidable

/-- Core n executes its next instruction: it runs, it may fetch at its program counter (R249, R262, R264), and no word is in error. -/
def Executes (n : Nat) (s : State) : Prop := coreRuns n s = true ∧ fetchOk n (coreOf n s).pc.toNat s = true ∧ ErrorFree s
  deriving Decidable

/-- As Executes, on a field core (R238). -/
def FieldExecutes (n : Nat) (s : State) : Prop := n < 16 ∧ Executes n s
  deriving Decidable

/-- The machine after an instruction of core n that only changes that core's registers, as f does, and completes: its program counter 4 further and one more instruction retired, every other component as it was. -/
def retire (n : Nat) (f : Core → Core) (s : State) : State := finish n f { s with out := [] }

/-- Core n may load, or store, w bytes at an address of main SRAM: aligned, and outside the pool and under its regions unless it is the steward (R248, R249, R262, R334). -/
def Reaches (n a w : Nat) (store : Bool) (s : State) : Prop :=
  a < 0x4000000 ∧ a % w = 0 ∧ (n = 16 ∨ (inPool a s = false ∧ regionsGrant n a (if store then .store else .load) s = true))
  deriving Decidable

end Sys2Proof.Machine
end

