-- ==== Sys2Proof/WellFormed.lean ====
section
/-!
DEFINITION. Sys2Proof/WellFormed.lean: the ranges of a command's operands, as the spec's encodings and tables give them. A command outside them names nothing the hardware has.
-/
namespace Sys2Proof

/-- A core: F0 to F15, or 16 for the steward (Table ISA-14, COREID). -/
def isCore (c : Nat) : Bool := decide (c ≤ 16)
/-- A field core. -/
def isField (c : Nat) : Bool := decide (c < 16)
/-- A register number (Table ISA-1). -/
def isReg (r : Nat) : Bool := decide (r < 32)
/-- A 16-bit field of formats I, M, B and U (Table ISA-2). -/
def isHalf (i : Nat) : Bool := decide (i < 65536)
/-- The displacement of format J. -/
def isJump (i : Nat) : Bool := decide (i < 2 ^ 26)
/-- A 32-bit word. -/
def isWord (v : Nat) : Bool := decide (v < 2 ^ 32)
/-- KIND and amount of SHIFTI. -/
def isShift (k a : Nat) : Bool := (k == 0 || k == 1 || k == 2 || k == 4 || k == 5 || k == 6) && decide (a < 64)
/-- SIZE and ORDER of an atomic (Table ISA-7). -/
def isAtomic (size order : Nat) : Bool := (size == 2 || size == 3) && decide (order < 4)
/-- A width code of Table ISA-6. -/
def isWidth (wd : Nat) : Bool := decide (wd ≤ 4)
/-- A width code of the integer lanes. -/
def isIntWidth (wd : Nat) : Bool := decide (wd < 4)
/-- A lane number at a width. -/
def isLane (wd l : Nat) : Bool := decide (l < laneCount wd)
/-- A table of ERD and its first vector register (Table ISA-10). -/
def isErd (tbl d : Nat) : Bool := decide (tbl < 6) && d % (if tbl = 3 then 4 else 2) == 0
/-- A control register number of Table ISA-14. -/
def isCr (n : Nat) : Bool := [0, 1, 2, 3, 4, 5, 0x10, 0x20, 0x21, 0x30].contains n
/-- A flume. -/
def isFlume (f : Nat) : Bool := decide (f < 128)
/-- n numbers one of k things (ports, partners, axes, operations, flows, graphs, timers ...). -/
def isOne (n k : Nat) : Bool := decide (n < k)
/-- A byte string of a given length. -/
def isLen (b : List Byte) (n : Nat) : Bool := b.length == n

/-- The operands of a command are in range. -/
def Instr.wf (i : Instr) : Bool :=
  match i with
  | .registerWrite who addr value => isOne who 18 && isWord addr && isWord value
  | .commitPoint blk _ => isOne blk 31
  | .cycleStart _ => true
  | .frameFreeze h _ => isOne h 8
  | .hopTransmit h _ => isOne h 8
  | .guardCalibration => true
  | .airCalDone => true
  | .observationFrame _ _ _ b => isLen b 192
  | .replyFrame _ _ _ b => isLen b 192
  | .joinFrame _ _ _ b => isLen b 192
  | .partnerJoinFrame _ _ _ b => isLen b 192
  | .partnerFrame _ _ _ b => isLen b 192
  | .grantLapse m => isOne m 256
  | .indexSilent m => isOne m 256
  | .releaseIndex m => isOne m 256
  | .cancelOrders m => isOne m 256
  | .orderRecord => true
  | .orderDeadline => true
  | .broadcastKeyRotate => true
  | .broadcastKeySwitch => true
  | .wakePatternRx addr crc => isOne addr 65536 && isOne crc 256
  | .rendezvous p => isOne p 512
  | .rescueRecall p => isOne p 512
  | .releasePartner p => isOne p 512
  | .wkrCall p => isOne p 512
  | .antennaBiasSample n _ => isOne n 2
  | .surveyComplete _ _ _ _ => true
  | .epochLate => true
  | .rawEpoch _ => true
  | .rtcmEpoch _ _ _ => true
  | .ntripRequest _ => true
  | .multipathLearning _ => true
  | .mapPeriodicSave _ => true
  | .surveyRestart => true
  | .posLoad => true
  | .mpClear => true
  | .mpSave => true
  | .timeAccept => true
  | .timeSolution _ _ _ => true
  | .timeSolutionLoss => true
  | .holdoverLimit => true
  | .timeConfirm => true
  | .slotEnd _ _ => true
  | .solDeadline _ _ => true
  | .solRefMissing => true
  | .resetAmb fleet => isOne fleet 256
  | .resetAll fleet => isOne fleet 256
  | .solLatClear => true
  | .mapLoad => true
  | .mapUnload => true
  | .clmStoreWrite _ _ _ => true
  | .clmTick => true
  | .clmExtend _ => true
  | .clmPlace _ => true
  | .clmShorten _ => true
  | .clmRelease _ => true
  | .setReach _ => true
  | .clmDisable => true
  | .clmLatClear => true
  | .proTick => true
  | .axisTick _ => true
  | .proAppend => true
  | .proClear => true
  | .proHalt => true
  | .proResume => true
  | .fenceEnable f => isOne f 64
  | .stopInputEdge ch _ => isOne ch 2
  | .stopDiscrepancy => true
  | .stpStop => true
  | .stpClearProgram => true
  | .stpRelease => true
  | .stpOverride => true
  | .stopFrameTx _ _ _ => true
  | .stopBurstRepeat => true
  | .statFault n => isOne n 2
  | .stpLatClear => true
  | .illegal c w => isCore c && isWord w
  | .add c d s1 s2 _ => isCore c && isReg d && isReg s1 && isReg s2
  | .sub c d s1 s2 _ => isCore c && isReg d && isReg s1 && isReg s2
  | .and c d s1 s2 _ => isCore c && isReg d && isReg s1 && isReg s2
  | .or c d s1 s2 _ => isCore c && isReg d && isReg s1 && isReg s2
  | .xor c d s1 s2 _ => isCore c && isReg d && isReg s1 && isReg s2
  | .sll c d s1 s2 _ => isCore c && isReg d && isReg s1 && isReg s2
  | .srl c d s1 s2 _ => isCore c && isReg d && isReg s1 && isReg s2
  | .sra c d s1 s2 _ => isCore c && isReg d && isReg s1 && isReg s2
  | .slt c d s1 s2 _ => isCore c && isReg d && isReg s1 && isReg s2
  | .sltu c d s1 s2 _ => isCore c && isReg d && isReg s1 && isReg s2
  | .min c d s1 s2 _ => isCore c && isReg d && isReg s1 && isReg s2
  | .max c d s1 s2 _ => isCore c && isReg d && isReg s1 && isReg s2
  | .minu c d s1 s2 _ => isCore c && isReg d && isReg s1 && isReg s2
  | .maxu c d s1 s2 _ => isCore c && isReg d && isReg s1 && isReg s2
  | .clz c d s1 => isCore c && isReg d && isReg s1
  | .ctz c d s1 => isCore c && isReg d && isReg s1
  | .popc c d s1 => isCore c && isReg d && isReg s1
  | .bswap c d s1 _ => isCore c && isReg d && isReg s1
  | .mul c d s1 s2 _ => isCore c && isReg d && isReg s1 && isReg s2
  | .mulh c d s1 s2 => isCore c && isReg d && isReg s1 && isReg s2
  | .mulhu c d s1 s2 => isCore c && isReg d && isReg s1 && isReg s2
  | .div c d s1 s2 _ => isCore c && isReg d && isReg s1 && isReg s2
  | .divu c d s1 s2 _ => isCore c && isReg d && isReg s1 && isReg s2
  | .rem c d s1 s2 _ => isCore c && isReg d && isReg s1 && isReg s2
  | .remu c d s1 s2 _ => isCore c && isReg d && isReg s1 && isReg s2
  | .addi c d s1 imm => isCore c && isReg d && isReg s1 && isHalf imm
  | .andi c d s1 imm => isCore c && isReg d && isReg s1 && isHalf imm
  | .ori c d s1 imm => isCore c && isReg d && isReg s1 && isHalf imm
  | .xori c d s1 imm => isCore c && isReg d && isReg s1 && isHalf imm
  | .shifti c d s1 kind amt => isCore c && isReg d && isReg s1 && isShift kind amt
  | .slti c d s1 imm => isCore c && isReg d && isReg s1 && isHalf imm
  | .movw c d q _ imm => isCore c && isReg d && isOne q 4 && isHalf imm
  | .pcadd c d imm => isCore c && isReg d && isHalf imm
  | .lb c d s1 ofs => isCore c && isReg d && isReg s1 && isHalf ofs
  | .lbu c d s1 ofs => isCore c && isReg d && isReg s1 && isHalf ofs
  | .lh c d s1 ofs => isCore c && isReg d && isReg s1 && isHalf ofs
  | .lhu c d s1 ofs => isCore c && isReg d && isReg s1 && isHalf ofs
  | .lw c d s1 ofs => isCore c && isReg d && isReg s1 && isHalf ofs
  | .lwu c d s1 ofs => isCore c && isReg d && isReg s1 && isHalf ofs
  | .ld c d s1 ofs => isCore c && isReg d && isReg s1 && isHalf ofs
  | .sb c d s1 ofs => isCore c && isReg d && isReg s1 && isHalf ofs
  | .sh c d s1 ofs => isCore c && isReg d && isReg s1 && isHalf ofs
  | .sw c d s1 ofs => isCore c && isReg d && isReg s1 && isHalf ofs
  | .sd c d s1 ofs => isCore c && isReg d && isReg s1 && isHalf ofs
  | .vld c d s1 ofs => isCore c && isReg d && isReg s1 && isHalf ofs
  | .vst c d s1 ofs => isCore c && isReg d && isReg s1 && isHalf ofs
  | .fld c d s1 ofs => isCore c && isReg d && isReg s1 && isHalf ofs
  | .fst c d s1 ofs => isCore c && isReg d && isReg s1 && isHalf ofs
  | .atomic c op size order d s1 s2 => isCore c && isOne op 9 && isAtomic size order && isReg d && isReg s1 && isReg s2
  | .atomicCas c size order d s1 s2 => isCore c && isAtomic size order && isReg d && isReg s1 && isReg s2
  | .fenceRw c => isCore c
  | .fenceAll c => isCore c
  | .fenceI c => isCore c
  | .beq c s1 s2 disp => isCore c && isReg s1 && isReg s2 && isHalf disp
  | .bne c s1 s2 disp => isCore c && isReg s1 && isReg s2 && isHalf disp
  | .blt c s1 s2 disp => isCore c && isReg s1 && isReg s2 && isHalf disp
  | .bge c s1 s2 disp => isCore c && isReg s1 && isReg s2 && isHalf disp
  | .bltu c s1 s2 disp => isCore c && isReg s1 && isReg s2 && isHalf disp
  | .bgeu c s1 s2 disp => isCore c && isReg s1 && isReg s2 && isHalf disp
  | .jal c disp => isCore c && isJump disp
  | .jalr c d s1 imm => isCore c && isReg d && isReg s1 && isHalf imm
  | .fadd c d s1 s2 => isCore c && isReg d && isReg s1 && isReg s2
  | .fsub c d s1 s2 => isCore c && isReg d && isReg s1 && isReg s2
  | .fmul c d s1 s2 => isCore c && isReg d && isReg s1 && isReg s2
  | .fdiv c d s1 s2 => isCore c && isReg d && isReg s1 && isReg s2
  | .fsqrt c d s1 => isCore c && isReg d && isReg s1
  | .fmin c d s1 s2 => isCore c && isReg d && isReg s1 && isReg s2
  | .fmax c d s1 s2 => isCore c && isReg d && isReg s1 && isReg s2
  | .fmadd c d s1 s2 => isCore c && isReg d && isReg s1 && isReg s2
  | .fmsub c d s1 s2 => isCore c && isReg d && isReg s1 && isReg s2
  | .fnmadd c d s1 s2 => isCore c && isReg d && isReg s1 && isReg s2
  | .fabs c d s1 => isCore c && isReg d && isReg s1
  | .fneg c d s1 => isCore c && isReg d && isReg s1
  | .feq c d s1 s2 => isCore c && isReg d && isReg s1 && isReg s2
  | .flt c d s1 s2 => isCore c && isReg d && isReg s1 && isReg s2
  | .fle c d s1 s2 => isCore c && isReg d && isReg s1 && isReg s2
  | .fcvtDL c d s1 => isCore c && isReg d && isReg s1
  | .fcvtLD c d s1 => isCore c && isReg d && isReg s1
  | .fmvX c d s1 => isCore c && isReg d && isReg s1
  | .fmvD c d s1 => isCore c && isReg d && isReg s1
  | .fclass c d s1 => isCore c && isReg d && isReg s1
  | .vadd c wd d s1 s2 => isCore c && isWidth wd && isReg d && isReg s1 && isReg s2
  | .vsub c wd d s1 s2 => isCore c && isWidth wd && isReg d && isReg s1 && isReg s2
  | .vmul c wd d s1 s2 => isCore c && isWidth wd && isReg d && isReg s1 && isReg s2
  | .vfma c wd d s1 s2 => isCore c && wd == 4 && isReg d && isReg s1 && isReg s2
  | .vmin c wd d s1 s2 => isCore c && isWidth wd && isReg d && isReg s1 && isReg s2
  | .vmax c wd d s1 s2 => isCore c && isWidth wd && isReg d && isReg s1 && isReg s2
  | .vand c wd d s1 s2 => isCore c && isWidth wd && isReg d && isReg s1 && isReg s2
  | .vor c wd d s1 s2 => isCore c && isWidth wd && isReg d && isReg s1 && isReg s2
  | .vxor c wd d s1 s2 => isCore c && isWidth wd && isReg d && isReg s1 && isReg s2
  | .vshl c wd d s1 s2 => isCore c && isIntWidth wd && isReg d && isReg s1 && isReg s2
  | .vshr c wd d s1 s2 => isCore c && isIntWidth wd && isReg d && isReg s1 && isReg s2
  | .vsar c wd d s1 s2 => isCore c && isIntWidth wd && isReg d && isReg s1 && isReg s2
  | .vcmpeq c wd d s1 s2 => isCore c && isWidth wd && isReg d && isReg s1 && isReg s2
  | .vcmplt c wd d s1 s2 => isCore c && isWidth wd && isReg d && isReg s1 && isReg s2
  | .vsplat c wd d s1 => isCore c && isWidth wd && isReg d && isReg s1
  | .vext c wd d s1 lane => isCore c && isWidth wd && isReg d && isReg s1 && isLane wd lane
  | .vins c wd d s1 lane => isCore c && isWidth wd && isReg d && isReg s1 && isLane wd lane
  | .vsum c wd d s1 => isCore c && (wd == 3 || wd == 4) && isReg d && isReg s1
  | .vdiv c wd d s1 s2 => isCore c && wd == 4 && isReg d && isReg s1 && isReg s2
  | .vsqrt c wd d s1 => isCore c && wd == 4 && isReg d && isReg s1
  | .fpush c d s1 flume => isCore c && isReg d && isReg s1 && isFlume flume
  | .fpushe c d s1 flume => isCore c && isReg d && isReg s1 && isFlume flume
  | .fpushw c d s1 flume => isCore c && isReg d && isReg s1 && isFlume flume
  | .fpushwe c d s1 flume => isCore c && isReg d && isReg s1 && isFlume flume
  | .fpop c d s1 flume => isCore c && isReg d && isReg s1 && isFlume flume
  | .fpopw c d s1 flume => isCore c && isReg d && isReg s1 && isFlume flume
  | .fpeek c d s1 flume => isCore c && isReg d && isReg s1 && isFlume flume
  | .flen c d flume => isCore c && isReg d && isFlume flume
  | .fsend c d s1 s2 flume => isCore c && isReg d && isReg s1 && isReg s2 && isFlume flume
  | .frecv c d s1 s2 flume => isCore c && isReg d && isReg s1 && isReg s2 && isFlume flume
  | .flumeWaitDone c => isOne c 17
  | .waitTimeout c => isOne c 17
  | .erd c tbl d s1 => isCore c && isErd tbl d && isReg d && isReg s1
  | .mdone c s1 => isCore c && isReg s1
  | .mfail c s1 => isCore c && isReg s1
  | .mpost c d s1 s2 => isCore c && isReg d && isReg s1 && isReg s2
  | .mcancel c d s1 => isCore c && isReg d && isReg s1
  | .myield c => isCore c
  | .marg c d => isCore c && isReg d
  | .mid c d => isCore c && isReg d
  | .tsite c d => isCore c && isReg d
  | .tcyc c d s1 => isCore c && isReg d && isReg s1
  | .tct c d => isCore c && isReg d
  | .tport c d port => isCore c && isReg d && isOne port 4
  | .twait c d s1 => isCore c && isReg d && isReg s1
  | .sysc c s1 => isCore c && isReg s1
  | .brk c => isCore c
  | .eret c => isCore c
  | .crr c d num => isCore c && isReg d && isCr num
  | .crw c d s1 num => isCore c && isReg d && isReg s1 && isCr num
  | .budgetExpiry c => isOne c 16
  | .coreReset n => isOne n 16
  | .itemDispatch => true
  | .affinityRelease n => isOne n 65536
  | .readyWaitLong n => isOne n 65536
  | .flumeTrigger f => isOne f 128
  | .triggerSpillMark f => isOne f 128
  | .millraceTimer t => isOne t 64
  | .cancelFlow flow => isOne flow 4096
  | .cancelOp op => isOne op 1024
  | .graphEnable g => isOne g 64
  | .graphDisable g => isOne g 64
  | .millraceDisable => true
  | .descriptorWrite k w value => isOne k 1024 && isOne w 8 && isWord value
  | .mrcLatClear => true
  | .scrubVisit store _ _ _ => isOne store 5
  | .scrubRestart => true
  | .inject => true
  | .memClearErr => true
  | .flush f => isOne f 128
  | .flumeEnable f => isOne f 128
  | .flumeDisable f => isOne f 128
  | .flowPinIn p _ => isOne p 4
  | .ethFrameRx p _ _ _ _ => isOne p 4
  | .txqKick p q => isOne p 4 && isOne q 8
  | .ethFrameTx p => isOne p 4
  | .ethTxWriteback p _ _ _ => isOne p 4
  | .ringReturn p r _ => isOne p 4 && isOne r 4
  | .restartAn p => isOne p 4
  | .ethVerify p => isOne p 4
  | .verifyComplete p _ => isOne p 4
  | .flushTxq p q => isOne p 4 && isOne q 8
  | .gclSwitch p => isOne p 4
  | .gclChange p => isOne p 4
  | .linkChange p _ _ _ => isOne p 4
  | .plcaBeaconLost => true
  | .tsqPop p => isOne p 4
  | .ptpMessage p _ _ => isOne p 4
  | .ptpMessageTx p kind => isOne p 4 && isOne kind 4
  | .masterLost => true
  | .stepPort => true
  | .reselect => true
  | .ppsOut => true
  | .ppsinEdge _ => true
  | .hello _ _ => true
  | .sessionTimeout _ => true
  | .mdnsQuery => true
  | .bye _ _ => true
  | .ping _ _ => true
  | .regRead _ _ => true
  | .regWrite _ _ => true
  | .memRead _ _ => true
  | .imageBegin _ _ => true
  | .gatherPut _ _ => true
  | .imageStatus _ _ => true
  | .imageVerify _ _ => true
  | .imageActivate _ _ => true
  | .editionWrite _ _ _ _ => true
  | .debugEnable _ _ => true
  | .twinPair _ _ _ => true
  | .cascadeJoin _ _ => true
  | .progStart _ _ => true
  | .progHalt _ _ => true
  | .ledgerOpen _ _ => true
  | .ledgerAck _ _ => true
  | .ledgerClose _ _ => true
  | .streamSend _ => true
  | .streamResend _ => true
  | .hostStop _ _ => true
  | .hostResume _ _ => true
  | .hostRelease _ _ => true
  | .hostOverride _ _ => true
  | .digestOn _ _ => true
  | .digestOff _ _ => true
  | .digestSend => true
  | .canFrameRx p _ _ _ _ _ => isOne p 2
  | .rateDwell p => isOne p 2
  | .mailboxPend p n => isOne p 2 && isOne n 64
  | .mailboxAbort p n _ => isOne p 2 && isOne n 64
  | .mailboxEnd p _ => isOne p 2
  | .recover p => isOne p 2
  | .busOffRecovery p => isOne p 2
  | .canSleep p => isOne p 2
  | .canWake p _ _ _ _ => isOne p 2
  | .canEnable p => isOne p 2
  | .canDisable p _ => isOne p 2
  | .serFrameRx p _ _ _ => isOne p 2
  | .serTxRecord p => isOne p 2
  | .serTxStart p => isOne p 2
  | .home n => isOne n 8
  | .setPos n => isOne n 8
  | .clearFault n => isOne n 8
  | .abortHome n => isOne n 8
  | .limitTrip n l => isOne n 8 && isOne l 2
  | .limitClear n l => isOne n 8 && isOne l 2
  | .limitChatter n l => isOne n 8 && isOne l 2
  | .homeReference n => isOne n 8
  | .diEdge k _ => isOne k 16
  | .doWrite v => isOne v 256
  | .doPulseEnd k => isOne k 8
  | .doOvercurrent k => isOne k 8
  | .doOvercurrentClear k => isOne k 8
  | .doOpen k _ => isOne k 8
  | .outSupplyLow => true
  | .outSupplyReturn => true
  | .leaseTx => true
  | .leaseRx _ _ _ _ _ => true
  | .standbyFrame _ _ _ _ _ _ _ => true
  | .mirrorFrame _ _ _ => true
  | .hopCheck _ => true
  | .twnYield => true
  | .yieldFrame _ _ _ _ => true
  | .twnResync => true
  | .resyncFrame _ _ _ => true
  | .twinStartTimeout _ _ => true
  | .ioFrame _ _ _ _ => true
  | .ioLoss => true
  | .twnPair _ => true
  | .twnUnpair _ => true
  | .heartbeatTx => true
  | .heartbeatRx _ _ _ => true
  | .headwaterLost => true
  | .reconciliation _ _ _ _ => true
  | .casJoin => true
  | .casJoinTimeout => true
  | .alignHold => true
  | .casLeave => true
  | .casEvict target => isOne target 8
  | .latencyMeasure _ => true
  | .cascadeStopNotice _ _ _ => true
  | .createQuire _ _ _ => true
  | .importKey _ _ _ => true
  | .generateKey _ _ _ => true
  | .deriveKey _ _ _ => true
  | .destroyKey _ _ _ => true
  | .decommission _ _ => true
  | .rotateBkey => true
  | .keyDebugEnable => true
  | .closeWindow => true
  | .presenceOpen => true
  | .presenceClose _ => true
  | .presenceStuck _ => true
  | .drbgHealthFail => true
  | .drbgHealthPass => true
  | .updAbort => true
  | .updVerify k => isOne k 6
  | .updActivate k => isOne k 6
  | .trialConfirm kind => isOne kind 3
  | .trialRevert kind _ => isOne kind 3
  | .otpWriteEdition _ _ _ => true
  | .otpAdvance ctr step => isOne ctr 4 && isOne step 129
  | .flashOpFail region _ => isOne region 9
  | .wearLevelling _ _ _ => true
  | .countersAppend => true
  | .second => true
  | .softwareEvent v => isOne v 256
  | .evtClearErr b => isOne b 32
  | .watchdogKick _ _ => true
  | .stewardWatchdogExpiry => true
  | .stewardError _ _ => true
  | .dfaultReset _ => true
  | .progLedgerRecord => true
  | .archivePageWrite _ => true
  | .alarmArchive _ => true
  | .pwrRun => true
  | .pwrReady => true
  | .pwrWatch => true
  | .pwrReset _ => true
  | .autoRunSet => true
  | .runEntry => true
  | .watchEntryDone => true
  | .wake _ => true
  | .powerOn _ => true
  | .pinReset _ => true
  | .brownoutReset _ => true
  | .romRetry _ => true
  | .supplyWarn _ => true
  | .temperatureReading _ _ _ _ => true
  | .verificationEnd _ _ => true
  | .activationReset _ => true
  | .powerLoss => true
  | .plcaBeaconReturn => true
  | .standbyTx _ => true
  | .transmitChainFault => true
  | .cascadeLinkFrame _ _ => true

end Sys2Proof
end

