-- ==== Sys2Proof/Certificates/Slice0/Obligations.lean ====
section
/-!
DEFINITION. Sys2Proof/Certificates/Slice0/Obligations.lean: the statements for the provers, family by family. Each says what a command answers, as a next state, and what that state holds; Settled (no report waits between two commands) is their common premise.
-/
open Sys2Proof Sys2Proof.Machine

/-- On a core that executes, ADD, SUB, AND, OR, XOR, SLT, SLTU, MIN, MAX, MINU and MAXU put their result into D, at 64 bits or, in a W form, at 32 bits sign-extended; nothing but D, the program counter and the count of instructions changes. -/
def Obligations.IntegerResults : Prop :=
  ∀ (n d a b : Nat) (wf : Bool) (s : State), Settled s → Executes n s →
    let put := fun (f64 : Word → Word → Word) (f32 : W32 → W32 → W32) => retire n (fun c => c.setGr d
      (if wf then (f32 ((c.gr a).truncate 32) ((c.gr b).truncate 32)).signExtend 64 else f64 (c.gr a) (c.gr b))) s
    exec (.add n d a b wf) s = .next (put (· + ·) (· + ·)) ∧
    exec (.sub n d a b wf) s = .next (put (· - ·) (· - ·)) ∧
    exec (.and n d a b wf) s = .next (put (· &&& ·) (· &&& ·)) ∧
    exec (.or n d a b wf) s = .next (put (· ||| ·) (· ||| ·)) ∧
    exec (.xor n d a b wf) s = .next (put (· ^^^ ·) (· ^^^ ·)) ∧
    exec (.slt n d a b wf) s = .next (put (fun x y => if x.toInt < y.toInt then 1 else 0) (fun x y => if x.toInt < y.toInt then 1 else 0)) ∧
    exec (.sltu n d a b wf) s = .next (put (fun x y => if x.toNat < y.toNat then 1 else 0) (fun x y => if x.toNat < y.toNat then 1 else 0)) ∧
    exec (.min n d a b wf) s = .next (put (fun x y => if x.toInt < y.toInt then x else y) (fun x y => if x.toInt < y.toInt then x else y)) ∧
    exec (.max n d a b wf) s = .next (put (fun x y => if x.toInt < y.toInt then y else x) (fun x y => if x.toInt < y.toInt then y else x)) ∧
    exec (.minu n d a b wf) s = .next (put (fun x y => if x.toNat < y.toNat then x else y) (fun x y => if x.toNat < y.toNat then x else y)) ∧
    exec (.maxu n d a b wf) s = .next (put (fun x y => if x.toNat < y.toNat then y else x) (fun x y => if x.toNat < y.toNat then y else x))

/-- SLL, SRL and SRA shift by S2 modulo 64, or modulo 32 in a W form; SHIFTI of each kind shifts by its amount; CLZ, CTZ and POPC count, so that a count stands for the bits it claims to; BSWAP reverses the bytes. -/
def Obligations.ShiftsAndCounts : Prop :=
  ∀ (n d a b amt : Nat) (wf : Bool) (s : State), Settled s → Executes n s → amt < 64 →
    let x := (coreOf n s).gr a
    let put := fun (v : Word) => retire n (fun c => c.setGr d v) s
    let sh := (if wf then 32 else 64)
    let k := ((coreOf n s).gr b).toNat % sh
    exec (.sll n d a b wf) s = .next (put (if wf then ((x.truncate 32 : W32) <<< k).signExtend 64 else x <<< k)) ∧
    exec (.srl n d a b wf) s = .next (put (if wf then ((x.truncate 32 : W32) >>> k).signExtend 64 else x >>> k)) ∧
    exec (.sra n d a b wf) s = .next (put (if wf then ((x.truncate 32 : W32).sshiftRight k).signExtend 64 else x.sshiftRight k)) ∧
    exec (.shifti n d a 0 amt) s = .next (put (x <<< amt)) ∧
    exec (.shifti n d a 1 amt) s = .next (put (x >>> amt)) ∧
    exec (.shifti n d a 2 amt) s = .next (put (x.sshiftRight amt)) ∧
    exec (.shifti n d a 4 amt) s = .next (put (((x.truncate 32 : W32) <<< (amt % 32)).signExtend 64)) ∧
    exec (.shifti n d a 5 amt) s = .next (put (((x.truncate 32 : W32) >>> (amt % 32)).signExtend 64)) ∧
    exec (.shifti n d a 6 amt) s = .next (put (((x.truncate 32 : W32).sshiftRight (amt % 32)).signExtend 64)) ∧
    (∃ z : Nat, exec (.clz n d a) s = .next (put (BitVec.ofNat 64 z)) ∧ (∀ i, 64 - z ≤ i → i < 64 → x.getLsbD i = false) ∧ z ≤ 64 ∧ (z < 64 → x.getLsbD (63 - z) = true)) ∧
    (∃ z : Nat, exec (.ctz n d a) s = .next (put (BitVec.ofNat 64 z)) ∧ (∀ i, i < z → x.getLsbD i = false) ∧ z ≤ 64 ∧ (z < 64 → x.getLsbD z = true)) ∧
    exec (.popc n d a) s = .next (put (BitVec.ofNat 64 (((List.range 64).filter (fun i => x.getLsbD i)).length))) ∧
    (∃ v : Word, exec (.bswap n d a wf) s = .next (put v) ∧
      (wf = false → ∀ i, i < 8 → v.extractLsb' (8 * i) 8 = x.extractLsb' (8 * (7 - i)) 8) ∧
      (wf = true → v = (v.truncate 32 : W32).signExtend 64 ∧ ∀ i, i < 4 → v.extractLsb' (8 * i) 8 = x.extractLsb' (8 * (3 - i)) 8))

/-- MUL wraps; MULH and MULHU give the high half of the product; DIV, DIVU, REM and REMU give quotient and remainder, with all ones and the dividend for a divisor of zero, and the wrapped quotient with remainder 0 for the most negative value divided by minus one; W forms do the same on 32 bits. -/
def Obligations.MultiplyDivide : Prop :=
  ∀ (n d a b : Nat) (s : State), Settled s → Executes n s →
    let x := (coreOf n s).gr a
    let y := (coreOf n s).gr b
    let xw : W32 := x.truncate 32
    let yw : W32 := y.truncate 32
    let put := fun (v : Word) => retire n (fun c => c.setGr d v) s
    exec (.mul n d a b false) s = .next (put (x * y)) ∧
    exec (.mul n d a b true) s = .next (put ((xw * yw).signExtend 64)) ∧
    exec (.mulh n d a b) s = .next (put (BitVec.ofInt 64 (x.toInt * y.toInt / 2 ^ 64))) ∧
    exec (.mulhu n d a b) s = .next (put (BitVec.ofNat 64 (x.toNat * y.toNat / 2 ^ 64))) ∧
    exec (.div n d a b false) s = .next (put (if y = 0 then BitVec.allOnes 64 else BitVec.ofInt 64 (x.toInt.tdiv y.toInt))) ∧
    exec (.div n d a b true) s = .next (put (if yw = 0 then BitVec.allOnes 64 else (BitVec.ofInt 32 (xw.toInt.tdiv yw.toInt)).signExtend 64)) ∧
    exec (.divu n d a b false) s = .next (put (if y = 0 then BitVec.allOnes 64 else BitVec.ofNat 64 (x.toNat / y.toNat))) ∧
    exec (.divu n d a b true) s = .next (put (if yw = 0 then BitVec.allOnes 64 else (BitVec.ofNat 32 (xw.toNat / yw.toNat)).signExtend 64)) ∧
    exec (.rem n d a b false) s = .next (put (if y = 0 then x else BitVec.ofInt 64 (x.toInt.tmod y.toInt))) ∧
    exec (.rem n d a b true) s = .next (put (if yw = 0 then xw.signExtend 64 else (BitVec.ofInt 32 (xw.toInt.tmod yw.toInt)).signExtend 64)) ∧
    exec (.remu n d a b false) s = .next (put (if y = 0 then x else BitVec.ofNat 64 (x.toNat % y.toNat))) ∧
    exec (.remu n d a b true) s = .next (put (if yw = 0 then xw.signExtend 64 else (BitVec.ofNat 32 (xw.toNat % yw.toNat)).signExtend 64))

/-- ADDI adds a signed immediate, ANDI, ORI and XORI take it unsigned, SLTI compares signed; MOVW puts 16 bits into one quarter and clears or keeps the rest; PCADD adds the immediate shifted left by 16 to the instruction's own address. -/
def Obligations.ImmediateResults : Prop :=
  ∀ (n d a q imm : Nat) (s : State), Settled s → Executes n s → imm < 65536 → q < 4 →
    let x := (coreOf n s).gr a
    let i : W32 := BitVec.ofNat 32 imm
    let put := fun (v : Word) => retire n (fun c => c.setGr d v) s
    let sx : Word := (i.truncate 16 : BitVec 16).signExtend 64
    exec (.addi n d a imm) s = .next (put (x + sx)) ∧
    exec (.andi n d a imm) s = .next (put (x &&& BitVec.ofNat 64 imm)) ∧
    exec (.ori n d a imm) s = .next (put (x ||| BitVec.ofNat 64 imm)) ∧
    exec (.xori n d a imm) s = .next (put (x ^^^ BitVec.ofNat 64 imm)) ∧
    exec (.slti n d a imm) s = .next (put (if x.toInt < sx.toInt then 1 else 0)) ∧
    exec (.movw n d q false imm) s = .next (put (BitVec.ofNat 64 imm <<< (16 * q))) ∧
    exec (.movw n d q true imm) s = .next (put (((coreOf n s).gr d &&& ~~~((0xFFFF : Word) <<< (16 * q))) ||| BitVec.ofNat 64 imm <<< (16 * q))) ∧
    exec (.pcadd n d imm) s = .next (put ((coreOf n s).pc.zeroExtend 64 + sx <<< 16))

/-- A branch whose relation fails goes on with the next word; one whose relation holds goes to its own address plus four times its displacement, where the core may fetch there. JAL and JALR leave the next address in g31 or D and go to their target. No register but the link register changes. -/
def Obligations.BranchesAndJumps : Prop :=
  ∀ (n a b d disp imm : Nat) (s : State), Settled s → Executes n s →
    let c := coreOf n s
    let x := c.gr a
    let y := c.gr b
    let link : Word := c.pc.zeroExtend 64 + 4
    let goes := fun (t : Nat) (f : Core → Core) => onCore n (fun c => { f c with pc := BitVec.ofNat 32 t, icount := c.icount + 1 }) { s with out := [] }
    let branch := fun (i : Instr) (p : Bool) =>
      (p = false → exec i s = .next (retire n (fun c => c) s)) ∧
      (p = true → targetOf c (imm16 disp) < 2 ^ 32 → fetchOk n (targetOf c (imm16 disp)) s = true → exec i s = .next (goes (targetOf c (imm16 disp)) (fun c => c)))
    branch (.beq n a b disp) (decide (x = y)) ∧ branch (.bne n a b disp) (decide (x ≠ y)) ∧
    branch (.blt n a b disp) (decide (x.toInt < y.toInt)) ∧ branch (.bge n a b disp) (decide (y.toInt ≤ x.toInt)) ∧
    branch (.bltu n a b disp) (decide (x.toNat < y.toNat)) ∧ branch (.bgeu n a b disp) (decide (y.toNat ≤ x.toNat)) ∧
    (targetOf c (sgn 26 disp) < 2 ^ 32 → fetchOk n (targetOf c (sgn 26 disp)) s = true →
      exec (.jal n disp) s = .next (goes (targetOf c (sgn 26 disp)) (fun c => c.setGr 31 link))) ∧
    ((addImm x (imm16 imm)).toNat < 2 ^ 32 → fetchOk n (addImm x (imm16 imm)).toNat s = true →
      exec (.jalr n d a imm) s = .next (goes (addImm x (imm16 imm)).toNat (fun c => c.setGr d link)))

/-- A load from a place of main SRAM that the core may load puts the little-endian number there into D, sign-extended for LB, LH and LW, zero-extended for LBU, LHU and LWU; LD fills the register; VLD takes 16 bytes at S1 plus 16 times its offset, FLD lane 0 with lane 1 cleared. No memory changes. -/
def Obligations.LoadsFromMain : Prop :=
  ∀ (n d a ofs : Nat) (s : State), Settled s → Executes n s →
    let e := effAddr (coreOf n s) a ofs 1
    let v := effAddr (coreOf n s) a ofs 16
    let put := fun (x : Word) => retire n (fun c => c.setGr d x) s
    (Reaches n e 1 false s → exec (.lb n d a ofs) s = .next (put ((BitVec.ofNat 8 (loadLe s.mem e 1)).signExtend 64)) ∧
      exec (.lbu n d a ofs) s = .next (put (BitVec.ofNat 64 (loadLe s.mem e 1)))) ∧
    (Reaches n e 2 false s → exec (.lh n d a ofs) s = .next (put ((BitVec.ofNat 16 (loadLe s.mem e 2)).signExtend 64)) ∧
      exec (.lhu n d a ofs) s = .next (put (BitVec.ofNat 64 (loadLe s.mem e 2)))) ∧
    (Reaches n e 4 false s → exec (.lw n d a ofs) s = .next (put ((BitVec.ofNat 32 (loadLe s.mem e 4)).signExtend 64)) ∧
      exec (.lwu n d a ofs) s = .next (put (BitVec.ofNat 64 (loadLe s.mem e 4)))) ∧
    (Reaches n e 8 false s → exec (.ld n d a ofs) s = .next (put (BitVec.ofNat 64 (loadLe s.mem e 8))) ∧
      (n ≠ 16 → exec (.fld n d a ofs) s = .next (retire n (fun c => c.setVr d (BitVec.ofNat 128 (loadLe s.mem e 8))) s))) ∧
    (Reaches n v 16 false s → n ≠ 16 → exec (.vld n d a ofs) s = .next (retire n (fun c => c.setVr d (BitVec.ofNat 128 (loadLe s.mem v 16))) s))

/-- SB, SH, SW, SD, FST and VST to a place of main SRAM that the core may store put the low bytes of D, or of v[D], at the effective address, least significant first: every stored byte reads back, every other byte reads as before, and the core's registers, the other cores and the two codes' marks are as they were. -/
def Obligations.StoresToMain : Prop :=
  ∀ (n d a ofs : Nat) (s : State), Settled s → Executes n s →
    let e := effAddr (coreOf n s) a ofs 1
    let v := effAddr (coreOf n s) a ofs 16
    let stores := fun (i : Instr) (at_ w x : Nat) => ∃ t, exec i s = .next t ∧
      (∀ k, k < w → byteAt t.mem (at_ + k) = BitVec.ofNat 8 (x / 256 ^ k)) ∧
      (∀ p, p < at_ ∨ at_ + w ≤ p → byteAt t.mem p = byteAt s.mem p) ∧
      coreOf n t = (coreOf n s).step ∧ (∀ m, m ≠ n → coreOf m t = coreOf m s) ∧ t.ecc = s.ecc
    (Reaches n e 1 true s → stores (.sb n d a ofs) e 1 ((coreOf n s).gr d).toNat) ∧
    (Reaches n e 2 true s → stores (.sh n d a ofs) e 2 ((coreOf n s).gr d).toNat) ∧
    (Reaches n e 4 true s → stores (.sw n d a ofs) e 4 ((coreOf n s).gr d).toNat) ∧
    (Reaches n e 8 true s → stores (.sd n d a ofs) e 8 ((coreOf n s).gr d).toNat) ∧
    (Reaches n e 8 true s → n ≠ 16 → stores (.fst n d a ofs) e 8 (((coreOf n s).vr d).toNat % 2 ^ 64)) ∧
    (Reaches n v 16 true s → n ≠ 16 → stores (.vst n d a ofs) v 16 ((coreOf n s).vr d).toNat)

/-- An atomic on main SRAM that the core may store reads the old number, puts it into D zero-extended, and writes the operation's result, at 4 or 8 bytes; CAS writes S2 only where memory equals the old D. No other byte changes. A fence only completes. -/
def Obligations.AtomicsAndFences : Prop :=
  ∀ (n d a b order : Nat) (s : State), Settled s → Executes n s → order < 4 →
    let e := ((coreOf n s).gr a).toNat
    let y := ((coreOf n s).gr b).toNat
    let amo := fun (i : Instr) (w new : Nat) => ∃ t, exec i s = .next t ∧
      coreOf n t = ((coreOf n s).setGr d (BitVec.ofNat 64 (loadLe s.mem e w))).step ∧
      loadLe t.mem e w = new % 256 ^ w ∧ (∀ p, p < e ∨ e + w ≤ p → byteAt t.mem p = byteAt s.mem p) ∧ (∀ m, m ≠ n → coreOf m t = coreOf m s)
    (∀ sz w, (sz = 2 ∧ w = 4) ∨ (sz = 3 ∧ w = 8) → Reaches n e w true s →
      let o := loadLe s.mem e w
      let y := y % 256 ^ w
      amo (.atomic n 0 sz order d a b) w y ∧ amo (.atomic n 1 sz order d a b) w (o + y) ∧ amo (.atomic n 2 sz order d a b) w (o &&& y) ∧
      amo (.atomic n 3 sz order d a b) w (o ||| y) ∧ amo (.atomic n 4 sz order d a b) w (o ^^^ y) ∧
      amo (.atomic n 5 sz order d a b) w (if sgn (8 * w) o < sgn (8 * w) y then o else y) ∧
      amo (.atomic n 6 sz order d a b) w (if sgn (8 * w) o < sgn (8 * w) y then y else o) ∧
      amo (.atomic n 7 sz order d a b) w (if o < y then o else y) ∧ amo (.atomic n 8 sz order d a b) w (if o < y then y else o) ∧
      amo (.atomicCas n sz order d a b) w (if o = ((coreOf n s).gr d).toNat then y else o)) ∧
    exec (.fenceRw n) s = .next (retire n (fun c => c) s) ∧ exec (.fenceAll n) s = .next (retire n (fun c => c) s) ∧ exec (.fenceI n) s = .next (retire n (fun c => c) s)


/-- On a field core that executes, the arithmetic of Table ISA-5 puts its binary64 result, rounded as FPCTL.RM selects, into lane 0 of D, clears lane 1, and adds its flags to the sticky flags of FPCTL; nothing else changes. The operations on numbers are those of Machine/Flags.lean. -/
def Obligations.FloatArithmetic : Prop :=
  ∀ (n d a b : Nat) (s : State), Settled s → FieldExecutes n s →
    let puts := fun (i : Instr) (f : Core → Nat × FFlags) => exec i s = .next (retire n (fun c => (c.setFr d (f c).1).addFlags (f c).2) s)
    puts (.fadd n d a b) (fun c => fAdd (c.fpctl.toNat % 4) (c.fr a) (c.fr b)) ∧
    puts (.fsub n d a b) (fun c => fAdd (c.fpctl.toNat % 4) (c.fr a) (fNeg (c.fr b))) ∧
    puts (.fmul n d a b) (fun c => fMul (c.fpctl.toNat % 4) (c.fr a) (c.fr b)) ∧
    puts (.fdiv n d a b) (fun c => fDiv (c.fpctl.toNat % 4) (c.fr a) (c.fr b)) ∧
    puts (.fsqrt n d a) (fun c => fSqrt (c.fpctl.toNat % 4) (c.fr a)) ∧
    puts (.fmin n d a b) (fun c => fMin (c.fr a) (c.fr b)) ∧
    puts (.fmax n d a b) (fun c => fMaxNum (c.fr a) (c.fr b)) ∧
    puts (.fmadd n d a b) (fun c => fFma (c.fpctl.toNat % 4) (c.fr a) (c.fr b) (c.fr d)) ∧
    puts (.fmsub n d a b) (fun c => fFma (c.fpctl.toNat % 4) (c.fr a) (c.fr b) (fNeg (c.fr d))) ∧
    puts (.fnmadd n d a b) (fun c => fFma (c.fpctl.toNat % 4) (fNeg (c.fr a)) (c.fr b) (c.fr d))

/-- For operands of 64 bits and each rounding mode, a sum, a product, a quotient, a root or a fused multiply-add that is a NaN is 0x7FF8_0000_0000_0000, and it is one whenever an operand is a NaN; a quotient of a finite number not zero by zero is an infinity with the division flag. -/
def Obligations.QuietNaN : Prop :=
  ∀ (rm a b c : Nat), rm < 4 → a < 2 ^ 64 → b < 2 ^ 64 → c < 2 ^ 64 →
    let isNan := fun x => x / 2 ^ 52 % 2048 = 2047 ∧ x % 2 ^ 52 ≠ 0
    let quiet := fun (r : Nat × FFlags) => isNan r.1 → r.1 = 0x7FF8000000000000
    quiet (fAdd rm a b) ∧ quiet (fMul rm a b) ∧ quiet (fDiv rm a b) ∧ quiet (fSqrt rm a) ∧ quiet (fFma rm a b c) ∧
    (isNan a ∨ isNan b → isNan (fAdd rm a b).1 ∧ isNan (fMul rm a b).1 ∧ isNan (fDiv rm a b).1) ∧
    (isNan a ∨ isNan b ∨ isNan c → isNan (fFma rm a b c).1) ∧
    (a / 2 ^ 52 % 2048 ≠ 2047 → a % 2 ^ 63 ≠ 0 → b % 2 ^ 63 = 0 → (fDiv rm a b).2 = { dz := true } ∧ (fDiv rm a b).1 % 2 ^ 63 = 2047 * 2 ^ 52)

/-- FABS and FNEG clear and turn the sign bit; FMV.X and FMV.D move bits between lane 0 and a general register; FEQ, FLT and FLE put 1 or 0 into a general register, 0 when an operand is a NaN; FCLASS puts its class bit; FCVT.D.L gives the rounded float of a signed integer; FCVT.L.D gives the integer, the nearer end of the signed range beyond it, and 0 for a NaN, the last two with NV. A result in a general register leaves every vector register as it was. -/
def Obligations.FloatMovesAndConversions : Prop :=
  ∀ (n d a b : Nat) (s : State), Settled s → FieldExecutes n s →
    let c := coreOf n s
    let x := c.fr a
    let y := c.fr b
    let isNan := fun x => x / 2 ^ 52 % 2048 = 2047 ∧ x % 2 ^ 52 ≠ 0
    exec (.fabs n d a) s = .next (retire n (fun c => c.setFr d (c.fr a % 2 ^ 63)) s) ∧
    (∃ v, exec (.fneg n d a) s = .next (retire n (fun c => c.setFr d v) s) ∧ v % 2 ^ 63 = x % 2 ^ 63 ∧ v / 2 ^ 63 = 1 - x / 2 ^ 63) ∧
    exec (.fmvX n d a) s = .next (retire n (fun c => c.setGr d (BitVec.ofNat 64 (c.fr a))) s) ∧
    exec (.fmvD n d a) s = .next (retire n (fun c => c.setFr d (c.gr a).toNat) s) ∧
    (∀ i, i = .feq n d a b ∨ i = .flt n d a b ∨ i = .fle n d a b →
      ∃ r fl, exec i s = .next (retire n (fun c => (c.setGr d (if r then 1 else 0)).addFlags fl) s) ∧ ((isNan x ∨ isNan y) → r = false)) ∧
    (¬ isNan x → ¬ isNan y → ∃ e l g : Bool, (∃ fl, exec (.feq n d a b) s = .next (retire n (fun c => (c.setGr d (if e then 1 else 0)).addFlags fl) s)) ∧
      (∃ fl, exec (.flt n d a b) s = .next (retire n (fun c => (c.setGr d (if l then 1 else 0)).addFlags fl) s)) ∧
      (∃ fl, exec (.fle n d a b) s = .next (retire n (fun c => (c.setGr d (if g then 1 else 0)).addFlags fl) s)) ∧ (l = true → g = true ∧ e = false) ∧ (e = true → g = true)) ∧
    exec (.fcvtDL n d a) s = .next (retire n (fun c => (c.setFr d (fOfInt (c.fpctl.toNat % 4) (c.gr a).toInt).1).addFlags (fOfInt (c.fpctl.toNat % 4) (c.gr a).toInt).2) s) ∧
    (∃ (k : Int) (fl : FFlags), exec (.fcvtLD n d a) s = .next (retire n (fun c => (c.setGr d (BitVec.ofInt 64 k)).addFlags fl) s) ∧
      (isNan x → k = 0 ∧ fl = { nv := true }) ∧ (x = 0x7FF0000000000000 → k = 2 ^ 63 - 1 ∧ fl = { nv := true }) ∧ (x = 0xFFF0000000000000 → k = -(2 ^ 63) ∧ fl = { nv := true }) ∧
      -(2 ^ 63) ≤ k ∧ k < 2 ^ 63) ∧
    (∃ k, k < 10 ∧ exec (.fclass n d a) s = .next (retire n (fun c => c.setGr d (BitVec.ofNat 64 (2 ^ k))) s) ∧ (isNan x ↔ 8 ≤ k))

/-- At the integer widths 8, 16, 32 and 64, VADD, VSUB, VMUL, VMIN, VMAX, VSHL, VSHR, VSAR, VCMPEQ and VCMPLT put into every lane of D what Table ISA-6 says of the same lanes of S1 and S2, and change nothing else. -/
def Obligations.VectorIntegerLanes : Prop :=
  ∀ (n wd d a b : Nat) (s : State), Settled s → FieldExecutes n s → wd < 4 →
    let w := 8 * 2 ^ wd
    let x := fun i => ((coreOf n s).vr a).toNat / 2 ^ (w * i) % 2 ^ w
    let y := fun i => ((coreOf n s).vr b).toNat / 2 ^ (w * i) % 2 ^ w
    let lanewise := fun (i : Instr) (f : Nat → Nat → Nat) => ∃ v : Vec, exec i s = .next (retire n (fun c => c.setVr d v) s) ∧
      ∀ k, k < 128 / w → v.toNat / 2 ^ (w * k) % 2 ^ w = f (x k) (y k)
    lanewise (.vadd n wd d a b) (fun p q => (p + q) % 2 ^ w) ∧
    lanewise (.vsub n wd d a b) (fun p q => (p + 2 ^ w - q) % 2 ^ w) ∧
    lanewise (.vmul n wd d a b) (fun p q => p * q % 2 ^ w) ∧
    lanewise (.vmin n wd d a b) (fun p q => if sgn w p < sgn w q then p else q) ∧
    lanewise (.vmax n wd d a b) (fun p q => if sgn w p < sgn w q then q else p) ∧
    lanewise (.vshl n wd d a b) (fun p q => p * 2 ^ (q % w) % 2 ^ w) ∧
    lanewise (.vshr n wd d a b) (fun p q => p / 2 ^ (q % w)) ∧
    lanewise (.vsar n wd d a b) (fun p q => enc w (sgn w p / 2 ^ (q % w))) ∧
    lanewise (.vcmpeq n wd d a b) (fun p q => if p = q then 2 ^ w - 1 else 0) ∧
    lanewise (.vcmplt n wd d a b) (fun p q => if sgn w p < sgn w q then 2 ^ w - 1 else 0)

/-- At the float64 width, VADD, VSUB, VMUL, VDIV, VMIN, VMAX, VSQRT, VFMA, VCMPEQ and VCMPLT do in both lanes what the scalar operation does, with the flags of both. -/
def Obligations.VectorFloatLanes : Prop :=
  ∀ (n d a b : Nat) (s : State), Settled s → FieldExecutes n s →
    let c := coreOf n s
    let rm := c.fpctl.toNat % 4
    let x := fun i => (c.vr a).toNat / 2 ^ (64 * i) % 2 ^ 64
    let y := fun i => (c.vr b).toNat / 2 ^ (64 * i) % 2 ^ 64
    let z := fun i => (c.vr d).toNat / 2 ^ (64 * i) % 2 ^ 64
    let both := fun (i : Instr) (f : Nat → Nat × FFlags) => ∃ v : Vec,
      exec i s = .next (retire n (fun c => (c.setVr d v).addFlags ((f 0).2.join (f 1).2)) s) ∧
      v.toNat % 2 ^ 64 = (f 0).1 % 2 ^ 64 ∧ v.toNat / 2 ^ 64 = (f 1).1 % 2 ^ 64
    both (.vadd n 4 d a b) (fun i => fAdd rm (x i) (y i)) ∧ both (.vsub n 4 d a b) (fun i => fAdd rm (x i) (fNeg (y i))) ∧
    both (.vmul n 4 d a b) (fun i => fMul rm (x i) (y i)) ∧ both (.vdiv n 4 d a b) (fun i => fDiv rm (x i) (y i)) ∧
    both (.vmin n 4 d a b) (fun i => fMin (x i) (y i)) ∧ both (.vmax n 4 d a b) (fun i => fMaxNum (x i) (y i)) ∧
    both (.vsqrt n 4 d a) (fun i => fSqrt rm (x i)) ∧ both (.vfma n 4 d a b) (fun i => fFma rm (x i) (y i) (z i)) ∧
    both (.vcmpeq n 4 d a b) (fun i => (if (fEq (x i) (y i)).1 then 2 ^ 64 - 1 else 0, (fEq (x i) (y i)).2)) ∧
    both (.vcmplt n 4 d a b) (fun i => (if (fLt (x i) (y i)).1 then 2 ^ 64 - 1 else 0, (fLt (x i) (y i)).2))

/-- VAND, VOR and VXOR work on 128 bits at every width code; VSPLAT fills every lane; VEXT takes a lane out, sign-extended; VINS puts one in and leaves the other lanes; VSUM adds the two 64-bit lanes into lane 0 and clears lane 1. -/
def Obligations.VectorMoves : Prop :=
  ∀ (n wd d a b k : Nat) (s : State), Settled s → FieldExecutes n s → wd ≤ 4 → k < 128 / (if wd = 4 then 64 else 8 * 2 ^ wd) →
    let w := if wd = 4 then 64 else 8 * 2 ^ wd
    let c := coreOf n s
    exec (.vand n wd d a b) s = .next (retire n (fun c => c.setVr d (c.vr a &&& c.vr b)) s) ∧
    exec (.vor n wd d a b) s = .next (retire n (fun c => c.setVr d (c.vr a ||| c.vr b)) s) ∧
    exec (.vxor n wd d a b) s = .next (retire n (fun c => c.setVr d (c.vr a ^^^ c.vr b)) s) ∧
    (∃ v : Vec, exec (.vsplat n wd d a) s = .next (retire n (fun c => c.setVr d v) s) ∧ ∀ i, i < 128 / w → v.toNat / 2 ^ (w * i) % 2 ^ w = (c.gr a).toNat % 2 ^ w) ∧
    exec (.vext n wd d a k) s = .next (retire n (fun c => c.setGr d (BitVec.ofInt 64 (sgn w ((c.vr a).toNat / 2 ^ (w * k))))) s) ∧
    (∃ v : Vec, exec (.vins n wd d a k) s = .next (retire n (fun c => c.setVr d v) s) ∧
      ∀ i, i < 128 / w → v.toNat / 2 ^ (w * i) % 2 ^ w = if i = k then (c.gr a).toNat % 2 ^ w else (c.vr d).toNat / 2 ^ (w * i) % 2 ^ w) ∧
    (∃ x : Nat × FFlags, exec (.vsum n 4 d a) s = .next (retire n (fun c => (c.setFr d x.1).addFlags x.2) s) ∧
      x = fAdd (c.fpctl.toNat % 4) ((c.vr a).toNat % 2 ^ 64) ((c.vr a).toNat / 2 ^ 64)) ∧
    exec (.vsum n 3 d a) s = .next (retire n (fun c => c.setFr d ((c.vr a).toNat % 2 ^ 64 + (c.vr a).toNat / 2 ^ 64)) s)


/-- On a field core granted a flume that has room and is neither flushing nor dropping a record, FPUSH, FPUSHE, FPUSHW and FPUSHWE put S1 at the end of the flume, the last word of a record tagged END, and 0 into D; every other byte of memory and every other flume stays. Without room FPUSHW and FPUSHWE wait, with nothing moved. -/
def Obligations.FlumePush : Prop :=
  ∀ (n f d a : Nat) (s : State), Settled s → FieldExecutes n s → flumeGrant n f s = true → (flume f s).flushing = false → (flume f s).dropping = false →
    let c := coreOf n s
    let fl := flume f s
    let at_ := flumeAddr f (fl.head + fl.tags.length) s
    (flumeRoom f 1 s = true → ∀ i tag, (i, tag) ∈ [(Instr.fpush n d a f, 0), (Instr.fpushe n d a f, 1), (Instr.fpushw n d a f, 0), (Instr.fpushwe n d a f, 1)] →
      Answers i s (fun t => coreOf n t = (c.setGr d 0).step ∧ (flume f t).tags = fl.tags ++ [tag] ∧ (flume f t).head = fl.head ∧
        loadLe t.mem at_ 8 = (c.gr a).toNat ∧ (∀ p, p < at_ ∨ at_ + 8 ≤ p → byteAt t.mem p = byteAt s.mem p) ∧
        (∀ g, g ≠ f → flume g t = flume g s) ∧ (∀ m, m ≠ n → coreOf m t = coreOf m s))) ∧
    (flumeRoom f 1 s = false → ∀ i tag, (i, tag) ∈ [(Instr.fpushw n d a f, false), (Instr.fpushwe n d a f, true)] →
      Answers i s (fun t => coreOf n t = { c with wait := some { kind := .push tag, d := d, s1 := a, s2 := 0, flume := f, since := s.clk.frc } } ∧
        flume f t = fl ∧ t.mem = s.mem))

/-- On a field core granted a flume for which no inbox stands, with a word in sight and no word of any store in error, FPOP and FPOPW put the oldest word into D and its tags into S1 and remove it; FPEEK leaves it; FLEN counts the words held. An empty flume gives FPOP and FPEEK 0 and EMPTY. Where D and S1 name one register either of the two values stays (Core.setTwo, log entry 23). -/
def Obligations.FlumeTake : Prop :=
  ∀ (n f d a : Nat) (s : State), Settled s → FieldExecutes n s → flumeGrant n f s = true → inboxFor n f s = none →
    let c := coreOf n s
    let fl := flume f s
    let w : Word := BitVec.ofNat 64 (loadLe s.mem (flumeAddr f fl.head s) 8)
    let both := fun (x y : Word) => (c.setTwo d a x y).step
    (0 < flumeVisible f s → ∀ i, i = .fpop n d a f ∨ i = .fpopw n d a f →
      Answers i s (fun t => coreOf n t = both w (BitVec.ofNat 64 (fl.tags.headD 0)) ∧ (flume f t).tags = fl.tags.drop 1 ∧ t.mem = s.mem ∧ (∀ g, g ≠ f → flume g t = flume g s))) ∧
    (0 < flumeVisible f s → Answers (.fpeek n d a f) s (fun t => coreOf n t = both w (BitVec.ofNat 64 (fl.tags.headD 0)) ∧ flume f t = fl ∧ t.mem = s.mem)) ∧
    (flumeVisible f s = 0 → ∀ i, i = .fpop n d a f ∨ i = .fpeek n d a f → Answers i s (fun t => coreOf n t = both 0 4 ∧ flume f t = fl ∧ t.mem = s.mem)) ∧
    (flumeVisible f s = 0 → Answers (.fpopw n d a f) s (fun t => coreOf n t = { c with wait := some { kind := .pop, d := d, s1 := a, s2 := 0, flume := f, since := s.clk.frc } } ∧ flume f t = fl)) ∧
    exec (.flen n d f) s = .next (retire n (fun c => c.setGr d (BitVec.ofNat 64 fl.tags.length)) s)

/-- FSEND of 1 to 128 words the core may load into a flume with room appends them as one record and puts 0 into D; FRECV of a record in sight of at most S2 words, into a range the core may store, takes it whole and puts its length with the END bit into D. A waiting push whose flume has room completes; one whose millisecond is over without room completes with the timeout status and moves nothing. -/
def Obligations.FlumeBlocksAndWaits : Prop :=
  ∀ (n f d a b k : Nat) (s : State), Settled s →
    let c := coreOf n s
    let fl := flume f s
    (FieldExecutes n s → flumeGrant n f s = true → fl.flushing = false → fl.dropping = false → (c.gr b).toNat = k → 0 < k → k ≤ 128 →
      rangeCheck n (c.gr a).toNat k false s = none → flumeRoom f k s = true →
      Answers (.fsend n d a b f) s (fun t => coreOf n t = (c.setGr d 0).step ∧ (flume f t).tags = fl.tags ++ (List.replicate (k - 1) 0 ++ [1]) ∧ ∀ g, g ≠ f → flume g t = flume g s)) ∧
    (FieldExecutes n s → flumeGrant n f s = true → inboxFor n f s = none → 0 < k → k ≤ flumeVisible f s → fl.tags.take k = List.replicate (k - 1) 0 ++ [1] →
      k ≤ (c.gr b).toNat → (c.gr b).toNat ≤ 128 → rangeCheck n (c.gr a).toNat (c.gr b).toNat true s = none →
      Answers (.frecv n d a b f) s (fun t => coreOf n t = (c.setGr d (BitVec.ofNat 64 (k + 2 ^ 32))).step ∧ (flume f t).tags = fl.tags.drop k ∧ ∀ g, g ≠ f → flume g t = flume g s)) ∧
    (∀ e, n < 16 → awake s = true → c.wait = some { kind := .push e, d := d, s1 := a, s2 := 0, flume := f, since := b } → fl.flushing = false → fl.dropping = false →
      (flumeOn f s = true → flumeRoom f 1 s = true →
        Answers (.flumeWaitDone n) s (fun t => coreOf n t = ({ c with wait := none }.setGr d 0).step ∧ (flume f t).tags = fl.tags ++ [b2n e])) ∧
      (flumeRoom f 1 s = false → b + 500000 ≤ s.clk.frc →
        Answers (.waitTimeout n) s (fun t => coreOf n t = ({ c with wait := none }.setGr d 2).step ∧ flume f t = fl ∧ t.mem = s.mem)))

/-- On a field core that executes an item, MDONE and MFAIL end it: the core is IDLE without an item, and the item's number counts as complete; MYIELD idles the core. MARG and MID give the item's argument and identity; MCANCEL of a number no item has had gives 2, of an item in service 1, with no other register changed; MPOST gives the number of the item it posts, or all ones when it is refused. -/
def Obligations.MillraceInstructions : Prop :=
  ∀ (n d a b q : Nat) (i : Item) (s : State), Settled s → FieldExecutes n s → (coreOf n s).item = some q → item? q s = some i →
    let c := coreOf n s
    (∀ x, x = .mdone n a ∨ x = .mfail n a → Answers x s (fun t => (coreOf n t).st = .idle ∧ (coreOf n t).item = none ∧ (coreOf n t).g = c.g ∧ (coreOf n t).v = c.v ∧ i.num ∈ t.mrc.done)) ∧
    Answers (.myield n) s (fun t => (coreOf n t).st = .idle ∧ (coreOf n t).item = none ∧ (coreOf n t).g = c.g ∧ t.mrc.done = s.mrc.done) ∧
    exec (.marg n d) s = .next (retire n (fun c => c.setGr d i.arg) s) ∧
    exec (.mid n d) s = .next (retire n (fun c => c.setGr d (BitVec.ofNat 64 (i.num + i.flow * 2 ^ 16 + i.op * 2 ^ 32 + opPrio i.op s * 2 ^ 44))) s) ∧
    ((∀ x ∈ s.mrc.items, x.2.num ≠ (c.gr a).toNat) → (c.gr a).toNat ∉ s.mrc.done → exec (.mcancel n d a) s = .next (retire n (fun c => c.setGr d 2) s)) ∧
    (itemNum (c.gr a).toNat s = some q → i.st = .service → exec (.mcancel n d a) s = .next (retire n (fun c => c.setGr d 1) s)) ∧
    (on MRC_CTRL_EN s = false → Answers (.mpost n d a b) s (fun t => coreOf n t = (c.setGr d (BitVec.allOnes 64)).step ∧ t.mrc.done = s.mrc.done)) ∧
    (on MRC_CTRL_EN s = true → opLoaded ((c.gr a).toNat % 1024) s = true → (c.gr a).toNat = (c.gr a).toNat % 1024 + (c.gr a).toNat / 65536 % 4096 * 65536 →
      graphOn (opGraph ((c.gr a).toNat % 1024) s) s = true → rd MRC_RESERVE_RESERVE s < freeItems s →
      ∃ m, m < 65536 ∧ Answers (.mpost n d a b) s (fun t => coreOf n t = (c.setGr d (BitVec.ofNat 64 m)).step))

/-- TSITE, TCT, TCYC and TPORT put site time, claim time, cycle number with the time since its start (where TCYC's D and S1 name one register either stays, log entry 23), and port time into registers; TWAIT for an instant already reached completes with 0, for a later one it waits; nothing else changes. On a field core ERD of an entry inside its table, with the engine enabled and the first vector register aligned, puts the entry's bytes, all of this one state, into the vector registers from D on, 16 bytes each, and changes nothing else; beyond the table it raises ENGINE with the entry's number. -/
def Obligations.TimeAndEngineReads : Prop :=
  ∀ (n d a p tbl : Nat) (s : State), Settled s → Executes n s →
    exec (.tsite n d) s = .next (retire n (fun c => c.setGr d (BitVec.ofNat 64 (siteNs s))) s) ∧
    exec (.tct n d) s = .next (retire n (fun c => c.setGr d (BitVec.ofNat 64 (siteNs s / 1000 % 2 ^ 32))) s) ∧
    exec (.tcyc n d a) s = .next (retire n (fun c => c.setTwo d a (BitVec.ofNat 64 (cycleNo s)) (BitVec.ofNat 64 (cyclePhase s))) s) ∧
    (p < 4 → exec (.tport n d p) s = .next (retire n (fun c => c.setGr d (BitVec.ofInt 64 (portNs s))) s)) ∧
    (((coreOf n s).gr a).toNat ≤ siteNs s → exec (.twait n d a) s = .next (retire n (fun c => c.setGr d 0) s)) ∧
    (siteNs s < ((coreOf n s).gr a).toNat → Answers (.twait n d a) s (fun t =>
      coreOf n t = { coreOf n s with wait := some { kind := .twait, d := d, s1 := a, s2 := 0, flume := 0, since := s.clk.frc } })) ∧
    (n < 16 → tbl < 6 → d % (if tbl = 3 then 4 else 2) = 0 →
      let i := ((coreOf n s).gr a).toNat
      (i < erdCount tbl → erdOn tbl s = true → exec (.erd n tbl d a) s = .next (retire n (setVecs d (erdBytes tbl i s)) s)) ∧
      (erdCount tbl ≤ i → (coreOf n s).st = .op → on CCX_VBASE_HEN s = true →
        Answers (.erd n tbl d a) s (fun t => coreOf n t = enterHandler 0x0A i (handlerPc s) (coreOf n s))))

/-- On a field core that executes, SYSC, BRK without debug and a word that is no instruction take SYSCALL, BREAK and ILLEGAL: at OP level with a handler set, EPC takes the instruction's address, ECAUSE the cause, EADDR and ESTAT are 0, and the core goes on at RUN level at the handler with every general and vector register as it was; at OP level without a handler the item ends and the core idles; at RUN level the core halts. With debug enabled BRK halts the core into debug at its own address. -/
def Obligations.TakesException : Prop :=
  ∀ (n w a : Nat) (s : State), Settled s → FieldExecutes n s →
    let c := coreOf n s
    let raises := fun (i : Instr) (cause : Nat) =>
      (c.st = .op → on CCX_VBASE_HEN s = true → Answers i s (fun t =>
        coreOf n t = { c with epc := c.pc.zeroExtend 64, ecause := BitVec.ofNat 64 cause, eaddr := 0, estat := 0, st := .run, pc := BitVec.ofNat 32 (64 * rd CCX_VBASE_ADDR s) } ∧
        (∀ m, m ≠ n → coreOf m t = coreOf m s) ∧ t.mem = s.mem)) ∧
      (c.st = .op → on CCX_VBASE_HEN s = false → Answers i s (fun t => (coreOf n t).st = .idle ∧ (coreOf n t).item = none ∧
        ∀ q x, c.item = some q → item? q s = some x → x.num ∈ t.mrc.done)) ∧
      (c.st = .run → Answers i s (fun t => (coreOf n t).st = .halted ∧ (coreOf n t).item = none))
    raises (.sysc n a) 0x0C ∧
    (debugOn s = false → raises (.brk n) 0x0D) ∧
    (debugOn s = true → exec (.brk n) s = .next (onCore n (fun c => { c with debug := true }) { s with out := [] })) ∧
    (decodeCyent n w = none → raises (.illegal n w) 0x01)

/-- ERET on a field core at RUN level whose EPC is an address of 32 bits goes there at the level of ESTAT, with every general, vector and control register as it was, while the budget is not used up. CRR at RUN level reads each control register; CRW reads the old value into D and then writes EPC, SCRATCH0, SCRATCH1, ESTAT (its bit 0) or FPCTL (its bits 6 to 0). An operation at OP level that has used up its budget takes BUDGET. A core reset leaves the core IDLE, or OFF where its enable bit is 0, with its registers zero. -/
def Obligations.ReturnAndControl : Prop :=
  ∀ (n d a : Nat) (s : State), Settled s →
    let c := coreOf n s
    (FieldExecutes n s → c.st = .run → c.epc.toNat < 2 ^ 32 → (budgetOut n s = false ∨ c.estat.toNat % 2 = 1) →
      Answers (.eret n) s (fun t => coreOf n t = { c with pc := c.epc.truncate 32, icount := c.icount + 1, st := if c.estat.toNat % 2 = 0 then .op else .run } ∧ t.mem = s.mem)) ∧
    (FieldExecutes n s → c.st = .run →
      (∀ num v, (num, v) ∈ [(0x000, c.epc), (0x001, c.ecause), (0x002, c.eaddr), (0x003, c.estat), (0x004, c.scratch0), (0x005, c.scratch1), (0x010, c.fpctl), (0x021, c.icount), (0x030, BitVec.ofNat 64 n)] →
        exec (.crr n d num) s = .next (retire n (fun c => c.setGr d v) s)) ∧
      exec (.crw n d a 0x000) s = .next (retire n (fun c => { c.setGr d c.epc with epc := c.gr a }) s) ∧
      exec (.crw n d a 0x003) s = .next (retire n (fun c => { c.setGr d c.estat with estat := c.gr a &&& 1 }) s) ∧
      exec (.crw n d a 0x004) s = .next (retire n (fun c => { c.setGr d c.scratch0 with scratch0 := c.gr a }) s) ∧
      exec (.crw n d a 0x005) s = .next (retire n (fun c => { c.setGr d c.scratch1 with scratch1 := c.gr a }) s) ∧
      exec (.crw n d a 0x010) s = .next (retire n (fun c => { c.setGr d c.fpctl with fpctl := c.gr a &&& 0x7F }) s)) ∧
    (n < 16 → c.st = .op → c.debug = false → awake s = true → budgetOut n s = true → on CCX_VBASE_HEN s = true →
      Answers (.budgetExpiry n) s (fun t => coreOf n t = enterHandler 0x0B 0 (handlerPc s) c)) ∧
    (n < 16 → s.pwr.off = false → Answers (.coreReset n) s (fun t =>
      coreOf n t = { st := if bit (rd CCX_CTRL_EN s) n then .idle else .off, ccFrom := s.clk.frc, mhz := coreMhz s } ∧ ∀ m, m ≠ n → coreOf m t = coreOf m s))

/-- The frame of the integer, immediate, float64, comparison and vector instructions: of the state that their result statements give (retire with a general register, a general register and flags, or a vector register and flags written), every byte of memory, every other core, every control register of the core but FPCTL and the counts, its state, its item and every general and vector register other than D are as they were, and g0 reads zero. -/
def Obligations.RegisterFrame : Prop :=
  ∀ (n d : Nat) (x : Word) (v : Vec) (fl : FFlags) (s : State),
    (∀ f, f = (fun c => c.setGr d x) ∨ f = (fun c : Core => (c.setGr d x).addFlags fl) ∨ f = (fun c : Core => (c.setVr d v).addFlags fl) →
      let t := retire n f s
      let c := coreOf n s
      let e := coreOf n t
      (∀ p, byteAt t.mem p = byteAt s.mem p) ∧ (∀ m, m ≠ n → coreOf m t = coreOf m s) ∧ (∀ r, r ≠ d → e.gr r = c.gr r) ∧ (∀ r, r ≠ d → e.vr r = c.vr r) ∧ e.gr 0 = 0 ∧
      e.pc = c.pc + 4 ∧ e.icount = c.icount + 1 ∧ (e.epc, e.ecause, e.eaddr, e.estat, e.scratch0, e.scratch1) = (c.epc, c.ecause, c.eaddr, c.estat, c.scratch0, c.scratch1) ∧
      (e.st, e.item, e.wait, e.debug) = (c.st, c.item, c.wait, c.debug) ∧
      (t.flm, t.ecc, t.mrc, t.evt, t.clk, t.ccx.regs) = (s.flm, s.ecc, s.mrc, s.evt, s.clk, s.ccx.regs))


/-- While DIO runs, an edge of a filtered input sets that input's filtered state, its raw state and its bit in DIO_EDGE, and no other input's. A write to the outputs sets every bit in PERMIT; outside PERMIT it leaves the bits of the outputs a stop holds and counts those it would have changed; after a double fault it changes none. The end of a pulse returns its output's bit to 0 and a pulse still running is left alone. -/
def Obligations.DigitalInputsAndOutputs : Prop :=
  (∀ (i : Nat) (level : Bool) (s : State), i < 16 → dioOn s = true → fbit DIO_IN_FILT i s ≠ level →
    Answers (.diEdge i level) s (fun t => fbit DIO_IN_FILT i t = level ∧ fbit DIO_IN_RAW i t = level ∧ fbit (if level then DIO_EDGE_RISE else DIO_EDGE_FALL) i t = true ∧
      (∀ j, j < 16 → j ≠ i → fbit DIO_IN_FILT j t = fbit DIO_IN_FILT j s ∧ fbit DIO_IN_RAW j t = fbit DIO_IN_RAW j s ∧ fbit DIO_EDGE_RISE j t = fbit DIO_EDGE_RISE j s ∧ fbit DIO_EDGE_FALL j t = fbit DIO_EDGE_FALL j s) ∧
      rd DIO_OUT_OUT t = rd DIO_OUT_OUT s ∧ t.dio.pulse = s.dio.pulse ∧ Keeps [.dio] s t)) ∧
  (∀ (v : Nat) (s : State), s.pwr.off = false →
    Answers (.doWrite v) s (fun t => (∀ k, k < 8 → fbit DIO_OUT_OUT k t =
        if doubleFaulted s = true ∨ (laneInPermit s = false ∧ stopHeld k s = true) then fbit DIO_OUT_OUT k s else bit v k) ∧
      (laneInPermit s = true → rd DIO_CNT_STOP_REFUSED t = rd DIO_CNT_STOP_REFUSED s) ∧
      (doubleFaulted s = false → laneInPermit s = false → let n := ((List.range 8).filter (fun k => stopHeld k s && bit v k != fbit DIO_OUT_OUT k s)).length
        0 < n → CountsUp DIO_CNT_STOP_REFUSED n s t) ∧ Keeps [.dio] s t)) ∧
  (∀ (k e : Nat) (s : State), k < 8 → s.pwr.off = false → tfind k s.dio.pulse = some e →
    Answers (.doPulseEnd k) s (fun t => (e ≤ s.clk.frc → fbit DIO_OUT_OUT k t = false ∧ ∀ j, j < 8 → j ≠ k → fbit DIO_OUT_OUT j t = fbit DIO_OUT_OUT j s) ∧
      (s.clk.frc < e → t.dio = s.dio) ∧ Keeps [.dio] s t))

/-- While DIO runs with its supply up, overcurrent on an output that is on sets its OVERCURRENT bit, counts, and the output is no longer driven, though DIO_OUT keeps its bit; clearing the bit lets it be driven again, unless a double fault holds an output that is on. An open load sets OPEN and counts; a load again clears it. The supply's fall sets SUPPLY_LOW, counts and keeps every DIO_OUT bit; its return clears SUPPLY_LOW. -/
def Obligations.OutputMonitors : Prop :=
  (∀ (k : Nat) (s : State), k < 8 → dioOn s = true → outLevel k s = true → on DIO_OUT_STAT_SUPPLY_LOW s = false →
    Answers (.doOvercurrent k) s (fun t => fbit DIO_OUT_STAT_OVERCURRENT k t = true ∧ outLevel k t = false ∧ rd DIO_OUT_OUT t = rd DIO_OUT_OUT s ∧
      CountsUp DIO_CNT_OVERCURRENT 1 s t ∧ (∀ j, j < 8 → j ≠ k → outLevel j t = outLevel j s) ∧ Keeps [.dio] s t) ∧
    Answers (.doOpen k true) s (fun t => fbit DIO_OUT_STAT_OPEN k t = true ∧ CountsUp DIO_CNT_OPEN 1 s t ∧ rd DIO_OUT_OUT t = rd DIO_OUT_OUT s ∧ Keeps [.dio] s t) ∧
    Answers (.doOpen k false) s (fun t => fbit DIO_OUT_STAT_OPEN k t = false ∧ (∀ j, j < 8 → j ≠ k → fbit DIO_OUT_STAT_OPEN j t = fbit DIO_OUT_STAT_OPEN j s) ∧ Keeps [.dio] s t)) ∧
  (∀ (k : Nat) (s : State), k < 8 → s.pwr.off = false → fbit DIO_OUT_STAT_OVERCURRENT k s = true →
    Answers (.doOvercurrentClear k) s (fun t => fbit DIO_OUT_STAT_OVERCURRENT k t = (doubleFaulted s && fbit DIO_OUT_OUT k s) ∧ rd DIO_OUT_OUT t = rd DIO_OUT_OUT s ∧ Keeps [.dio] s t)) ∧
  (∀ s : State, dioOn s = true →
    (on DIO_OUT_STAT_SUPPLY_LOW s = false → Answers .outSupplyLow s (fun t => on DIO_OUT_STAT_SUPPLY_LOW t = true ∧ rd DIO_OUT_OUT t = rd DIO_OUT_OUT s ∧ CountsUp DIO_CNT_SUPPLY_LOW 1 s t ∧ Keeps [.dio] s t)) ∧
    (on DIO_OUT_STAT_SUPPLY_LOW s = true → Answers .outSupplyReturn s (fun t => on DIO_OUT_STAT_SUPPLY_LOW t = false ∧ rd DIO_OUT_OUT t = rd DIO_OUT_OUT s ∧ Keeps [.dio] s t)))


/-- With EVT enabled, a write of bit i to EVT_SW pends event 248 + i. CLEAR_ERR empties both records and the overflow count of its block and no other's. Only the steward's 0x5A5A serves the watchdog, whose expiry before 100 ms changes nothing. The steward's first error sets HANDLING and lets it run on; its next, before HANDLING is cleared, is a double fault: EVT_DFAULT says so with the cause, every core stops and the stop lane enters FAULT. -/
def Obligations.EventsAndSteward : Prop :=
  (∀ (v i : Nat) (s : State), s.pwr.off = false → on EVT_CTRL_EN s = true → 1 ≤ i → i ≤ 7 → bit v i = true →
    Answers (.softwareEvent v) s (fun t => Pended (248 + i) t ∧ (∀ e, e < 256 → Pended e s → Pended e t) ∧ Keeps [] s t)) ∧
  (∀ (b : Nat) (s : State), Settled s → b < 31 →
    Answers (.evtClearErr b) s (fun t => (∀ w, w < 7 → rd (EVT_ERR b w) t = 0) ∧ (∀ c w, c ≠ b → w < 7 → rd (EVT_ERR c w) t = rd (EVT_ERR c w) s) ∧
      rd EVT_CMD_RES_STATUS t = 0 ∧ rd EVT_CMD_RES_CMD t = 1 ∧ rd EVT_CMD_RES_ERROR t = 0 ∧ Keeps (if b = 5 then [.ecc] else []) s t)) ∧
  (∀ (n v : Nat) (s : State), Settled s →
    exec (.watchdogKick n v) s = .next { s with out := [], evt := { s.evt with kickAt := if n = 16 ∧ v % 65536 = 0x5A5A then s.clk.frc else s.evt.kickAt } }) ∧
  (∀ s : State, Settled s → s.clk.frc < s.evt.kickAt + 50000000 → exec .stewardWatchdogExpiry s = .next { s with out := [] }) ∧
  (∀ (code detail : Nat) (s : State), stewardUp s = true → code < 65536 → detail < 65536 →
    (on EVT_DFAULT_HANDLING s = false →
      Answers (.stewardError code detail) s (fun t => on EVT_DFAULT_HANDLING t = true ∧ rd EVT_DFAULT_DFAULT t = rd EVT_DFAULT_DFAULT s ∧ Keeps [] s t) ∧
      (s.evt.kickAt + 50000000 ≤ s.clk.frc → Answers .stewardWatchdogExpiry s (fun t => on EVT_DFAULT_HANDLING t = true ∧ t.evt.kickAt = s.clk.frc ∧ Keeps [] s t))) ∧
    (on EVT_DFAULT_HANDLING s = true → doubleFaulted s = false →
      Answers (.stewardError code detail) s (fun t => rd EVT_DFAULT_DFAULT t = 1 ∧ rd EVT_DFAULT_CAUSE t = code ∧ (coreOf 16 t).st = .halted ∧
        rd CCX_CTRL_EN t = 0 ∧ lane t = 4 ∧ doubleFaulted t = true)))

/-- A well-formed program record of class ALARM that EVT takes from its flume is staged with its KIND, SOURCE, ERROR and DATA. A page of 32 staged records the general ring has not had goes to its end once PAGE_MS has passed since the last; staged alarms the alarm ring has not had go there; a page whose programming fails leaves both rings as they were. -/
def Obligations.LedgerRecordsAndArchive : Prop :=
  (∀ (ws : List Word) (s u : State), on EVT_CTRL_EN s = true → on EVT_CTRL_PROG_EN s = true → awake s = true → s.evt.staged.length < 4096 →
    engineTake (rd EVT_CTRL_PROG_FLUME s) { s with out := [] } = (some (ws, true), u) → u.notes = [] → u.evt.staged = s.evt.staged →
    let b := bytesOf ws
    progRecOk b true = true → leAt b 0 1 = 3 →
    Answers .progLedgerRecord s (fun t => (∃ r ∈ t.evt.staged, r.cls = 3 ∧ r.kind = 6 ∧ r.source = 0x200 + leAt b 2 1 ∧ r.error = 0x1E00 + leAt b 2 1 ∧ r.data = slice b 8 24) ∧
      t.flm = u.flm ∧ t.mem = u.mem)) ∧
  (∀ s : State, stewardUp s = true → (genNext s).length = 32 → s.evt.pageAt + 500000 * max 1 (rd EVT_CTRL_PAGE_MS s) ≤ s.clk.frc → s.nv.genRing.length < 64 * genBlocks s →
    Answers (.archivePageWrite true) s (fun t => t.nv = { s.nv with genRing := s.nv.genRing ++ [genNext s] } ∧ Keeps [.nv] s t) ∧
    Answers (.archivePageWrite false) s (fun t => Keeps [] s t)) ∧
  (∀ s : State, stewardUp s = true → s.nv.alarmRing.length < 4096 →
    let l := (s.evt.staged.filter (fun r => r.cls == 3 && !s.evt.alarmDone.contains r.seq)).take 32
    l ≠ [] →
    Answers (.alarmArchive true) s (fun t => t.nv = { s.nv with alarmRing := s.nv.alarmRing ++ [l] } ∧ Keeps [.nv] s t) ∧
    Answers (.alarmArchive false) s (fun t => Keeps [] s t))


/-- On an axis that runs with no limit waiting to trip: HOME of an UNHOMED axis at no latched limit starts a homing, and of a disabled one is refused with 0x1608; SET_POS homes an UNHOMED axis at HOME_OFS, its plan and its pulse count alike; CLEAR_FAULT returns a FAULT whose limits are both free to UNHOMED, and a CHATTER whose limits are quiet to READY or UNHOMED by HOMED; ABORT_HOME ends a homing without HOMED, counted, with cause 0x07. -/
def Obligations.AxisCommands : Prop :=
  ∀ (n : Nat) (s : State), AxisFree n s →
    (homeRef n s ≠ none → axisSt n s = 1 → latchAhead n s = false →
      Answers (.home n) s (fun t => axisSt n t = 2 ∧ (axis n t).home.isSome = true ∧ rd (AXS_POS n) t = rd (AXS_POS n) s ∧ Keeps [.axs] s t)) ∧
    (axisSt n s = 0 → Answers (.home n) s (fun t => Result 22 0 0x10 1 4 0x1608 t ∧ rd AXS_CMD_RES_AXIS t = n ∧ axisSt n t = 0 ∧ t.axs.axes = s.axs.axes ∧ Keeps [.axs] s t)) ∧
    (axisSt n s = 1 → Answers (.setPos n) s (fun t => axisSt n t = 3 ∧ on (AXS_STAT_HOMED n) t = true ∧ Result 22 0 0x10 2 0 0 t ∧
      rd (AXS_POS n) t = enc 32 (pulsesAt n (rdS (AXS_HOME_OFS n) s * fineOf 256) s) ∧
      (∀ c, chan? (256 + n) s = some c → chan? (256 + n) t = some { c with st := rdS (AXS_HOME_OFS n) s * fineOf 256 }) ∧ (∀ m, m ≠ 256 + n → chan? m t = chan? m s) ∧ Keeps [.axs, .pro] s t)) ∧
    (axisSt n s = 6 → qualified (2 * n) s = false → qualified (2 * n + 1) s = false →
      Answers (.clearFault n) s (fun t => axisSt n t = 1 ∧ on (AXS_STAT_HOMED n) t = false ∧ Result 22 0 0x10 3 0 0 t ∧ t.axs.axes = s.axs.axes ∧ Keeps [.axs] s t)) ∧
    (axisSt n s = 5 → quiet (2 * n) s = true → quiet (2 * n + 1) s = true →
      Answers (.clearFault n) s (fun t => axisSt n t = (if on (AXS_STAT_HOMED n) s then 3 else 1) ∧ Result 22 0 0x10 3 0 0 t ∧ t.axs.axes = s.axs.axes ∧ Keeps [.axs] s t)) ∧
    (axisSt n s = 2 → Answers (.abortHome n) s (fun t => axisSt n t = 1 ∧ on (AXS_STAT_HOMED n) t = false ∧ rd (AXS_STAT_CAUSE n) t = 7 ∧
      CountsUp AXS_CNT_HOME_FAIL 1 s t ∧ Result 22 0 0x10 4 0 0 t ∧ Keeps [.axs] s t))

/-- On a READY axis of a running AXS: a limit whose raw state has held tripped for QUAL, the other free, latches, stops the axis's channel, counts and leaves the axis in LIMIT with cause 1; a latched limit quiet and clear unlatches and returns the axis to READY; more raw transitions than CHAT_MAX in the window stop it in CHATTER with cause 2. In a homing the reference, qualifying as active in the search, starts the ramp with the position of its raw edge. A tick records the raw state of every input and, once DIR stands right for its setup time, brings the pulse count to the planned position. -/
def Obligations.AxisInputsAndTick : Prop :=
  (∀ (n l : Nat) (s : State), n < 8 → l < 2 → axsOn s = true → axisSt n s = 3 →
    let i := 2 * n + l
    (settled i s = some true → qualified i s = false → qualified (2 * n + (1 - l)) s = false →
      Answers (.limitTrip n l) s (fun t => axisSt n t = 4 ∧ on (latchBit i) t = true ∧ qualified i t = true ∧ rd (AXS_STAT_CAUSE n) t = 1 ∧ CountsUp AXS_CNT_TRIP 1 s t ∧
        (∀ c, chan? (256 + n) s = some c → chan? (256 + n) t = some { c with mode := .stop }) ∧ Keeps [.axs, .pro] s t)) ∧
    (∀ x, inp? i s = some x → rd AXS_CHAT_CHAT_MAX s < (recentTrans x s).length →
      Answers (.limitChatter n l) s (fun t => axisSt n t = 5 ∧ rd (AXS_STAT_CAUSE n) t = 2 ∧ CountsUp AXS_CNT_CHATTER 1 s t ∧
        (∀ c, chan? (256 + n) s = some c → chan? (256 + n) t = some { c with mode := .stop }) ∧ Keeps [.axs, .pro] s t))) ∧
  (∀ (n l : Nat) (s : State), n < 8 → l < 2 → axsOn s = true → axisSt n s = 4 →
    let i := 2 * n + l
    on (latchBit i) s = true → on (latchBit (2 * n + (1 - l))) s = false → quiet i s = true → isClear i s = true →
    Answers (.limitClear n l) s (fun t => axisSt n t = 3 ∧ on (latchBit i) t = false ∧ qualified i t = false ∧ Keeps [.axs] s t)) ∧
  (∀ (n i : Nat) (x : Inp) (h : Homing) (s : State), n < 8 → axsOn s = true → axisSt n s = 2 → homeRef n s = some i → settled i s = some true → qualified i s = false → inp? i s = some x →
    (axis n s).home = some h → h.stage = 1 → h.ramp = false → axisAtRest n s = false →
    Answers (.homeReference n) s (fun t => (axis n t).home = some { h with ramp := true, cap := x.pos } ∧ qualified i t = true ∧ axisSt n t = 2 ∧ Keeps [.axs] s t)) ∧
  (∀ (raw : Nat) (s : State), axsOn s = true →
    Answers (.axisTick raw) s (fun t => (∀ i, i < 24 → ∃ x, inp? i t = some x ∧ x.closed = bit raw i) ∧
      (on PRO_CTRL_EN s = false → (∀ m, m < 8 → (axis m s).home = none) → ∀ n c, n < 8 → chan? (256 + n) s = some c → axisSt n s ≠ 0 →
        let want := pulsesAt n c.st s
        want ≠ rdS (AXS_POS n) s → (axis n s).dirLow = decide (rdS (AXS_POS n) s < want) → rd (AXS_TIMING_DIR_SETUP n) s ≤ min 1000 ((axis n s).sinceDir + 10) →
        rd (AXS_POS n) t = enc 32 want ∧ (axis n t).sincePulse = 0))) ∧
  (∀ (raw : Nat) (s : State), Settled s → axsOn s = false → exec (.axisTick raw) s = .next { s with out := [] })

/-- A load record that PRO takes whole from its flume, for an open machine channel: an APPEND of segments that pass puts them at the end of its queue; CLEAR at rest empties the queue; HALT with STOP puts it in STOP; RESUME of a member's held or stopped channel, with no stop latched, sets it to RUN. A channel in STOP that moves, with nothing queued, follows the jerk-limited generator to rest through one tick. Enabling a fence holds every open channel whose body overlaps it, and no other. -/
def Obligations.MachineChannels : Prop :=
  (∀ (w : Word) (ws : List Word) (whole : Bool) (c : Chan) (s u : State), on PRO_CTRL_EN s = true → awake s = true →
    let f := rd PRO_FLUME_LOAD s
    enginePeek f { s with out := [] } = some w → engineTake f { s with out := [] } = (some (ws, whole), u) →
    let l := loadOf ws whole
    w.toNat % 256 = l.op → l.ok = true → l.chn < 256 → chan? l.chn u = some c →
    (l.op = 1 → appendCause l.chn c l.segs (count PRO_CNT_LOAD 1 u) = 0 →
      Answers .proAppend s (fun t => ∃ d, chan? l.chn t = some d ∧ d.queue = c.queue ++ l.segs ∧ ∀ m, m ≠ l.chn → chan? m t = chan? m u)) ∧
    (l.op = 2 → atRest { v := c.v, a := c.a } = true →
      Answers .proClear s (fun t => chan? l.chn t = some { c with queue := [] } ∧ ∀ m, m ≠ l.chn → chan? m t = chan? m u)) ∧
    (l.op = 3 → l.arg = 1 → Answers .proHalt s (fun t => chan? l.chn t = some { c with mode := .stop } ∧ ∀ m, m ≠ l.chn → chan? m t = chan? m u)) ∧
    (l.op = 4 → (c.mode = .hold ∨ c.mode = .stop) → stopLatched u = false → isMember l.chn u = true → c.hpl = 0xFFFF →
      Answers .proResume s (fun t => chan? l.chn t = some { c with mode := .run } ∧ ∀ m, m ≠ l.chn → chan? m t = chan? m u))) ∧
  (∀ (m : Nat) (c : Chan) (s : State), proOn s = true → s.held = [] → m < 256 → s.pro.chans.filter (fun p => p.1 == m) = [(m, c)] → c.mode = .stop → c.queue = [] → c.v ≠ 0 →
    regLimits m s = (c.aUse, c.dUse, c.jUse, c.dsUse, c.jsUse) → c.deferred = false →
    Answers .proTick s (fun t => ∃ d, chan? m t = some d ∧
      let a2 := steerTo (1000 * c.aUse) (1000 * c.dsUse) c.jsUse c.v c.a 0
      d.v = c.v + c.a + a2 ∧ d.a = a2 ∧ d.st = c.st + (3 * c.v + 2 * c.a + a2) * sg c.dir ∧ d.mode = .stop ∧ d.queue = [])) ∧
  (∀ (f : Nat) (s : State), f < 64 →
    Answers (.fenceEnable f) s (fun t => on (PRO_FENCE_CTRL_EN f) t = true ∧ Keeps [.pro] s t ∧
      ∀ m c, m < 256 → chan? m s = some c →
        let o := ownerOf m s
        let x := c.st / fineSt
        let front := if c.dir = 0 then x + frontOf o s else x + rearOf o s
        let rear := if c.dir = 0 then x - rearOf o s else x - frontOf o s
        chan? m t = some (if c.reach = some (rd (PRO_FENCE_CTRL_REACH f) s) ∧ rear ≤ rdS (PRO_FENCE_TO f) s ∧ rdS (PRO_FENCE_FROM f) s ≤ front ∧ c.mode ≠ .stop
          then { c with mode := .hold } else c)))


/-- Enabling a CAN port whose timing lies in range puts it into the mode its request and SLEEP say with both error counts 0, and a port whose timing does not is left as it is; disabling clears every pending mailbox and the port's state. SLEEP set and a wake-up pattern move it to SLEEP and back to NORMAL. RECOVER on a BUS_OFF port starts recovery, which its end completes with both counts 0; on any other port it is refused. DWELL over at a candidate rate moves on to the next of eight. -/
def Obligations.CanModes : Prop :=
  ∀ (p : Nat) (s : State), p < 2 →
    (on (CAN_CTRL_EN p) s = false → timingOk p s = true →
      Answers (.canEnable p) s (fun t => on (CAN_CTRL_EN p) t = true ∧
        canMode p t = (if on (CAN_CTRL_SLEEP p) s then 4 else if rd (CAN_CTRL_REQ_MODE p) s = 1 then 2 else if rd (CAN_CTRL_REQ_MODE p) s = 2 then 3 else 1) ∧
        tecOf p t = 0 ∧ recOf p t = 0 ∧ rd (CAN_STATUS_RATE_LOCKED p) t = 0 ∧ canPort (1 - p) t = canPort (1 - p) s ∧ Keeps [.can] s t)) ∧
    (on (CAN_CTRL_EN p) s = false → timingOk p s = false → Answers (.canEnable p) s (fun t => Keeps [] s t)) ∧
    (∀ b, on (CAN_CTRL_EN p) s = true →
      Answers (.canDisable p b) s (fun t => on (CAN_CTRL_EN p) t = false ∧ canMode p t = 0 ∧ canPort p t = {} ∧ (∀ n, n < 64 → on (CAN_MB_CTRL_PEND p n) t = false) ∧
        canPort (1 - p) t = canPort (1 - p) s ∧ Keeps [.can, .mem, .ecc, .flm] s t)) ∧
    Answers (.canSleep p) s (fun t => on (CAN_CTRL_SLEEP p) t = true ∧ canMode p t = (if on (CAN_CTRL_EN p) s then 4 else canMode p s) ∧ t.can.ports = s.can.ports ∧ Keeps [.can] s t) ∧
    (∀ idw data err, canMode p s = 4 → rd (CAN_CTRL_WAKE_MODE p) s = 1 →
      Answers (.canWake p idw data true err) s (fun t => on (CAN_CTRL_SLEEP p) t = false ∧ canMode p t = 1 ∧ t.can.ports = s.can.ports ∧ Keeps [.can] s t)) ∧
    (canMode p s = 5 → (canPort p s).recovering = false →
      Answers (.recover p) s (fun t => (canPort p t) = { canPort p s with recovering := true } ∧ canMode p t = 5 ∧ Result 18 p 0x14 1 0 0 t ∧ Keeps [.can] s t)) ∧
    (canMode p s ≠ 5 → Answers (.recover p) s (fun t => t.can.ports = s.can.ports ∧ canMode p t = canMode p s ∧ Result 18 p 0x14 1 4 (0x12F4 + 0x100 * p) t ∧ Keeps [.can] s t)) ∧
    (canMode p s = 5 → (canPort p s).recovering = true →
      Answers (.busOffRecovery p) s (fun t => canMode p t = 1 ∧ tecOf p t = 0 ∧ recOf p t = 0 ∧ canPort p t = { canPort p s with recovering := false } ∧ Keeps [.can] s t)) ∧
    (on (CAN_CTRL_EN p) s = true → awake s = true → canMode p s = 3 →
      Answers (.rateDwell p) s (fun t => canPort p t = { canPort p s with cand := ((canPort p s).cand + 1) % 8, good := 0 } ∧ canMode p t = 3 ∧ Keeps [.can] s t))

/-- A mailbox whose format the port allows is pended and one whose format it does not allow ends REFUSED at once; an ABORT of one not on the bus ends it CANCELLED, and one on the bus is only marked. The offered frame, sent, goes out as its mailbox says, ends the mailbox DONE and counts; a lost arbitration leaves it pending; an error frame adds 8 to the transmit error count. A good frame counts; without a filter that accepts it it counts as unmatched and reaches no flume; with one whose ACTION is 0 its record is pushed into flume RXA. -/
def Obligations.CanFrames : Prop :=
  ∀ (p n : Nat) (s : State), p < 2 → n < 64 →
    (on (CAN_MB_CTRL_PEND p n) s = false → on (CAN_MB_CTRL_FDF p n) s = true → on (CAN_CTRL_FD_EN p) s = true →
      Answers (.mailboxPend p n) s (fun t => on (CAN_MB_CTRL_PEND p n) t = true ∧ (∀ m, m < 64 → m ≠ n → on (CAN_MB_CTRL_PEND p m) t = on (CAN_MB_CTRL_PEND p m) s) ∧ Keeps [.can] s t)) ∧
    (on (CAN_MB_CTRL_PEND p n) s = false → on (CAN_MB_CTRL_FDF p n) s = true → on (CAN_CTRL_FD_EN p) s = false →
      Answers (.mailboxPend p n) s (fun t => on (CAN_MB_CTRL_PEND p n) t = false ∧ rd (CAN_MB_CTRL_STATUS p n) t = 4 ∧ Keeps [.can, .mem, .ecc, .flm] s t)) ∧
    (on (CAN_MB_CTRL_PEND p n) s = true →
      Answers (.mailboxAbort p n false) s (fun t => on (CAN_MB_CTRL_PEND p n) t = false ∧ rd (CAN_MB_CTRL_STATUS p n) t = 2 ∧
        Pushes (rd (CAN_FLUME_DONE p) s) (leBytes 1 2 ++ leBytes 1 n ++ leBytes 2 (0x1202 + 0x100 * p) ++ leBytes 4 (rd (CAN_MB_TAG p n) s) ++ leBytes 4 (claimTime s) ++ leBytes 4 0) s t ∧
        Keeps [.can, .mem, .ecc, .flm] s t) ∧
      (mbOffer p s = some n → Answers (.mailboxAbort p n true) s (fun t => on (CAN_MB_CTRL_PEND p n) t = true ∧ on (CAN_MB_CTRL_ABORT p n) t = true ∧ Keeps [.can] s t))) ∧
    (canUp p s = true → canMode p s = 1 → (canPort p s).express = [] → mbOffer p s = some n →
      Answers (.mailboxEnd p 0) s (fun t => on (CAN_MB_CTRL_PEND p n) t = false ∧ rd (CAN_MB_CTRL_STATUS p n) t = 0 ∧ CountsUp (CAN_CNT_TX_OK p) 1 s t ∧
        Emit.can p (rd (CAN_MB_ID_ID p n) s) (on (CAN_MB_ID_IDE p n) s) (mbData p n s) ∈ t.out ∧ Keeps [.can, .mem, .ecc, .flm] s t) ∧
      (on (CAN_MB_CTRL_ABORT p n) s = false →
        Answers (.mailboxEnd p 1) s (fun t => on (CAN_MB_CTRL_PEND p n) t = on (CAN_MB_CTRL_PEND p n) s ∧ CountsUp (CAN_CNT_ARB_LOST p) 1 s t ∧ tecOf p t = tecOf p s ∧ Keeps [.can] s t) ∧
        Answers (.mailboxEnd p 2) s (fun t => on (CAN_MB_CTRL_PEND p n) t = on (CAN_MB_CTRL_PEND p n) s ∧ CountsUp (CAN_CNT_ERR_FRAME p) 1 s t ∧ tecOf p t = min 255 (tecOf p s + 8) ∧ Keeps [.can] s t))) ∧
    (∀ idw fmt data age, on (CAN_CTRL_EN p) s = true → awake s = true → canMode p s = 1 →
      ((∀ f, f < 128 → fltAccepts p f idw s = false) →
        Answers (.canFrameRx p idw fmt data false age) s (fun t => CountsUp (CAN_CNT_RX_OK p) 1 s t ∧ CountsUp (CAN_CNT_RX_UNMATCHED p) 1 s t ∧ recOf p t = min 255 (recOf p s - 1) ∧ Keeps [.can] s t)) ∧
      (∀ f, (List.range 128).find? (fun f => fltAccepts p f idw s) = some f → rd (CAN_FLT_CTRL_ACTION p f) s = 0 → s.clk.siteSet = false →
        Answers (.canFrameRx p idw fmt data false age) s (fun t => CountsUp (CAN_CNT_RX_OK p) 1 s t ∧
          Pushes (rd (CAN_FLUME_RXA p) s) (leBytes 4 (idw % 2 ^ 31) ++ leBytes 1 (fmt % 128) ++ leBytes 1 f ++ leBytes 1 data.length ++ leBytes 1 0 ++ leBytes 8 0 ++ data) s t ∧
          Keeps [.can, .mem, .ecc, .flm] s t)))

/-- On a serial port that runs, a gap-delimited frame of the right length without CRC is counted and pushed with its length, a zero cause and its characters; a parity error counts apart and its record carries cause 1. A whole transmit record of a fitting length waits; once the line has been idle for TURN it goes out, with its CRC where one is asked for, and nothing waits any more. -/
def Obligations.SerialPorts : Prop :=
  ∀ (p : Nat) (s : State), p < 2 → serOn p s = true →
    (∀ cs age, on (SER_CTRL_RX_EN p) s = true → on (SER_CTRL_CRC p) s = false → rd (SER_FRAME_MODE p) s = 0 → cs.length ≤ serMax p s → s.clk.siteSet = false →
      Answers (.serFrameRx p cs 0 age) s (fun t => CountsUp (SER_CNT_RX_OK p) 1 s t ∧
        Pushes (rd (SER_FLUME_RX p) s) (leBytes 2 cs.length ++ leBytes 1 0 ++ leBytes 1 0 ++ leBytes 4 0 ++ cs.map (BitVec.ofNat 8)) s t ∧ Keeps [.ser, .mem, .ecc, .flm] s t) ∧
      Answers (.serFrameRx p cs 1 age) s (fun t => CountsUp (SER_CNT_PARITY p) 1 s t ∧
        Pushes (rd (SER_FLUME_RX p) s) (leBytes 2 cs.length ++ leBytes 1 1 ++ leBytes 1 1 ++ leBytes 4 0 ++ cs.map (BitVec.ofNat 8)) s t ∧ Keeps [.ser, .mem, .ecc, .flm] s t)) ∧
    (∀ ws u, tfind p s.ser.wait = none → engineTake (rd (SER_FLUME_TX p) s) { s with out := [] } = (some (ws, true), u) → u.ser = s.ser →
      let b := bytesOf ws
      let len := leAt b 0 2
      0 < len → len ≤ serMax p s → ws.length = 1 + (len + 7) / 8 →
      Answers (.serTxRecord p) s (fun t => tfind p t.ser.wait = some (slice b 8 len) ∧ t.flm = u.flm ∧ t.mem = u.mem)) ∧
    (∀ b, tfind p s.ser.wait = some b → on (SER_CTRL_TX_EN p) s = true →
      Answers (.serTxStart p) s (fun t => tfind p t.ser.wait = none ∧ Emit.ser p (if on (SER_CTRL_CRC p) s then b ++ leBytes 2 (crc16 b) else b) ∈ t.out ∧
        CountsUp (SER_CNT_TX_OK p) 1 s t ∧ Keeps [.ser, .mem, .ecc, .flm] s t))


/-- On an Ethernet port that runs with a link, a runt is counted and nothing else; a whole untagged frame of right length and check sequence whose address passes is counted and, with its ring enabled and cells free, stored in the ring of its priority a cell for every 256 bytes; with the ring disabled it is dropped and counted. RING_RETURN frees the oldest cells of its ring. A read of the stamp queue takes the oldest stamp into the registers. -/
def Obligations.EthernetReceive : Prop :=
  (∀ (p age : Nat) (b : List Byte) (s : State), p < 4 → ethOn p s = true → on (ETH_CTRL_RX_EN p) s = true → on (ETH_STATUS_LINK p) s = true → s.held = [] →
    (b.length < 64 → Answers (.ethFrameRx p b 0 0 age) s (fun t => EthCounts p 12 1 s t ∧ t.eth.rings = s.eth.rings ∧ t.eth.used = s.eth.used ∧ Keeps [.eth] s t)) ∧
    (let f := b.take (b.length - 4)
     let r := bits (rd (ETH_RX_MAP_RING p) s) (2 * rd (ETH_CTRL_DEFAULT_PCP p) s) 2
     let k := (pieces 8 f).length
     64 ≤ b.length → b.length ≤ 1522 → crc32 f = leAt b (b.length - 4) 4 → ofBe (slice b 12 2) ≠ 0x8808 → ofBe (slice b 12 2) ≠ 0x8100 → addrPasses p (b.take 6) s = true → forPtc p f s = false →
     (on (ETH_RING_CTRL_EN p r) s = true → k ≤ ringReady p r s → k ≤ poolFree s →
       Answers (.ethFrameRx p b 0 0 age) s (fun t => EthCounts p 1 1 s t ∧ EthCounts p 0 b.length s t ∧ EthCounts p (16 + r) 1 s t ∧
         (∃ cells, (ring p r t).cells = (ring p r s).cells ++ cells ∧ cells.length = k) ∧ t.eth.used.length = s.eth.used.length + k ∧ Keeps [.eth, .mem, .ecc, .flm] s t)) ∧
     (on (ETH_RING_CTRL_EN p r) s = false →
       Answers (.ethFrameRx p b 0 0 age) s (fun t => EthCounts p 14 1 s t ∧ t.eth.rings = s.eth.rings ∧ t.eth.used = s.eth.used ∧ Keeps [.eth] s t)))) ∧
  (∀ (p r n : Nat) (s : State), p < 4 → r < 4 →
    Answers (.ringReturn p r n) s (fun t => (ring p r t).cells = (ring p r s).cells.drop n ∧
      t.eth.used = s.eth.used.filter (fun c => !((ring p r s).cells.take n).contains c) ∧ (∀ q, q ≠ 4 * p + r → tfind q t.eth.rings = tfind q s.eth.rings) ∧ Keeps [.eth] s t)) ∧
  (∀ (p : Nat) (s : State), p < 4 →
    ((ethPort p s).stamps = [] → Answers (.tsqPop p) s (fun t => on (ETH_TSQ_0_VALID p) t = false ∧ t.eth.ports = s.eth.ports ∧ Keeps [.eth] s t)) ∧
    (∀ e l, (ethPort p s).stamps = e :: l →
      Answers (.tsqPop p) s (fun t => on (ETH_TSQ_0_VALID p) t = true ∧ rd (ETH_TSQ_0_QUEUE p) t = e.queue % 8 ∧ rd (ETH_TSQ_0_SEQ p) t = e.seq % 65536 ∧ rd (ETH_TSQ p 0) t = e.tag % 2 ^ 32 ∧
        rd64 (ETH_TSQ p 1) (ETH_TSQ p 2) t = e.port % 2 ^ 64 ∧ rd64 (ETH_TSQ p 3) (ETH_TSQ p 4) t = e.site % 2 ^ 64 ∧ ethPort p t = { ethPort p s with stamps := l } ∧ Keeps [.eth] s t)))

/-- On an Ethernet port that runs, with no word in error: KICK hands its queue to the port; a port that is idle with a link starts the head frame of the highest queue that has one the gates let go, puts it on the wire and moves HEAD past it; the end of a frame sent writes its status, stamp, tag and time into its descriptor and nothing else; a flush cancels the frame that stands in its queue with 0x05 in its descriptor, and an empty queue's flush is done at once. -/
def Obligations.EthernetTransmit : Prop :=
  ∀ (p q : Nat) (s : State), p < 4 → q < 8 → ethOn p s = true → ErrorFree s → s.held = [] →
    (on (ETH_TXQ_CTRL_EN p q) s = true →
      Answers (.txqKick p q) s (fun t => q ∈ (ethPort p t).kicked ∧ (∀ r, r ∈ (ethPort p s).kicked → r ∈ (ethPort p t).kicked) ∧ (ethPort p t).wire = (ethPort p s).wire ∧ Keeps [.eth] s t)) ∧
    (∀ c, on (ETH_CTRL_TX_EN p) s = true → on (ETH_STATUS_LINK p) s = true → (ethPort p s).wire = none → (∀ r, q < r → r < 8 → headFrame p r s = []) →
      headFrame p q s = c → c ≠ [] → chainOk c = true → gateFit p q (chainLen c) s = 0 →
      Answers (.ethFrameTx p) s (fun t => (∃ w, (ethPort p t).wire = some w ∧ w.queue = q ∧ w.descs = c.map Prod.fst ∧ w.tag = chainTag c ∧ w.err = 0) ∧
        (∃ b, Emit.eth p (siteNs s) b ∈ t.out) ∧ EthCounts p 25 1 s t ∧
        rd (ETH_TXQ_STATUS_HEAD p q) t = ((c.map Prod.fst).getLast?.getD 0 + 1) % txqSize p q s ∧ Keeps [.eth] s t)) ∧
    (∀ w i, (ethPort p s).wire = some w → w.queue = q → w.err = 0 → w.descs = [i] → on (ETH_TXQ_CTRL_NOTE_EN p q) s = false →
      let a := descAddr p q i s
      Answers (.ethTxWriteback p 0 0 0) s (fun t => (ethPort p t).wire = none ∧
        bytesAt t.mem a 16 = leBytes 1 0 ++ leBytes 1 (2 * b2n w.stamp.isSome + 4 * b2n w.lost) ++ leBytes 2 0 ++ leBytes 2 (w.stamp.getD 0) ++ leBytes 2 0 ++ leBytes 4 w.tag ++ leBytes 4 (claimTime s) ∧
        (∀ x, x < a ∨ a + 16 ≤ x → byteAt t.mem x = byteAt s.mem x) ∧ Keeps [.eth, .mem] s t)) ∧
    (headFrame p q s = [] → Answers (.flushTxq p q) s (fun t => Result 13 p 0x2C 3 0 0 t ∧ t.eth.ports = s.eth.ports ∧ Keeps [.eth] s t)) ∧
    (∀ i d, headFrame p q s = [(i, d)] → (∀ j, j < txqSize p q s → j ≠ i → descOwn (bytesAt s.mem (descAddr p q j s) 16) = false) → on (ETH_TXQ_CTRL_NOTE_EN p q) s = false →
      let a := descAddr p q i s
      Answers (.flushTxq p q) s (fun t => Result 13 p 0x2C 3 0 0 t ∧ EthCounts p 42 1 s t ∧
        bytesAt t.mem a 16 = leBytes 1 2 ++ leBytes 1 0 ++ leBytes 2 (0x0D05 + 0x100 * p) ++ leBytes 2 0 ++ leBytes 2 0 ++ leBytes 4 (leAt d 8 4) ++ leBytes 4 (claimTime s) ∧
        (∀ x, x < a ∨ a + 16 ≤ x → byteAt t.mem x = byteAt s.mem x) ∧ Keeps [.eth, .mem] s t))

/-- On an Ethernet port that runs: a link comes up at its speed and, lost, leaves nothing on the wire and counts; a partner of half duplex only changes no link; RESTART_AN drops the link, but is refused on E3; VERIFY begins verification on a linked port that preempts, and its end says whether it succeeded. GCL_SWITCH of a valid list arms it at its base or a whole number of cycles after, an empty one is refused, and at the armed instant the banks change over. E3, a PLCA follower, falls back on a lost beacon and returns on the next. -/
def Obligations.EthernetLinksAndGates : Prop :=
  ∀ (p : Nat) (s : State), p < 4 → ethOn p s = true →
    (∀ speed, p < 3 → Answers (.linkChange p true false speed) s (fun t => on (ETH_STATUS_LINK p) t = true ∧ rd (ETH_STATUS_SPEED p) t = max 1 (min 3 speed) ∧ t.eth.ports = s.eth.ports ∧ Keeps [.eth] s t)) ∧
    (∀ speed half, on (ETH_STATUS_LINK p) s = true → (half = false ∨ p = 3) → Answers (.linkChange p false half speed) s (fun t => on (ETH_STATUS_LINK p) t = false ∧ rd (ETH_STATUS_PREEMPT p) t = 0 ∧ rd (ETH_STATUS_VERIFY p) t = 1 ∧
      (ethPort p t).wire = none ∧ EthCounts p 43 1 s t ∧ Keeps [.eth, .mem, .ecc, .flm] s t)) ∧
    (∀ up speed, p < 3 → Answers (.linkChange p up true speed) s (fun t => rd (ETH_STATUS_LINK p) t = rd (ETH_STATUS_LINK p) s ∧ EthCounts p 43 1 s t ∧ t.eth.ports = s.eth.ports ∧ Keeps [.eth] s t)) ∧
    (p ≠ 3 → Answers (.restartAn p) s (fun t => on (ETH_STATUS_LINK p) t = false ∧ Result 13 p 0x2C 1 0 0 t ∧ Keeps [.eth, .mem, .ecc, .flm] s t)) ∧
    (p = 3 → Answers (.restartAn p) s (fun t => rd (ETH_STATUS_LINK p) t = rd (ETH_STATUS_LINK p) s ∧ Result 13 p 0x2C 1 4 0x10F4 t ∧ t.eth.ports = s.eth.ports ∧ Keeps [.eth] s t)) ∧
    (on (ETH_STATUS_LINK p) s = true → on (ETH_PREEMPT_EN p) s = true →
      Answers (.ethVerify p) s (fun t => rd (ETH_STATUS_VERIFY p) t = 2 ∧ rd (ETH_STATUS_PREEMPT p) t = 0 ∧ Result 13 p 0x2C 2 0 0 t ∧ t.eth.ports = s.eth.ports ∧ Keeps [.eth] s t)) ∧
    (∀ ok, rd (ETH_STATUS_VERIFY p) s = 2 →
      Answers (.verifyComplete p ok) s (fun t => rd (ETH_STATUS_VERIFY p) t = (if ok then 3 else 4) ∧ rd (ETH_STATUS_PREEMPT p) t = b2n ok ∧ EthCounts p (if ok then 32 else 33) 1 s t ∧ Keeps [.eth] s t)) ∧
    (rd (ETH_GCL_CTRL_LEN p) s = 0 → Answers (.gclSwitch p) s (fun t => Result 13 p 0x2C 4 4 (0x0D09 + 0x100 * p) t ∧ t.eth.ports = s.eth.ports ∧ Keeps [.eth] s t)) ∧
    (∀ e, e < min 256 (rd (ETH_GCL_CTRL_LEN p) s) → 1000 ≤ rd (ETH_GCL_CYCLE p) s → entryNs p (1 - rd (ETH_GCL_CTRL_OPER p) s) e s ≠ 0 →
      Answers (.gclSwitch p) s (fun t => Result 13 p 0x2C 4 0 0 t ∧ on (ETH_GCL_CTRL_PENDING p) t = true ∧ (ethPort p t).gate = (ethPort p s).gate ∧ Keeps [.eth] s t ∧
        ∃ g at_, (ethPort p t).armed = some (g, at_) ∧ g.base = rd64 (ETH_GCL_BASE_LO p) (ETH_GCL_BASE_HI p) s ∧ g.cycle = rd (ETH_GCL_CYCLE p) s ∧ g.len = min 256 (rd (ETH_GCL_CTRL_LEN p) s) ∧
          g.port = on (ETH_GCL_CTRL_TBASE p) s ∧ g.base ≤ at_ ∧ (at_ - g.base) % g.cycle = 0)) ∧
    (∀ g at_, (ethPort p s).armed = some (g, at_) → (at_ : Int) ≤ gateTime g.port s →
      Answers (.gclChange p) s (fun t => ethPort p t = { ethPort p s with armed := none, gate := some g } ∧ rd (ETH_GCL_CTRL_OPER p) t = 1 - rd (ETH_GCL_CTRL_OPER p) s ∧
        on (ETH_GCL_CTRL_PENDING p) t = false ∧ EthCounts p 46 1 s t ∧ Keeps [.eth] s t)) ∧
    (p = 3 → rd (ETH_STATUS_PLCA 3) s = 2 → Answers .plcaBeaconLost s (fun t => rd (ETH_STATUS_PLCA 3) t = 3 ∧ EthCounts 3 45 1 s t ∧ Keeps [.eth] s t)) ∧
    (p = 3 → rd (ETH_STATUS_PLCA 3) s = 3 → Answers .plcaBeaconReturn s (fun t => rd (ETH_STATUS_PLCA 3) t = 2 ∧ t.eth.ports = s.eth.ports ∧ Keeps [.eth] s t))

/-- PTC on a port it uses: a malformed message is counted and changes no port; a two-step Sync from the followed master is kept for its Follow_Up; a MASTER sends its Sync and a SLAVE its delay request under the next sequence number. A SLAVE that has heard no Sync for three intervals forgets its master, counted. STEP_PORT moves port time by the signed step, but not under a SLAVE. RESELECT without any foreign master names the module itself grandmaster. The second pulse goes out at the whole second, and an edge in is stamped and counted. -/
def Obligations.NetworkTime : Prop :=
  (∀ (p age : Nat) (b : List Byte) (s : State), p < 4 → ptcOn s = true → ptcUses p s = true → ethOn p s = true →
    (msgOk b = false → Answers (.ptpMessage p b age) s (fun t => CountsUp PTC_CNT_MSG_BAD 1 s t ∧ t.ptc.ports = s.ptc.ports ∧ t.clk = s.clk)) ∧
    (∀ f, msgOk b = true → leAt b 4 1 = rd PTC_CTRL_DOMAIN s → msgType b = 0 → twoStepFlag b = true → (ptpPort p s).foreign = some f → f.sender = msgSender b → (ptpState p s = 4 ∨ ptpState p s = 5) →
      Answers (.ptpMessage p b age) s (fun t => CountsUp PTC_CNT_SYNC_RX 1 s t ∧
        ptpPort p t = { ptpPort p s with sync := s.clk.frc, twoStep := some (msgSeq b, (stampAt age (-(rdS (ETH_PHY_ADJ_RX_ADJ p) s)) s).1, msgCorr b) } ∧ t.clk = s.clk)) ∧
    (on (ETH_STATUS_LINK p) s = true →
      (ptpState p s = 2 → on PTC_CTRL_ONE_STEP s = true →
        Answers (.ptpMessageTx p 0) s (fun t => CountsUp PTC_CNT_SYNC_TX 1 s t ∧ ptpPort p t = { ptpPort p s with seqs := ((ptpPort p s).seqs + 1) % 65536 } ∧ (∃ m, Emit.ptp p m ∈ t.out ∧ msgType m = 0) ∧ Keeps [.ptc] s t)) ∧
      (ptpState p s = 5 → peerDelay s = false →
        Answers (.ptpMessageTx p 2) s (fun t => ptpPort p t = { ptpPort p s with req := some ((ptpPort p s).seqs, txNow p s), seqs := ((ptpPort p s).seqs + 1) % 65536 } ∧
          (∃ m, Emit.ptp p m ∈ t.out ∧ msgType m = 1) ∧ Keeps [.ptc] s t)))) ∧
  (∀ (p : Nat) (s : State), slavePort s = some p → ptcOn s = true → 3 * logTicks (rd PTC_INTERVAL_LOG_SYNC s) ≤ s.clk.frc - (ptpPort p s).sync →
    Answers .masterLost s (fun t => ptpPort p t = { ptpPort p s with foreign := none, twoStep := none, req := none, pResp := none } ∧ CountsUp PTC_CNT_MASTER_LOST 1 s t)) ∧
  (∀ s : State, on PTC_CTRL_EN s = true →
    (slavePort s = none → Answers .stepPort s (fun t => t.clk = { s.clk with portOfs := s.clk.portOfs + sgn 64 (rd64 PTC_STEP_LO PTC_STEP_HI s) * 2 ^ 32 } ∧
      CountsUp PTC_CNT_PORT_STEP 1 s t ∧ Result 17 0 0x4C 1 0 0 t)) ∧
    (slavePort s ≠ none → Answers .stepPort s (fun t => t.clk = s.clk ∧ Result 17 0 0x4C 1 4 0x1107 t)) ∧
    (awake s = true → (∀ p, p < 4 → (ptpPort p s).foreign = none) →
      Answers .reselect s (fun t => Result 17 0 0x4C 2 0 0 t ∧ rd PTC_GM_ID_LO t = rd STW_EUI_LO s % 2 ^ 32 ∧ rd PTC_GM_ID_HI t = rd STW_EUI_HI s % 2 ^ 32 ∧ t.clk = s.clk))) ∧
  (∀ s : State, s.pwr.off = false →
    (s.clk.siteSet = true → Answers .ppsOut s (fun t => Emit.pps (siteNs s - siteNs s % 1000000000) ∈ t.out ∧ Keeps [] s t)) ∧
    ∀ age, Answers (.ppsinEdge age) s (fun t => rd PTC_PPSIN_CNT t = (rd PTC_PPSIN_CNT s + 1) % 2 ^ 32 ∧ rd64 PTC_PPSIN_LO PTC_PPSIN_HI t = (siteNs s - age) % 2 ^ 64 ∧ Keeps [.ptc] s t))


/-- A presence opens a window of 120 s, counted, unless the sensor is STUCK; its end closes it and not before; a presence of 30 s ends it and sets STUCK, which 2 s of absence clear. CLOSE_WINDOW closes an open window and is refused without one. A health failure of the random generator bars new broadcast keys until a pass; ROTATE_BKEY makes a key under the next KEY_ID, keeps the former one and queues it for every member. DEBUG_ENABLE needs an open window and the lane out of PERMIT, and is counted as refused without a window. -/
def Obligations.PresenceAndKeys : Prop :=
  ∀ s : State, s.pwr.off = false →
    (on KEY_PRESENCE_STUCK s = false →
      Answers .presenceOpen s (fun t => t.key.window = some (s.clk.frc + 60000000000, siteNs s + 120000000000) ∧ on KEY_PRESENCE_OPEN t = true ∧ rd KEY_PRESENCE_REMAIN t = 120 ∧
        CountsUp KEY_CNT_PRESENCE 1 s t ∧ windowOpen t = true ∧ Keeps [.key] s t)) ∧
    (∀ w f, s.key.window = some w → w.1 ≤ s.clk.frc → Answers (.presenceClose f) s (fun t => t.key.window = none ∧ on KEY_PRESENCE_OPEN t = false ∧ on KEY_PRESENCE_FIELD t = f ∧ Keeps [.key] s t)) ∧
    (∀ f, windowOpen s = true → Answers (.presenceClose f) s (fun t => t.key.window = s.key.window ∧ on KEY_PRESENCE_FIELD t = f ∧ Keeps [.key] s t)) ∧
    (on KEY_PRESENCE_STUCK s = false →
      Answers (.presenceStuck true) s (fun t => on KEY_PRESENCE_STUCK t = true ∧ t.key.window = none ∧ CountsUp KEY_CNT_STUCK 1 s t ∧ Keeps [.key] s t)) ∧
    Answers (.presenceStuck false) s (fun t => on KEY_PRESENCE_STUCK t = false ∧ t.key.window = s.key.window ∧ Keeps [.key] s t) ∧
    (windowOpen s = true → Answers .closeWindow s (fun t => t.key.window = none ∧ on KEY_PRESENCE_OPEN t = false ∧ Result 26 0 0x10 3 0 0 t ∧ Keeps [.key] s t)) ∧
    (windowOpen s = false → Answers .closeWindow s (fun t => t.key.window = s.key.window ∧ Result 26 0 0x10 3 4 0x1AF4 t ∧ Keeps [.key] s t)) ∧
    Answers .drbgHealthFail s (fun t => on KEY_STATUS_DRBG_OK t = false ∧ CountsUp KEY_CNT_DRBG_FAIL 1 s t ∧ t.key.bkey = s.key.bkey ∧ Keeps [.key] s t) ∧
    Answers .drbgHealthPass s (fun t => on KEY_STATUS_DRBG_OK t = true ∧ t.key.bkey = s.key.bkey ∧ Keeps [.key] s t) ∧
    (on KEY_STATUS_DRBG_OK s = false → Answers .rotateBkey s (fun t => t.key.bkey = s.key.bkey ∧ Result 26 0 0x10 1 4 0x1A0A t ∧ Keeps [.key] s t)) ∧
    (on KEY_STATUS_DRBG_OK s = true →
      Answers .rotateBkey s (fun t => (∃ k, t.key.bkey = some (match s.key.bkey with | some b => (b.1 + 1) % 256 | none => 0, k)) ∧ t.key.bprev = s.key.bkey ∧ t.key.rotated = siteNs s ∧
        Result 26 0 0x10 1 0 0 t ∧ (∀ p ∈ s.air.idx, p.2.st = .member → ∃ i ∈ t.air.items, i.target = p.1 ∧ i.kind = .key) ∧ Keeps [.key, .air] s t)) ∧
    (windowOpen s = true → on STP_STATUS_PERMIT s = false →
      Answers .keyDebugEnable s (fun t => on KEY_STATUS_DEBUG t = true ∧ on KEY_STATUS_TEST_ROOT t = true ∧ Result 26 0 0x10 2 0 0 t ∧ t.key.window = s.key.window ∧ Keeps [.key] s t)) ∧
    (windowOpen s = false →
      Answers .keyDebugEnable s (fun t => rd KEY_STATUS_DEBUG t = rd KEY_STATUS_DEBUG s ∧ CountsUp KEY_CNT_GATE_REFUSED 1 s t ∧ Result 26 0 0x10 2 4 0x1AF0 t ∧ Keeps [.key] s t))


/-- With no word in error: a store to the reach or ford table in RUN is discarded and counted, and in LOAD changes those bytes and no others. MAP_LOAD of a map that passes every check enters RUN, one that fails a check stays in LOAD with the check recorded. MAP_UNLOAD returns to LOAD only when no claim is held. Clearing EN empties the claim table and the paths. At a tick the one claim held, ACTIVE, past its leave time and never reported clear, becomes OVERDUE, counted, its leave time HEADWAY ahead. -/
def Obligations.ClaimEngineStates : Prop :=
  ∀ s : State, ErrorFree s →
    (∀ ofs n v, ofs + n ≤ 0x60000 → ofs < 0x60000 →
      (clmState s = 2 → Answers (.clmStoreWrite ofs n v) s (fun t => CountsUp CLM_CNT_STORE_REFUSED 1 s t ∧ t.clm.claims = s.clm.claims ∧ Keeps [.clm] s t)) ∧
      (clmState s ≤ 1 → Answers (.clmStoreWrite ofs n v) s (fun t => loadLe t.mem (0x40000000 + ofs) n = v % 256 ^ n ∧
        (∀ a, a < 0x40000000 + ofs ∨ 0x40000000 + ofs + n ≤ a → byteAt t.mem a = byteAt s.mem a) ∧ Keeps [.mem] s t))) ∧
    (clmState s = 1 → mapError s = none → Answers .mapLoad s (fun t => clmState t = 2 ∧ Result 8 0 0x0C 1 0 0 t ∧ t.clm.claims = s.clm.claims ∧ Keeps [.clm] s t)) ∧
    (∀ kind row n, clmState s = 1 → mapError s = some (kind, row, n) →
      Answers .mapLoad s (fun t => clmState t = 1 ∧ Result 8 0 0x0C 1 4 0x0811 t ∧ t.clm.claims = s.clm.claims ∧ Keeps [.clm] s t)) ∧
    (clmState s = 2 → s.clm.claims = [] → Answers .mapUnload s (fun t => clmState t = 1 ∧ Result 8 0 0x0C 2 0 0 t ∧ Keeps [.clm] s t)) ∧
    (clmState s = 2 → s.clm.claims ≠ [] → Answers .mapUnload s (fun t => clmState t = 2 ∧ Result 8 0 0x0C 2 4 0x0812 t ∧ t.clm.claims = s.clm.claims ∧ Keeps [.clm] s t)) ∧
    (on CLM_CTRL_EN s = true → Answers .clmDisable s (fun t => on CLM_CTRL_EN t = false ∧ clmState t = 0 ∧ t.clm.claims = [] ∧ t.clm.paths = [] ∧ t.clm.waits = [] ∧ Keeps [.clm, .pro, .mem, .ecc, .flm] s t)) ∧
    Answers .clmLatClear s (fun t => rd CLM_LAT_MAX t = 0 ∧ t.clm.claims = s.clm.claims ∧ t.clm.paths = s.clm.paths ∧ Keeps [.clm] s t) ∧
    (∀ o k c, on CLM_CTRL_EN s = true → inRun s = true → clmState s = 2 → isTributary s = false → s.clm.paths = [(o, [k])] → s.clm.claims = [(k, c)] → c.owner = o → o / 256 = ownModule s →
      c.st = .active → leavePassed (claimTime s) c = true → tfind o s.clm.prog = none →
      Answers .clmTick s (fun t => t.clm.claims = [(k, { c with st := .overdue, leave := closedTime (absTime (claimTime s) (headway s)) })] ∧ CountsUp CLM_CNT_OVERDUE 1 s t ∧
        t.clm.paths = s.clm.paths ∧ Keeps [.clm, .mem, .ecc, .flm] s t))

/-- A well-formed request taken by a CLM in RUN that is its own headwater, with an index of the claim table free, of an owner whose machine entry is VALID: PLACE of a member without claims on an empty haven with a place adds one OPEN claim in a free entry, ends its path and touches no other claim; EXTEND of an open claim along its haven moves that claim's TO and leaves it OPEN; SHORTEN of a claim whose cut the profile does not reach ends it there, OPEN, and STRANDED off a haven; RELEASE with FORCE of a silent owner's claims frees them all and no other's; SET_REACH marks a reach and blocks the GRANTED claims on one it disables. -/
def Obligations.ClaimRequests : Prop :=
  ∀ (op ns : Nat) (r : Req) (s u : State), RequestTaken op s r u → r.owner < 2048 → r.owner / 256 = ownModule u → (latchMach r.owner u).1 = true → u.clm.claims.length < 131072 →
    (∀ e, op = 2 → isMember (r.owner % 256) u = true → (∀ p ∈ u.clm.claims, p.2.owner ≠ r.owner) → pathOf r.owner u = [] → r.els = [e] → e.ford = false → reachOk e.id u = true → isHaven e.id u = true →
      claimsOn false e.id u = [] → 1 ≤ (reachEntry e.id u).places →
      Answers (.clmPlace ns) s (fun t => ∃ k c, claim? k u = none ∧ claim? k t = some c ∧ c.owner = r.owner ∧ c.tag = r.tag ∧ c.ford = false ∧ c.id = e.id ∧ c.dir = e.dir ∧ c.from_ = e.from_ ∧ c.to_ = e.to_ ∧
        c.st = .granted ∧ c.open_ = true ∧ c.enter = claimTime u ∧ c.stranded = false ∧ (∀ j, j ≠ k → claim? j t = claim? j u) ∧ pathOf r.owner t = [k] ∧ CountsUp CLM_CNT_GRANT 1 u t)) ∧
    (∀ e k oc, op = 1 → isMember (r.owner % 256) u = true → r.els = [e] → openClaim r.owner u = some (k, oc) → oc.ford = false → e.ford = false → e.id = oc.id → e.from_ = oc.to_ → e.dir = oc.dir → e.dir = 0 →
      e.leave = 0xFFFFFFFF → reachOk e.id u = true → isHaven e.id u = true → 0 ≤ e.from_ → e.from_ ≤ e.to_ → e.to_ ≤ (reachEntry e.id u).len → enterRel (claimTime u) oc ≤ horizonUs u →
      (claimsOn false e.id u).length ≤ 64 → othersOn false e.id r.owner u = [] → 1 ≤ (reachEntry e.id u).places →
      Answers (.clmExtend ns) s (fun t => claim? k t = some { oc with to_ := e.to_, leave := 0xFFFFFFFF, open_ := true, stranded := false } ∧ (∀ j, j ≠ k → claim? j t = claim? j u) ∧
        pathOf r.owner t = pathOf r.owner u ∧ CountsUp CLM_CNT_GRANT 1 u t)) ∧
    (∀ k c, op = 3 → pathOf r.owner u = [k] → claim? k u = some c → c.owner = r.owner → c.ford = false → c.id = r.arg0 → c.dir = 0 → c.st = .granted → chan? (r.owner % 256) u = none →
      let cut := sgn 32 r.arg1
      c.from_ ≤ cut → cut ≤ c.to_ → profileReaches r.owner ((cut - c.from_) * fineSt) (latchMach r.owner u).2 = false →
      Answers (.clmShorten ns) s (fun t => claim? k t = some { c with to_ := cut, open_ := true, next := none, stranded := !isHaven c.id u || c.stranded } ∧ (∀ j, j ≠ k → claim? j t = claim? j u) ∧
        pathOf r.owner t = [k])) ∧
    (op = 4 → r.arg0 = 1 → idxState (r.owner % 256) u = some .silent → (∃ p ∈ u.clm.claims, p.2.owner = r.owner) →
      Answers (.clmRelease ns) s (fun t => (∀ p ∈ t.clm.claims, p.2.owner ≠ r.owner) ∧ (∀ j, (∀ c, (j, c) ∈ u.clm.claims → c.owner ≠ r.owner) → claim? j t = claim? j u) ∧
        CountsUp CLM_CNT_FORCE (u.clm.claims.filter (fun p => p.2.owner == r.owner)).length u t)) ∧
    (op = 5 → r.arg0 < 8192 → r.arg1 < 2 → bit (reachEntry r.arg0 u).flags 0 = true → flumeOn (rd CLM_FLUME_RES u) u = false → flumeOn (rd CLM_FLUME_NOTE u) u = false →
      Answers (.setReach ns) s (fun t => bit (reachEntry r.arg0 t).flags 3 = (r.arg1 == 1) ∧
        (∀ a, a ≠ reachAddr r.arg0 + 8 → byteAt t.mem a = byteAt u.mem a) ∧
        (r.arg1 = 1 → ∀ k c, claim? k u = some c → c.ford = false → c.id = r.arg0 → c.st = .granted → ∃ d, claim? k t = some d ∧ d.st = .blocked ∧ d.cause = none)))


/-- While no event is routed to Millrace: a dispatch decision with one idle enabled core puts the first READY item that core may take in service there, at its operation's entry, with its argument, identity, stack top and return stub in registers and every other general register 0; an affinity hold whose window has passed is lifted, no other item touched; an item READY for longer than WAIT_LIM is counted once. A whole record, or a spill mark, at the head of a trigger flume becomes an item that owns an inbox with the same words, and leaves the flume. A timer that is due posts its item and advances, or disarms. CANCEL_FLOW and CANCEL_OP end every waiting and ready item of the flow or operation and leave an item in service as it is. -/
def Obligations.MillraceItems : Prop :=
  ∀ s : State, Unrouted s →
    (∀ n q i, on MRC_CTRL_EN s = true → awake s = true → s.held = [] → n < 16 → (coreOf n s).st = .idle → coreEn n s = true →
      (∀ m, m < 16 → m ≠ n → (coreOf m s).st ≠ .idle ∨ coreEn m s = false) → firstFor n s = some (q, i) →
      Answers .itemDispatch s (fun t => item? q t = some { i with st := .service, core := some n, held := false } ∧ (∀ j, j ≠ q → item? j t = item? j s) ∧ (flowOf i.flow t).holder = some q ∧
        (coreOf n t).st = .op ∧ (coreOf n t).pc = BitVec.ofNat 32 (opEntry i.op s) ∧ (coreOf n t).item = some q ∧ (coreOf n t).gr 1 = i.arg ∧ (coreOf n t).gr 2 = identity i s ∧
        (coreOf n t).gr 30 = BitVec.ofNat 64 (opStack i.op s + 16 * opStackSz i.op s * (n + 1)) ∧ (coreOf n t).gr 31 = 0xFF00FFF0 ∧
        (∀ r, r ≠ 1 → r ≠ 2 → r ≠ 30 → r ≠ 31 → (coreOf n t).gr r = 0) ∧ CountsUp MRC_CNT_DISPATCHED 1 s t ∧ (∀ m, m ≠ n → coreOf m t = coreOf m s) ∧ Keeps [.ccx] s t)) ∧
    (∀ n q i, itemNum n s = some q → item? q s = some i → i.held = true → i.st = .ready → affHeld i.op i.flow none s = false →
      Answers (.affinityRelease n) s (fun t => item? q t = some { i with held := false, readyAt := s.clk.frc } ∧ (∀ j, j ≠ q → item? j t = item? j s) ∧ Keeps [] s t)) ∧
    (∀ n q i, itemNum n s = some q → item? q s = some i → i.st = .ready → i.waitLong = false → rd MRC_CTRL_WAIT_LIM s ≠ 0 →
      ticksOfMs (rd MRC_CTRL_WAIT_LIM s) < s.clk.frc - i.readyAt →
      Answers (.readyWaitLong n) s (fun t => item? q t = some { i with waitLong := true } ∧ (∀ j, j ≠ q → item? j t = item? j s) ∧ CountsUp MRC_CNT_WAIT_LONG 1 s t ∧
        (on EVT_CTRL_EN s = true → Pended 39 t) ∧ Keeps [] s t)) ∧
    (∀ f k, f < 128 → ErrorFree s → s.held = [] → triggerOp f s = some k → triggerReady f k s = true → (inboxesUsed s).length < maxInboxes → rd MRC_RESERVE_RESERVE s < freeItems s →
      (∀ n, 1 ≤ n → n ≤ 32 → n ≤ flumeVisible f s → (flume f s).tags.take n = recordTags n →
        Answers (.flumeTrigger f) s (fun t => ∃ i x, item? s.mrc.nextSeq t = some i ∧ i.op = k ∧ i.arg = getWord f (flume f s).head s ∧ i.flow = selectFlow k i.arg s ∧ i.src = .trigger ∧
          i.inbox = some x ∧ x.slot < maxInboxes ∧ x.slot ∉ inboxesUsed s ∧ x.pos = 0 ∧ x.tags = recordTags n ∧
          (∀ j, j < n → loadLe t.mem (inboxAddr x.slot s + 8 * j) 8 = (getWord f ((flume f s).head + j) s).toNat) ∧
          (flume f t).tags = (flume f s).tags.drop n ∧ CountsUp MRC_CNT_POSTED 1 s t ∧ Keeps [.mem, .flm, .ecc] s t)) ∧
      (flumeVisible f s ≠ 0 → (flume f s).tags.headD 0 = 2 →
        Answers (.triggerSpillMark f) s (fun t => ∃ i x, item? s.mrc.nextSeq t = some i ∧ i.op = k ∧ i.arg = getWord f (flume f s).head s ∧ i.flow = opFlowBase k s ∧
          i.inbox = some x ∧ x.pos = 0 ∧ x.tags = [2] ∧ loadLe t.mem (inboxAddr x.slot s) 8 = i.arg.toNat ∧ (flume f t).tags = (flume f s).tags.drop 1 ∧
          (on EVT_CTRL_EN s = true → Pended 42 t) ∧ CountsUp MRC_CNT_POSTED 1 s t ∧ Keeps [.mem, .flm, .ecc] s t))) ∧
    (∀ n, n < 64 → on (MRC_TMR_CTRL_EN n) s = true → s.clk.siteSet = true → rd64 (MRC_TMR_AT_LO n) (MRC_TMR_AT_HI n) s ≤ siteNs s → on MRC_CTRL_EN s = true → awake s = true →
      (∀ x ∈ s.mrc.items, x.2.src ≠ .timer n) → opLoaded (rd (MRC_TMR_CTRL_OP n) s) s = true → graphOn (opGraph (rd (MRC_TMR_CTRL_OP n) s) s) s = true → 0 < freeItems s →
      Answers (.millraceTimer n) s (fun t => (∃ i, item? s.mrc.nextSeq t = some i ∧ i.op = rd (MRC_TMR_CTRL_OP n) s ∧ i.flow = rd (MRC_TMR_CTRL_FLOW n) s ∧ i.arg = occArg n 0 (siteNs s) ∧ i.src = .timer n) ∧
        (if rd (MRC_TMR_PER n) s = 0 then on (MRC_TMR_CTRL_EN n) t = false
          else rd64 (MRC_TMR_AT_LO n) (MRC_TMR_AT_HI n) t = (rd64 (MRC_TMR_AT_LO n) (MRC_TMR_AT_HI n) s + rd (MRC_TMR_PER n) s * 1000) % 2 ^ 64) ∧
        CountsUp MRC_CNT_POSTED 1 s t ∧ Keeps [] s t)) ∧
    (NoSuccessors s →
      (∀ f, Answers (.cancelFlow f) s (fun t => Cancels (fun i => i.flow == f) s t ∧ Result 3 0 0x10 1 0 0 t ∧ Keeps [.mem, .flm, .ecc] s t)) ∧
      (∀ k, Answers (.cancelOp k) s (fun t => Cancels (fun i => i.op == k) s t ∧ Result 3 0 0x10 2 0 0 t ∧ Keeps [.mem, .flm, .ecc] s t)))

/-- While no event is routed to Millrace: enabling graph g sets its bit and no other graph's; disabling it clears the bit and ends every waiting and ready item of its operations, and disabling Millrace ends them all and raises MRC_STATE, items in service staying. A write to an operation's descriptor while its graph is enabled changes no descriptor word and is counted with its offset; any other takes that word and leaves every other word. Clearing MRC_LAT sets MAX to 0. -/
def Obligations.MillraceControls : Prop :=
  ∀ s : State, Unrouted s →
    (∀ g, g < 64 → Answers (.graphEnable g) s (fun t => graphOn g t = true ∧ (∀ h, h ≠ g → graphOn h t = graphOn h s) ∧ t.mrc.items = s.mrc.items ∧ Keeps [] s t)) ∧
    (NoSuccessors s →
      (∀ g, graphOn g s = true → Answers (.graphDisable g) s (fun t => graphOn g t = false ∧ (∀ h, h ≠ g → graphOn h t = graphOn h s) ∧
        Cancels (fun i => opGraph i.op s == g) s t ∧ Keeps [.mem, .flm, .ecc] s t)) ∧
      (on MRC_CTRL_EN s = true → Answers .millraceDisable s (fun t => on MRC_CTRL_EN t = false ∧ rd MRC_STATUS_STATE t = 0 ∧ Cancels (fun _ => true) s t ∧
        (on EVT_CTRL_EN s = true → Pended 33 t) ∧ Keeps [.mem, .flm, .ecc] s t))) ∧
    (∀ k w v, k < 1024 → w < 8 →
      (opLoaded k s = true → graphOn (opGraph k s) s = true →
        Answers (.descriptorWrite k w v) s (fun t => (∀ j x, j < 1024 → x < 8 → descWord j x t = descWord j x s) ∧ CountsUp MRC_CFG_REFUSED_COUNT 1 s t ∧
          rd MRC_CFG_REFUSED_LAST_OFFSET t = 0x8000 + 0x20 * k + 4 * w ∧ t.mrc.items = s.mrc.items ∧ Keeps [] s t)) ∧
      ((opLoaded k s = false ∨ graphOn (opGraph k s) s = false) →
        Answers (.descriptorWrite k w v) s (fun t => descWord k w t = v % 2 ^ 32 ∧ (∀ j x, j < 1024 → x < 8 → (j, x) ≠ (k, w) → descWord j x t = descWord j x s) ∧
          t.mrc.items = s.mrc.items ∧ Keeps [] s t))) ∧
    Answers .mrcLatClear s (fun t => rd MRC_LAT_MAX t = 0 ∧ t.mrc.items = s.mrc.items ∧ Keeps [] s t)

/-- With no word in error: a scrub visit that meets no error moves its store's position on (back to 0 after the last line), counting a late one; one flipped bit in a word is written back and counted INNER; one word lost is rebuilt and counted OUTER; two words lost in a line are poisoned and counted UNCORR. SCRUB_RESTART sets the position to 0, INJECT marks the word it names only while debug is enabled, CLEAR_ERR empties the error records. FLUSH empties an enabled flume and no other, and is REFUSED with 0x0401, moving nothing, for one that is not enabled (the model's reading of Table MEM-9: log entry 117); enabling a flume needs a valid geometry, disabling it empties it; a FLOW pin in IN mode holds its flume exactly while it is asserted. -/
def Obligations.MemoryAndFlumeCommands : Prop :=
  (∀ (st : Nat) (late : Bool) (s : State), ErrorFree s → awake s = true → st ≤ 4 → (st = 0 → on MEM_CTRL_SCRUB_EN s = true) →
    let i := tget 0 st s.ecc.pos
    let l := storeBase st + 64 * i
    Answers (.scrubVisit st [] false late) s (fun t => ErrorFree t ∧ tget 0 st t.ecc.pos = (if storeLines st ≤ i + 1 then 0 else i + 1) ∧
      (late = true → CountsUp MEM_CNT_SCRUB_DEFER 1 s t) ∧ Keeps [.ecc] s t) ∧
    (∀ w, Answers (.scrubVisit st [(w, 0)] false late) s (fun t => ErrorFree t ∧ CountsUp MEM_CNT_INNER 1 s t ∧ Keeps [.ecc] s t) ∧
      Answers (.scrubVisit st [(w, 1)] false late) s (fun t => ErrorFree t ∧ CountsUp MEM_CNT_OUTER 1 s t ∧ Keeps [.ecc] s t)) ∧
    (∀ v w, v % 8 ≠ w % 8 → Answers (.scrubVisit st [(v, 1), (w, 1)] false late) s (fun t => markAt (l + 8 * (v % 8)) t = some .poisoned ∧ markAt (l + 8 * (w % 8)) t = some .poisoned ∧
      CountsUp MEM_CNT_UNCORR 1 s t ∧ Keeps [.ecc] s t))) ∧
  (∀ s : State, Answers .scrubRestart s (fun t => tget 0 0 t.ecc.pos = 0 ∧ t.ecc.marks = s.ecc.marks ∧ Result 5 0 0x0C 1 0 0 t ∧ Keeps [.ecc] s t)) ∧
  (∀ s : State, let a := 8 * rd MEM_INJECT_ADDR s % 0x4000000
    (debugOn s = false → Answers .inject s (fun t => t.ecc.marks = s.ecc.marks ∧ t.ecc.badLines = s.ecc.badLines ∧ Result 5 0 0x0C 2 4 0x0505 t ∧ Keeps [.ecc] s t)) ∧
    (debugOn s = true → rd MEM_INJECT_MODE s < 3 → Answers .inject s (fun t => markAt a t = some (if rd MEM_INJECT_MODE s = 0 then .single else .flagged) ∧
      (∀ b, b / 64 ≠ a / 64 → markAt b t = markAt b s) ∧ Result 5 0 0x0C 2 0 0 t ∧ Keeps [.ecc] s t)) ∧
    (debugOn s = true → 3 ≤ rd MEM_INJECT_MODE s → Answers .inject s (fun t => a / 64 * 64 ∈ t.ecc.badLines ∧ t.ecc.marks = s.ecc.marks ∧ Result 5 0 0x0C 2 0 0 t ∧ Keeps [.ecc] s t))) ∧
  (∀ s : State, Answers .memClearErr s (fun t => rd MEM_ERR_P_INFO_ERROR t = 0 ∧ rd MEM_ERR_S_INFO_ERROR t = 0 ∧ rd MEM_ERR_OVF t = 0 ∧ Result 5 0 0x0C 3 0 0 t ∧ t.ecc.marks = s.ecc.marks ∧ Keeps [.ecc] s t)) ∧
  (∀ (f : Nat) (s : State), f < 128 →
    (flumeOn f s = false → Answers (.flush f) s (fun t => (∀ g, flume g t = flume g s) ∧ Result 4 0 0x10 1 4 0x0401 t ∧ Keeps [.flm] s t)) ∧
    (flumeOn f s = true → Answers (.flush f) s (fun t => (flume f t).tags = [] ∧ (∀ g, g ≠ f → flume g t = flume g s) ∧ CountsUp FLM_CNT_FLUSH (flume f s).tags.length s t ∧ Result 4 0 0x10 1 0 0 t ∧ Keeps [.flm] s t)) ∧
    (on (FLM_CFG_EN f) s = false → flumeValid f s = true → Answers (.flumeEnable f) s (fun t => on (FLM_CFG_EN f) t = true ∧ (flume f t).tags = (flume f s).tags ∧ Keeps [.flm] s t)) ∧
    (on (FLM_CFG_EN f) s = false → flumeValid f s = false → Answers (.flumeEnable f) s (fun t => on (FLM_CFG_EN f) t = false ∧ CountsUp FLM_CFG_REFUSED_COUNT 1 s t ∧ Keeps [.flm] s t)) ∧
    (on (FLM_CFG_EN f) s = true → Answers (.flumeDisable f) s (fun t => on (FLM_CFG_EN f) t = false ∧ (flume f t).tags = [] ∧ (∀ g, g ≠ f → flume g t = flume g s) ∧ Keeps [.flm] s t))) ∧
  (∀ (p : Nat) (b : Bool) (s : State), p < 4 → awake s = true →
    Answers (.flowPinIn p b) s (fun t => on (FLM_FLOWPIN_ASSERTED p) t = (b != on (FLM_FLOWPIN_POL p) s) ∧
      (∀ g, flume g t = if rd (FLM_FLOWPIN_MODE p) s = 2 ∧ rd (FLM_FLOWPIN_FLUME p) s = g then { flume g s with heldByPin := b != on (FLM_FLOWPIN_POL p) s } else flume g s) ∧ Keeps [.flm] s t))

/-- For every register outside EVT, MRC, TWN and CAS, and every writer that may write it: a write that would change an H-class field while its block is active changes no field of any register but the block's CFG_REFUSED, which counts it and holds its offset; any other write that has no effect of its own gives each writable field its bits by its access code, a shadowed field of an active block keeping its value with the write held, leaves read-only fields and every other register, and touches no other part of the state. At its commit point the held write of a block takes effect. At the start of an air cycle no write of REF, SOL, AIR, TWN or CAS is left held, and SOL_STATUS shows the tallies of the cycle now complete; with the module off or site time not set nothing happens. -/
def Obligations.RegisterWrites : Prop :=
  (∀ (who n off v : Nat) (r : Reg) (s : State), n < 31 → off < 0x10000 → off % 4 = 0 → off ≠ 0xFF0 → v < 2 ^ 32 → regAt n off = some r → groupOf n ∉ [2, 3, 24, 25] → s.pwr.off = false →
    hidden n off = false → (who = 16 ∨ ¬(26 ≤ n ∧ n ≤ 29) ∧ (who = 17 → n ≠ 30) ∧ taken n off s = false) → badWord n off v = false → changesOutput n off v s = false →
    let g := groupOf n
    let base := 32 * (0x10000 * instOf n + off)
    let refused := activeAt n off s && changesHeld n off v s
    (refused = true → Answers (.registerWrite who (addrOf n off) v) s (fun t => (∀ f : Fld, f.blk ∉ [2, 3, 24, 25] → ¬(f.blk = g ∧ f.key / 32 = 0x10000 * instOf n + 0xFF0) → rd f t = rd f s) ∧
      CountsUp (fldAt g (instOf n) 0xFF0 0 16) 1 s t ∧ rd (fldAt g (instOf n) 0xFF0 16 16) t = off ∧ (∀ p, blkPart g ≠ some p → p.same t s) ∧ t.pending = s.pending)) ∧
    (refused = false → special n off v s = none → Answers (.registerWrite who (addrOf n off) v) s (fun t =>
      (∀ f ∈ r.fields, let x := bits v f.lo f.width
        let k := g * 2 ^ 32 + base + f.lo
        match f.acc with
        | .ro => rd (fldOf n off f) t = rd (fldOf n off f) s
        | .wo => rd (fldOf n off f) t = rd (fldOf n off f) s
        | .w1c => rd (fldOf n off f) t = (rd (fldOf n off f) s - (rd (fldOf n off f) s &&& x)) % 2 ^ f.width
        | .w1s => rd (fldOf n off f) t = (rd (fldOf n off f) s ||| x) % 2 ^ f.width
        | .rw => if f.cls = .shadowed ∧ commitsAtOnce n off s = false then rd (fldOf n off f) t = rd (fldOf n off f) s ∧ tfind k t.held = some x else rd (fldOf n off f) t = x) ∧
      (∀ f : Fld, f.blk ∉ [2, 3, 24, 25] → ¬(f.blk = g ∧ f.key / 32 = 0x10000 * instOf n + off) → rd f t = rd f s) ∧ (∀ p, blkPart g ≠ some p → p.same t s) ∧ t.pending = s.pending))) ∧
  (∀ (g part key v : Nat) (s : State), g ∈ [5, 6, 7, 8, 9, 10, 11, 17, 23, 26, 27, 28, 29] → key < 2 ^ 32 → s.held = [(g * 2 ^ 32 + key, v)] →
    Answers (.commitPoint g part) s (fun t => rd ⟨g, key, 32, 0⟩ t = v % 2 ^ 32 ∧ tfind (g * 2 ^ 32 + key) t.held = none ∧
      (∀ f : Fld, f.blk ∉ [2, 3, 24, 25] → ¬(f.blk = g ∧ f.key = key) → rd f t = rd f s) ∧ ∀ p, blkPart g ≠ some p → p.same t s)) ∧
  (∀ (m : Option Meas) (s : State),
    ((s.pwr.off = true ∨ s.clk.siteSet = false) → Answers (.cycleStart m) s (fun t => Keeps [] s t)) ∧
    (s.pwr.off = false → s.clk.siteSet = true → Answers (.cycleStart m) s (fun t => (∀ k, k / 2 ^ 32 ∈ [6, 7, 10, 24, 25] → tfind k t.held = none) ∧
      (s.held = [] → t.sol.tally = (0, 0, 0) ∧ rd SOL_STATUS_ACTIVE t = s.sol.tally.1 % 2 ^ SOL_STATUS_ACTIVE.width ∧ rd SOL_STATUS_FIXED t = s.sol.tally.2.1 % 2 ^ SOL_STATUS_FIXED.width ∧
        rd SOL_STATUS_MARKED t = s.sol.tally.2.2 % 2 ^ SOL_STATUS_MARKED.width))))

/-- With the module powered and no standby: STOP sets the PROGRAM source, and out of PERMIT (or while RELEASING) the lane becomes LATCHED; out of PERMIT that is an epoch: the serial one higher, the epoch's time and cycle recorded, every machine channel in STOP, and a burst started at once where the radio may send. CLEAR_PROGRAM clears the source and moves no lane when none is left. RELEASE begins exactly when R217 gives no cause against it, else it is refused with that cause and counted; OVERRIDE needs presence and a discrepancy fault with both channels closed. An input edge shows on its channel, and one that opens takes a permitted lane to LATCHED by source INPUT; channels that have differed for DISC put the lane in FAULT. A pitch position of a burst uses up one frame, delays it on a busy channel in Plan E, and sends it where the dwell limit allows; a repeat starts at the slot phase. A read-back fault shows the pin's level and is counted. -/
def Obligations.StopLane : Prop :=
  ∀ s : State, s.pwr.off = false →
    (shadowing s = false →
      Answers .stpStop s (fun t => t.stp.program = true ∧ Result 12 0 0x0C 1 0 0 t ∧ bit (rd STP_STATUS_ACTIVE t) 1 = true ∧ bit (rd STP_STATUS_LATCHED t) 1 = true ∧
        lane t = (if lane s = 1 ∨ lane s = 3 then 2 else lane s) ∧
        (lane s = 1 → rd STP_SERIAL_SERIAL t = (rd STP_SERIAL_SERIAL s + 1) % 2 ^ 16 ∧ rd64 STP_EPOCH_LO STP_EPOCH_HI t = siteNs s % 2 ^ 64 ∧ rd STP_EPOCH_CYC t = cycleNo s % 2 ^ 32 ∧ CountsUp STP_CNT_EPOCH 1 s t ∧
          (∀ m, m < 256 → chan? m t = (chan? m s).map (fun c => { c with mode := .stop })) ∧
          (mayBurst s = true → s.twn.burstDue = false → t.stp.burst.map (fun b => b.start) = some (siteNs s))) ∧
        Keeps [.stp, .air, .pro, .axs, .dio, .eth, .can] s t) ∧
      (sourcesNow (setStp { s.stp with program := false } s) = 0 →
        Answers .stpClearProgram s (fun t => t.stp.program = false ∧ Result 12 0 0x0C 2 0 0 t ∧ lane t = lane s ∧ rd STP_STATUS_ACTIVE t = 0 ∧ Keeps [.stp] s t)) ∧
      (lane s = 1 → on STP_STATUS_INA s = true → Answers (.stopInputEdge 0 false) s (fun t => lane t = 2 ∧ rd STP_SERIAL_FIRST t = 0 ∧ CountsUp STP_CNT_EPOCH 1 s t)) ∧
      (∀ f, s.stp.differ = some f → lane s ≠ 4 → ticksOfMs (max 10 (min 1000 (rd STP_INPUT_DISC s))) ≤ s.clk.frc - f →
        Answers .stopDiscrepancy s (fun t => lane t = 4 ∧ rd STP_STATUS_FAULT t = 1 ∧ CountsUp STP_CNT_DISC 1 s t)) ∧
      (windowOpen s = true → rd STP_STATUS_FAULT s = 1 → on STP_STATUS_INA s = true → on STP_STATUS_INB s = true →
        Answers .stpOverride s (fun t => lane t = 2 ∧ rd STP_STATUS_FAULT t = 0 ∧ Result 12 0 0x0C 4 0 0 t))) ∧
    (releaseCause s = 0 → Answers .stpRelease s (fun t => lane t = 3 ∧ rd STP_CMD_RES_STATUS t = rd STP_CMD_RES_STATUS s ∧ t.pro.chans = s.pro.chans ∧ Keeps [.stp, .air, .pro] s t)) ∧
    (releaseCause s ≠ 0 → Answers .stpRelease s (fun t => lane t = lane s ∧ Result 12 0 0x0C 3 4 (releaseCause s) t ∧ CountsUp STP_CNT_RELEASE_REFUSED 1 s t ∧ Keeps [.stp] s t)) ∧
    (windowOpen s = false → Answers .stpOverride s (fun t => lane t = lane s ∧ Result 12 0 0x0C 4 4 0x0CF0 t ∧ CountsUp KEY_CNT_GATE_REFUSED 1 s t ∧ Keeps [.stp, .key] s t)) ∧
    (windowOpen s = true → rd STP_STATUS_FAULT s ≠ 1 → Answers .stpOverride s (fun t => lane t = lane s ∧ Result 12 0 0x0C 4 4 0x0C07 t ∧ Keeps [.stp] s t)) ∧
    (∀ ch b, ch < 2 → Answers (.stopInputEdge ch b) s (fun t => on (if ch = 0 then STP_STATUS_INA else STP_STATUS_INB) t = b ∧
      on (if ch = 0 then STP_STATUS_INB else STP_STATUS_INA) t = on (if ch = 0 then STP_STATUS_INB else STP_STATUS_INA) s ∧ Keeps [.stp, .air, .pro, .axs, .dio, .eth, .can] s t)) ∧
    (∀ k b n pos lat clear, k < 4 → s.stp.burst = some b → tfind k b.left = some (n, pos) → b.start + pos * pitchNs s ≤ siteNs s →
      let x := b.start + pos * pitchNs s
      let ch := listening k x s
      ((planE s = false ∨ clear = true) → Answers (.stopFrameTx k clear lat) s (fun t =>
        (t.stp.burst.bind (fun y => tfind k y.left)) = (if n ≤ 1 then none else some (n - 1, pos + 1)) ∧
        (if dwellLimit ch s < dwellUsed ch (x + stopAirNs s) s + stopAirNs s then CountsUp STP_CNT_DWELL_SKIP 1 s t
          else (∃ y, Emit.radio k ch x y ∈ t.out) ∧ (ch, x, x + stopAirNs s, true) ∈ t.air.charges) ∧ Keeps [.stp, .air] s t)) ∧
      (planE s = true → clear = false → Answers (.stopFrameTx k clear lat) s (fun t => t.stp.burst.bind (fun y => tfind k y.left) = some (n, pos + 1) ∧ CountsUp STP_CNT_LBT_DELAY 1 s t ∧ Keeps [.stp, .air] s t))) ∧
    (s.stp.repeats ≠ 0 → lane s ≠ 1 → mayBurst s = true → bursting s = false → slotsFrom s ≤ cyclePhase s →
      Answers .stopBurstRepeat s (fun t => t.stp.repeats = s.stp.repeats - 1 ∧ t.stp.burst.map (fun b => b.start) = some (siteNs s - cyclePhase s + slotsFrom s) ∧ Keeps [.stp, .air] s t)) ∧
    (∀ n, n < 2 → Answers (.statFault n) s (fun t => on (if n = 0 then STP_STATUS_STAT0 else STP_STATUS_STAT1) t = (!statOut n s) ∧ CountsUp STP_CNT_STAT_FAULT 1 s t ∧ lane t = lane s ∧ Keeps [.stp] s t)) ∧
    Answers .stpLatClear s (fun t => rd STP_LAT_MAX t = 0 ∧ lane t = lane s ∧ Keeps [.stp] s t)

/-- An OBSERVATION from a member in its regular slot that opens and is new counts, updates the index, and waits for SOL; a stale one is counted and changes no index; one that does not open is counted. A new REPLY from a member in its spare slot is acknowledged and its acknowledgement kept; a duplicate gets the kept one again. A JOIN of an admitted machine takes the first free index, GRANTED, with a grant queued and its filter cleared, and leaves every other; a full fleet refuses it. A partner's JOIN likewise takes the first free partner index; a partner's frame in its rendezvous makes it MEMBER and heard. A freeze makes one frame per carrier; at its hop a frozen frame goes on air and is charged where the dwell limit allows, else it is skipped and counted. A grant not used by FIRST + 4 is freed, a member not heard for 40 cycles becomes SILENT and its channel holds. -/
def Obligations.AirFrames : Prop :=
  (∀ (lane sl : Nat) (off : Int) (b eui p : List Byte) (i : Idx) (s : State), let u := upOf b
    let m := u.source
    let c := cycleNo s
    (UplinkOpens 1 lane sl off b eui p s → sourceEui m s = some eui → idx? m s = some i → i.st = .member → isRegular m lane sl c s = true →
      let f := dupFilter i.top i.win u.fcnt
      (f.1 = 0 → bit u.flags 0 = false → (∀ o ∈ s.sol.obs, o.fleet ≠ m) → (∀ o ∈ s.sol.open_, o.fleet ≠ m) →
        Answers (.observationFrame lane sl off b) s (fun t => idx? m t = some { i with top := f.2.1, win := f.2.2, last := c, bkey := u.bkey } ∧ (∀ n, n ≠ m → idx? n t = idx? n s) ∧ CountsUp AIR_CNT_RX_OK 1 s t ∧
          t.sol.obs = s.sol.obs ++ [{ fleet := m, cycle := c, slot := sl, regular := true, update := decide (slotOfIdx m c s < sl), payload := p }])) ∧
      (f.1 = 2 → Answers (.observationFrame lane sl off b) s (fun t => t.air.idx = s.air.idx ∧ CountsUp AIR_CNT_RX_STALE 1 s t ∧ Keeps [.air] s t))) ∧
    (UplinkOpens 2 lane sl off b eui p s → sourceEui m s = some eui → idx? m s = some i → i.st = .member → isSpare m lane sl c s = true →
      let f := dupFilter i.top i.win u.fcnt
      let a := ackBody u.fcnt 0 0 0
      (f.1 = 0 → bit u.flags 0 = false → Answers (.replyFrame lane sl off b) s (fun t => CountsUp AIR_CNT_RX_OK 1 s t ∧ ({ target := m, kind := .ack a } : DItem) ∈ t.air.items ∧
        idx? m t = some { i with top := f.2.1, win := f.2.2, last := c, bkey := u.bkey, acks := ((u.fcnt, a) :: i.acks).take 4 })) ∧
      (∀ x, f.1 = 1 → i.acks.find? (fun a => a.1 == u.fcnt) = some x → Answers (.replyFrame lane sl off b) s (fun t => CountsUp AIR_CNT_RX_DUP 1 s t ∧ ({ target := m, kind := .ack x.2 } : DItem) ∈ t.air.items))) ∧
    (receiving s = true → ownLane lane sl s = true → u.kind = 1 → b.length = 192 → sourceEui m s = some eui → openUp eui false b s = none →
      Answers (.observationFrame lane sl off b) s (fun t => t.air.idx = s.air.idx ∧ CountsUp AIR_CNT_RX_MIC 1 s t ∧ Keeps [.air] s t))) ∧
  (∀ (lane sl : Nat) (off : Int) (b p : List Byte) (s : State), let u := upOf b
    let eui := slice b 16 8
    contentionOk lane sl s = true →
    (UplinkOpens 3 lane sl off b eui p s → on AIR_CTRL_JOIN_EN s = true → leAt p 8 1 = 0 → leAt p 9 1 = 1 → s.site.admitted.find? (fun a => a.1 == eui) = some (eui, none) →
      s.air.idx.find? (fun q => q.2.eui == eui) = none →
      (∀ m, (List.range (fleetSize s)).find? (fun m => (idx? m s).isNone) = some m → Answers (.joinFrame lane sl off b) s (fun t => CountsUp AIR_CNT_RX_OK 1 s t ∧
        (∃ i, idx? m t = some i ∧ i.st = .granted ∧ i.eui = eui ∧ i.first = firstCycle s ∧ i.join = u.fcnt ∧ i.top = u.fcnt ∧ i.last = cycleNo s ∧ i.wdog = leAt p 10 2 ∧ i.dec = leAt p 12 2 ∧ i.jerk = leAt p 14 2) ∧
        (∀ n, n ≠ m → idx? n t = idx? n s) ∧ filt m t = {} ∧ (∃ g n, ({ target := 0xFFFF, kind := .grant g n } : DItem) ∈ t.air.items))) ∧
      ((List.range (fleetSize s)).find? (fun m => (idx? m s).isNone) = none → Answers (.joinFrame lane sl off b) s (fun t => CountsUp AIR_CNT_JOIN_REFUSED 1 s t ∧ t.air.idx = s.air.idx ∧ Keeps [.air] s t))) ∧
    (UplinkOpens 5 lane sl off b eui p s → on AIR_CTRL_PJOIN_EN s = true → leAt p 8 1 = 1 → leAt p 9 1 = 1 → eui ∈ s.site.partners → s.wkr.ptr.find? (fun q => q.2.eui == eui) = none →
      ∀ m, (List.range 512).find? (fun n => (ptr? n s).isNone) = some m → Answers (.partnerJoinFrame lane sl off b) s (fun t => CountsUp AIR_CNT_RX_OK 1 s t ∧
        (∃ x, ptr? m t = some x ∧ x.st = .granted ∧ x.eui = eui ∧ x.join = u.fcnt ∧ x.top = u.fcnt ∧ x.next = firstRdv m s ∧ x.lane = laneFor m s) ∧ (∀ n, n ≠ m → ptr? n t = ptr? n s)))) ∧
  (∀ (lane sl : Nat) (off : Int) (b eui p : List Byte) (x : Ptr) (s : State), let u := upOf b
    let m := u.source % 512
    let f := dupFilter x.top x.win u.fcnt
    UplinkOpens 4 lane sl off b eui p s → bit u.source 15 = true → sourceEui u.source s = some eui → ptr? m s = some x → (x.st = .member ∨ x.st = .granted) → x.lane = lane → x.began = some (cycleNo s, true) →
    x.callAt = none → contentionSlot (cycleNo s) s = some sl → f.1 = 0 →
    Answers (.partnerFrame lane sl off b) s (fun t => (∃ y, ptr? m t = some y ∧ y.st = .member ∧ y.heard = true ∧ y.misses = 0 ∧ y.fallback = none ∧ y.top = f.2.1 ∧ y.win = f.2.2 ∧ y.bkey = u.bkey) ∧
      (∀ n, n ≠ m → ptr? n t = ptr? n s) ∧ CountsUp AIR_CNT_RX_OK 1 s t ∧ CountsUp WKR_CNT_RDV_OK 1 s t ∧ ({ target := 0x8000 + m, kind := .rdv u.fcnt } : DItem) ∈ t.air.items)) ∧
  (∀ (h : Nat) (ack : Bool) (s : State), h < 4 → inRun s = true → twnRole s = 0 → sendsHops s = true →
    Answers (.frameFreeze h ack) s (fun t => (∀ k ∈ carriers s, ∃ d ∈ t.air.frames, d.cycle = freezeCycle h s ∧ d.carrier = k ∧ d.hop = h ∧ d.onAir = none ∧
        d.channel = channelAt (downIndex k h (freezeCycle h s) s) s) ∧
      (h = 0 → Machine.lane s = 3 → Machine.lane t = 1 ∧ Result 12 0 0x0C 3 0 0 t))) ∧
  (∀ (h : Nat) (busy : List Nat) (f : DFrame) (s : State), h < 4 → twnRole s = 0 → s.twn.yieldAt = none → s.twn.burstDue = false → s.air.frames = [f] → f.onAir = none → f.cycle = cycleNo s → f.hop = h →
    let x := siteNs s - cyclePhase s + h * hopNs s
    (sendsHops s = false → Answers (.hopTransmit h busy) s (fun t => t.air.frames = [] ∧ CountsUp AIR_CNT_TX_WITHHELD 1 s t ∧ Keeps [.air] s t)) ∧
    (sendsHops s = true → bursting s = false → (planE s = false ∨ f.carrier ∉ busy) →
      (if dwellLimit f.channel s - dwellReserve s < dwellUsed f.channel (x + hopNs s) s + hopNs s then
        Answers (.hopTransmit h busy) s (fun t => t.air.frames = [] ∧ CountsUp AIR_CNT_HOP_SKIP 1 s t ∧ Keeps [.air] s t)
      else Answers (.hopTransmit h busy) s (fun t => Emit.radio f.carrier f.channel (x + leadNs s) (onAirBytes (f.bytes ++ f.mic)) ∈ t.out ∧
        t.air.frames = [{ f with items := f.items.map noticed, onAir := some (x + leadNs s + frameNs s) }] ∧ (f.channel, x, x + hopNs s, false) ∈ t.air.charges ∧ Keeps [.air, .flm, .mem, .ecc] s t)))) ∧
  (∀ s : State, on AIR_CTRL_EN s = true →
    (inRun s = true → Answers .guardCalibration s (fun t => t.air.calLane = (s.air.calLane + 1) % (if planE s then 8 else 16) ∧ Keeps [.air] s t)) ∧
    (s.pwr.off = false → Answers .airCalDone s (fun t => t.air.calDone = true ∧ rd AIR_STATUS_STATE t ≠ 1 ∧ Keeps [.air] s t))) ∧
  (∀ (m : Nat) (i : Idx) (s : State), m < 256 → idx? m s = some i →
    (i.st = .granted → 0 < sgn 32 (cycleNo s + 2 ^ 32 - (i.first + 4) % 2 ^ 32) →
      Answers (.grantLapse m) s (fun t => idx? m t = none ∧ chan? m t = none ∧ (∀ n, n ≠ m → idx? n t = idx? n s) ∧ CountsUp AIR_CNT_GRANT_LAPSED 1 s t)) ∧
    (i.st = .member → 40 < sgn 32 (cycleNo s + 2 ^ 32 - i.last) →
      Answers (.indexSilent m) s (fun t => idx? m t = some { i with st := .silent } ∧ chan? m t = (chan? m s).map (fun c => if c.mode = .stop then c else { c with mode := .hold }) ∧
        (∀ n, n ≠ m → idx? n t = idx? n s) ∧ Keeps [.air, .pro] s t)))

/-- RELEASE_INDEX frees a silent or leaving index that holds no claim, and is refused otherwise; CANCEL_ORDERS leaves no order of its target and keeps every other. An order record for a target that may take it joins the list with its deadline; at a cycle start exactly the orders whose cycle is reached fail. A rotation due makes a new broadcast key and a key item for every member, and the key comes into use once every member shows it. A sound wake pattern to this module's own address is counted and raises its event, one in the alert range is counted as an alert, an unsound one as such. At a rendezvous the next one lies PERIOD on, where the lanes have room; an unanswered rescue call is repeated or the partner is LOST; RELEASE frees a partner and CALL queues its call. -/
def Obligations.OrdersAndPartners : Prop :=
  (∀ (m : Nat) (s : State), m < 256 →
    (∀ i, idx? m s = some i → (i.st = .silent ∨ i.st = .leaving) →
      (ownerHolds (ownerOf m s) s = false → Answers (.releaseIndex m) s (fun t => idx? m t = none ∧ chan? m t = none ∧ (∀ n, n ≠ m → idx? n t = idx? n s) ∧ Result 10 0 0x20 1 0 0 t)) ∧
      (ownerHolds (ownerOf m s) s = true → Answers (.releaseIndex m) s (fun t => t.air.idx = s.air.idx ∧ Result 10 0 0x20 1 4 0x0A0A t ∧ Keeps [.air] s t))) ∧
    ((∀ i, idx? m s = some i → i.st = .granted ∨ i.st = .member) → Answers (.releaseIndex m) s (fun t => t.air.idx = s.air.idx ∧ Result 10 0 0x20 1 4 0x0A06 t ∧ Keeps [.air] s t)) ∧
    (∀ i, idx? m s = some i → i.st ≠ .granted → Answers (.cancelOrders m) s (fun t => t.air.orders = s.air.orders.filter (fun o => o.target != m) ∧ t.air.idx = s.air.idx ∧ Result 10 0 0x20 2 0 0 t))) ∧
  (∀ (ws : List Word) (s u : State), on AIR_CTRL_EN s = true → engineTake (rd AIR_FLUME_ORD s) { s with out := [] } = (some (ws, true), u) →
    let b := bytesOf ws
    let len := leAt b 14 1
    orderTarget (leAt b 0 2) u = true → len ≤ orderLimit u → (u.air.orders.filter (fun x => x.target == leAt b 0 2)).length < 8 →
    Answers .orderRecord s (fun t => t.air.orders = u.air.orders ++ [{ target := leAt b 0 2, kind := leAt b 2 1, flags := leAt b 3 1, num := leAt b 4 4, tag := leAt b 8 4, due := (cycleNo s + max 1 (leAt b 12 2)) % 2 ^ 32, data := padTo len (slice b 16 len), echoed := false }] ∧
      ({ target := leAt b 0 2, kind := .order (leAt b 4 4) } : DItem) ∈ t.air.items ∧ t.air.idx = u.air.idx)) ∧
  (∀ s : State, let late := fun (o : Order) => decide (0 ≤ sgn 32 (cycleNo s + 2 ^ 32 - o.due))
    Answers .orderDeadline s (fun t => t.air.orders = s.air.orders.filter (fun o => !late o) ∧ CountsUp AIR_CNT_ORDER_FAILED (s.air.orders.filter late).length s t ∧ t.air.idx = s.air.idx)) ∧
  (∀ s : State, on KEY_CTRL_EN s = true → s.pwr.off = false → on KEY_STATUS_DRBG_OK s = true →
    (s.key.bkey = none ∨ s.key.rotated + 3600000000000 * rd KEY_CTRL_BK_PERIOD s ≤ siteNs s) →
    Answers .broadcastKeyRotate s (fun t => (∃ k, t.key.bkey = some (match s.key.bkey with | some b => (b.1 + 1) % 256 | none => 0, k) ∧ k.length = 16) ∧ t.key.bprev = s.key.bkey ∧ t.key.rotated = siteNs s ∧
      t.air.keyUse = s.key.bkey.isNone ∧ (∀ m i, idx? m s = some i → i.st = .member → ({ target := m, kind := .key } : DItem) ∈ t.air.items) ∧ Keeps [.key, .air] s t)) ∧
  (∀ (k : Nat × List Byte) (s : State), s.key.bkey = some k →
    ((∀ p ∈ s.air.idx, p.2.st = .member → p.2.bkey = k.1) → Answers .broadcastKeySwitch s (fun t => t.air.keyUse = true ∧ Keeps [.air] s t)) ∧
    (∀ p c, p ∈ s.air.idx → p.2.st = .member → p.2.bkey ≠ k.1 → s.air.keyFrom = some c → sgn 32 (cycleNo s + 2 ^ 32 - c) < 200 → Answers .broadcastKeySwitch s (fun t => Keeps [] s t))) ∧
  (∀ (a crc : Nat) (s : State), a < 2 ^ 16 → wkrOn s = true → on WKR_CTRL_RX_EN s = true → ownPattern s = false →
    (crc ≠ wakeCrc a → Answers (.wakePatternRx a crc) s (fun t => CountsUp WKR_CNT_CRC_BAD 1 s t ∧ t.wkr.ptr = s.wkr.ptr ∧ Keeps [.wkr] s t)) ∧
    (crc = wakeCrc a → a = rd WKR_ADDR_OWN s → Answers (.wakePatternRx a crc) s (fun t => CountsUp WKR_CNT_WAKE_RX 1 s t ∧ t.wkr.ptr = s.wkr.ptr ∧ (on EVT_CTRL_EN s = true → Pended 138 t) ∧ Keeps [.wkr] s t)) ∧
    (∀ x, let p := (a + 2 ^ 16 - rd WKR_ADDR_ALERT_BASE s) % 2 ^ 16
      crc = wakeCrc a → a ≠ rd WKR_ADDR_OWN s → p < 512 → ptr? p s = some x →
      (x.st ≠ .lost → Answers (.wakePatternRx a crc) s (fun t => CountsUp WKR_CNT_ALERT 1 s t ∧ t.air.items = s.air.items ++ [{ target := 0x8000 + p, kind := .call }] ∧ Keeps [.wkr, .air] s t)) ∧
      (x.st = .lost → Answers (.wakePatternRx a crc) s (fun t => CountsUp WKR_CNT_ALERT 1 s t ∧ ptr? p t = some { x with st := .rescue, calls := 0, lastCall := cycleNo s } ∧ p ∈ t.wkr.queue ∧ Keeps [.wkr] s t)))) ∧
  (∀ (p : Nat) (x : Ptr) (s : State), p < 512 → ptr? p s = some x →
    (let base := (cycleNo s + x.period) % 2 ^ 32
     wkrOn s = true → on WKR_CTRL_RDV_EN s = true → inRun s = true → x.next = cycleNo s → reservations p base s < laneLimit s →
      Answers (.rendezvous p) s (fun t => ptr? p t = some { x with began := some (cycleNo s, true), heard := false, next := base, fallback := some base } ∧ getEntry p 4 4 t = base ∧ Keeps [.wkr, .mem, .ecc] s t)) ∧
    (x.st = .rescue → 20 ≤ sgn 32 (cycleNo s + 2 ^ 32 - x.lastCall) →
      (x.calls < rd WKR_RDV_RESCUE_LIMIT s → Answers (.rescueRecall p) s (fun t => p ∈ t.wkr.queue ∧ t.wkr.ptr = s.wkr.ptr ∧ Keeps [.wkr] s t)) ∧
      (rd WKR_RDV_RESCUE_LIMIT s ≤ x.calls → Answers (.rescueRecall p) s (fun t => ptr? p t = some { x with st := .lost } ∧ CountsUp WKR_CNT_LOST 1 s t ∧ (on EVT_CTRL_EN s = true → Pended 136 t) ∧ Keeps [.wkr] s t))) ∧
    Answers (.releasePartner p) s (fun t => ptr? p t = none ∧ (∀ n, n ≠ p → ptr? n t = ptr? n s) ∧ Result 11 0 0x24 1 0 0 t) ∧
    (x.st ≠ .granted → Answers (.wkrCall p) s (fun t => p ∈ t.wkr.queue ∧ t.wkr.ptr = s.wkr.ptr ∧ Result 11 0 0x24 2 0 0 t ∧ Keeps [.wkr] s t)) ∧
    (x.st = .granted → Answers (.wkrCall p) s (fun t => t.wkr.queue = s.wkr.queue ∧ Result 11 0 0x24 2 4 0x0B04 t ∧ Keeps [.wkr] s t))) ∧
  (∀ (p : Nat) (s : State), p < 512 → ptr? p s = none → Answers (.releasePartner p) s (fun t => t.wkr.ptr = s.wkr.ptr ∧ Result 11 0 0x24 1 4 0x0B04 t ∧ Keeps [.wkr] s t) ∧
    Answers (.wkrCall p) s (fun t => t.wkr.queue = s.wkr.queue ∧ Result 11 0 0x24 2 4 0x0B04 t ∧ Keeps [.wkr] s t))

/-- While REF and the module run: a bias sample shows SHORT, OK or OPEN by its current and counts a fault that begins; a survey that has met its goal is adopted as the next position, stored as SURVEYED, and REF is RUNNING; a record not complete in time goes out as a header alone, counted; a raw epoch goes to the raw flume. RTCM bytes go to every client's backlog, a client too far behind is closed and counted; a caster request gets 400, 401, 503 or 200. The first learning sample of a cell writes it; a save replaces the older copy of the map. A REF command waits for the cycle start and is refused while another waits. The first time solution sets site time and locks; a suspect one, or none for 2 s, ends LOCKED in HOLDOVER; the hold limit ends HOLDOVER; CONFIRM seconds of agreement return it to LOCKED with ACCEPT_REM set. -/
def Obligations.ReferenceStation : Prop :=
  (∀ (n cur : Nat) (s : State), n < 2 → awake s = true → let f := biasField n
    let low := (if n = 0 then s.ref.low1 else s.ref.low2)
    (on (if n = 0 then REF_CTRL_BIAS1_EN else REF_CTRL_BIAS2_EN) s = true → Answers (.antennaBiasSample n cur) s (fun t =>
      (1200 < cur → rd f t = 3) ∧ (40 ≤ cur → cur ≤ 1000 → rd f t = 2) ∧ (cur < 40 → 10 ≤ low + 1 → rd f t = 1) ∧ (1000 < cur → cur ≤ 1200 → rd f t = rd f s % 4) ∧
      ((1200 < cur ∧ rd f s ≠ 3 ∨ cur < 40 ∧ 10 ≤ low + 1 ∧ rd f s ≠ 1) → CountsUp REF_CNT_ANT_FAULT 1 s t) ∧ Keeps [.ref] s t)) ∧
    (on (if n = 0 then REF_CTRL_BIAS1_EN else REF_CTRL_BIAS2_EN) s = false → Answers (.antennaBiasSample n cur) s (fun t => rd f t = 0 ∧ Keeps [.ref] s t))) ∧
  (∀ (x y z : Int) (sigma : Nat) (s : State), let ran := (s.clk.frc - s.ref.surveyFrom) / 30000000000
    ((refState s = 2 ∧ (rd REF_SURVEY_DURATION s ≤ ran ∨ 10 ≤ ran ∧ sigma ≤ rd REF_SURVEY_SIGMA s)) → Answers (.surveyComplete x y z sigma) s (fun t => refState t = 3 ∧ t.ref.nextPos = some (x, y, z) ∧
      t.site.surveyed = some (x, y, z) ∧ (on EVT_CTRL_EN s = true → Pended 55 t) ∧ Keeps [.ref, .site] s t)) ∧
    (¬(refState s = 2 ∧ (rd REF_SURVEY_DURATION s ≤ ran ∨ 10 ≤ ran ∧ sigma ≤ rd REF_SURVEY_SIGMA s)) → Answers (.surveyComplete x y z sigma) s (fun t => refState t = refState s ∧ t.ref.nextPos = s.ref.nextPos ∧ Keeps [.ref] s t))) ∧
  (∀ s : State, on REF_CTRL_EN s = true → awake s = true →
    (s.ref.recordCycle ≠ some (cycleNo s) → 2 ≤ refState s → Answers .epochLate s (fun t => CountsUp REF_CNT_EPOCH_LATE 1 s t ∧ t.ref.recordCycle = some (cycleNo s) ∧
      Pushes (rd REF_FLUME_SOL_FLUME s) (obsHeader 0 (antInUse s) true false s) s t ∧ Keeps [.ref, .flm, .mem, .ecc] s t)) ∧
    (s.ref.recordCycle = some (cycleNo s) → Answers .epochLate s (fun t => Keeps [] s t)) ∧
    (∀ m : Meas, rd REF_RAW_ANT s = 0 → rd REF_RAW_RATE s ≠ 0 → rd REF_RAW_RATE s ≠ 7 → on REF_CTRL_MP_APPLY s = false →
      Answers (.rawEpoch m) s (fun t => Pushes (rd REF_FLUME_RAW_FLUME s) (obsRecord 0 m.a1 true s).1 s t ∧ Keeps [.flm, .mem, .ecc] s t)) ∧
    (∀ msgs air taken, let cl := s.ref.clients.map (fun c => (c.1, c.2 - tget 0 c.1 taken + msgs.length))
      Answers (.rtcmEpoch msgs air taken) s (fun t => Emit.rtcm msgs ∈ t.out ∧ t.ref.clients = cl.filter (fun c => decide (c.2 ≤ 32768)) ∧
        CountsUp REF_CNT_NTRIP_DROP (cl.filter (fun c => decide (32768 < c.2))).length s t ∧ Keeps [.ref, .air] s t)) ∧
    (∀ r : NtripReq, on REF_NTRIP_CFG_EN s = true →
      let refused := fun code => Answers (.ntripRequest r) s (fun t => Emit.http r.client code ∈ t.out ∧ t.ref.clients = s.ref.clients ∧ CountsUp REF_NTRIP_STATUS_REFUSED 1 s t ∧ Keeps [.ref] s t)
      (r.good = false → refused 400) ∧ (r.good = true → r.login = false → refused 401) ∧
      (r.good = true → r.login = true → rd REF_NTRIP_CFG_MAX s ≤ s.ref.clients.length → refused 503) ∧
      (r.good = true → r.login = true → s.ref.clients.length < rd REF_NTRIP_CFG_MAX s → Answers (.ntripRequest r) s (fun t => Emit.http r.client 200 ∈ t.out ∧
        t.ref.clients = (if r.mount < s.site.mounts then s.ref.clients ++ [(r.client, 0)] else s.ref.clients) ∧ Keeps [.ref] s t))) ∧
    (∀ x : MpSample, ErrorFree s → on REF_CTRL_MP_LEARN s = true → let a := cellAddr (x.ant % 2) x.sig x.el x.az s
      (60 ≤ x.lock → 1000 * rd REF_CTRL_ELEV_MASK s ≤ x.el → x.el < 90000 → x.az < 360000 → loadLe s.mem (a + 4) 2 = 0 → loadLe s.mem a 2 = 0 → loadLe s.mem (a + 2) 1 = 0 →
        Answers (.multipathLearning [x]) s (fun t => loadLe t.mem a 2 = enc 16 (satS 16 x.cmc) ∧ loadLe t.mem (a + 2) 1 = enc 8 (satS 8 x.deficit) ∧ loadLe t.mem (a + 4) 2 = 1 ∧
          (∀ b, b < a ∨ a + 8 ≤ b → byteAt t.mem b = byteAt s.mem b) ∧ on REF_STATUS_MP_DIRTY t = true ∧ Keeps [.ref, .mem, .ecc] s t)) ∧
      ((x.lock < 60 ∨ x.el < 1000 * rd REF_CTRL_ELEV_MASK s) → Answers (.multipathLearning [x]) s (fun t => Keeps [] s t)))) ∧
  (∀ s : State, let a := (match s.site.mapA with | some x => x.1 + 1 | none => 0)
    let b := (match s.site.mapB with | some x => x.1 + 1 | none => 0)
    awake s = true →
    Answers (.mapPeriodicSave true) s (fun t => (if a ≤ b then t.site.mapA = some (max a b, mapCells t) ∧ t.site.mapB = s.site.mapB else t.site.mapB = some (max a b, mapCells t) ∧ t.site.mapA = s.site.mapA) ∧
      on REF_STATUS_MP_DIRTY t = false ∧ (on EVT_CTRL_EN s = true → Pended 61 t) ∧ Keeps [.ref, .mem, .ecc, .site] s t) ∧
    Answers (.mapPeriodicSave false) s (fun t => Keeps [] s t)) ∧
  (∀ (c : Nat) (i : Instr) (s : State), (c, i) ∈ [(1, .surveyRestart), (2, .posLoad), (3, .mpClear), (4, .mpSave), (5, .timeAccept)] →
    (s.ref.pendingCmd = 0 → (c = 5 → s.clk.siteSet = true) → Answers i s (fun t => t.ref.pendingCmd = c ∧ Keeps [.ref] s t)) ∧
    ((s.ref.pendingCmd ≠ 0 ∨ c = 5 ∧ s.clk.siteSet = false) → Answers i s (fun t => t.ref.pendingCmd = s.ref.pendingCmd ∧ Result 6 0 0x58 c 4 0x06F4 t ∧ Keeps [.ref] s t))) ∧
  (∀ (m : Meas) (s : State), s.pwr.off = false → s.clk.siteSet = true → awake s = true → on REF_CTRL_EN s = true → s.held = [] →
    (s.ref.pendingCmd = 3 → Answers (.cycleStart (some m)) s (fun t => t.ref.pendingCmd = 0 ∧ Result 6 0 0x58 3 0 0 t)) ∧
    (s.ref.pendingCmd = 2 → m.spp = none → Answers (.cycleStart (some m)) s (fun t => t.ref.pendingCmd = 0 ∧ Result 6 0 0x58 2 4 0x06F4 t)) ∧
    (∀ q, s.ref.pendingCmd = 2 → m.spp = some q → 800000 * 800000 < dist2 (stagedPos s) q → Answers (.cycleStart (some m)) s (fun t => t.ref.pendingCmd = 0 ∧ Result 6 0 0x58 2 4 0x0605 t)) ∧
    (∀ q, s.ref.pendingCmd = 2 → m.spp = some q → dist2 (stagedPos s) q ≤ 800000 * 800000 →
      Answers (.cycleStart (some m)) s (fun t => t.ref.pendingCmd = 0 ∧ t.ref.pos = some (stagedPos s) ∧ Result 6 0 0x58 2 0 0 t))) ∧
  (∀ (tai : Nat) (agree : Bool) (freq : Int) (s : State), on REF_CTRL_EN s = true → awake s = true → on REF_CTRL_TIME_MASTER s = true → linkTime s = false →
    (timeState s = 0 → s.clk.siteSet = false → s.nv.time ≤ tai → Answers (.timeSolution tai agree freq) s (fun t => t.clk.siteSet = true ∧ siteNs t = tai % 2 ^ 64 ∧ timeState t = 1 ∧ on PWR_STATUS_TIME_SET t = true)) ∧
    (timeState s = 1 → s.clk.siteSet = true → s.ref.acceptRem = 0 → let err : Int := (siteNs s : Int) - tai
      (suspectNs s < err.natAbs → Answers (.timeSolution tai agree freq) s (fun t => timeState t = 2 ∧ t.ref.holdFrom = some s.clk.frc ∧ rdS REF_TIME_ERR t = satS 32 err ∧ CountsUp REF_CNT_TIME_SUSPECT 1 s t ∧
        siteNs t = siteNs s)) ∧
      (err.natAbs ≤ suspectNs s → Answers (.timeSolution tai agree freq) s (fun t => timeState t = 1 ∧ rdS REF_TIME_ERR t = satS 32 err ∧ siteNs t = siteNs s ∧ rd REF_CNT_TIME_SUSPECT t = rd REF_CNT_TIME_SUSPECT s)))) ∧
  (∀ s : State, on REF_CTRL_EN s = true → (∀ f, s.ref.lastSol = some f → 1000000000 ≤ s.clk.frc - f) →
    Answers .timeSolutionLoss s (fun t => timeState t = (if timeState s = 1 then 2 else if timeState s = 2 ∧ s.ref.returned = true then 3 else timeState s) ∧
      (timeState s = 1 → t.ref.holdFrom = some s.clk.frc) ∧ Keeps [.ref, .clk] s t)) ∧
  (∀ s : State, timeState s = 2 → s.ref.returned = false →
    Answers .holdoverLimit s (fun t => timeState t = (if 3600 * rd REF_TIME_CFG_HOLD_LIMIT s ≤ holdSeconds s then 3 else 2) ∧ Keeps [.ref] s t)) ∧
  (∀ (f : Nat) (s : State), s.ref.agreeFrom = some f → mayAccept s = true → 500000000 * rd REF_TIME_CFG_CONFIRM s ≤ s.clk.frc - f →
    Answers .timeConfirm s (fun t => timeState t = 1 ∧ t.ref.acceptRem = rdS REF_TIME_ERR s ∧ t.ref.holdFrom = none ∧ t.ref.agreeFrom = none ∧ siteNs t = siteNs s ∧ Keeps [.ref, .clk, .ptc] s t))

/-- With SOL running and no reference record waiting: at the end of a slot the one member whose slot it is gets a solution record of 64 bytes for the cycle, with MISSING set where no observation came, and its count; an unfinished solution waits, and at its deadline goes out with LATE set and counted. A cycle without a reference record is recorded as missed and SOL shows REF_MISSING. RESET_AMB and RESET_ALL wait for a member's next epoch, an older command of it ending CANCELLED, and are refused for any other index. -/
def Obligations.Solver : Prop :=
  (∀ (sl m : Nat) (l : List Solve) (z : Solve) (s : State), solOn s = true → (flume (rd SOL_FLUME_REF_IN s) s).tags = [] → s.sol.obs = [] → s.sol.open_ = [] → m < 256 → z.fleet = m →
    slotMembers sl (cycleNo s) s = [m] → l.find? (fun z => z.fleet == m) = some z →
    (z.ready = true → Answers (.slotEnd sl l) s (fun t => ∃ r, tfind m t.sol.newest = some r ∧ r.length = 64 ∧ leAt r 0 4 = cycleNo s ∧ leAt r 4 1 = m ∧ leAt r 5 1 = (filt m t).st % 256 ∧ bit (leAt r 6 2) 0 = true ∧
      CountsUp SOL_CNT_MISSING 1 s t ∧ t.sol.tally.1 = s.sol.tally.1 + 1 ∧ t.sol.open_ = [])) ∧
    (z.ready = false → Answers (.slotEnd sl l) s (fun t => t.sol.open_ = [{ fleet := m, cycle := cycleNo s, slot := sl, regular := true, update := true, payload := [] }] ∧ t.sol.newest = s.sol.newest ∧ Keeps [.sol] s t))) ∧
  (∀ (sl : Nat) (l : List Solve) (s : State), solOn s = false → Answers (.slotEnd sl l) s (fun t => t.sol.obs = s.sol.obs.filter (fun o => o.slot != sl) ∧ t.sol.newest = s.sol.newest ∧ Keeps [.sol] s t)) ∧
  (∀ (z : Solve) (stage : Nat) (s : State),
    (∀ o, s.sol.open_.find? (fun o => o.fleet == z.fleet) = some o → o.fleet < 256 → Answers (.solDeadline z stage) s (fun t => t.sol.open_ = s.sol.open_.filter (fun o => o.fleet != z.fleet) ∧
      (∃ r, tfind z.fleet t.sol.newest = some r ∧ r.length = 64 ∧ leAt r 0 4 = o.cycle % 2 ^ 32 ∧ leAt r 4 1 = z.fleet ∧ bit (leAt r 6 2) 12 = true) ∧ CountsUp SOL_CNT_DEADLINE 1 s t)) ∧
    (s.sol.open_.find? (fun o => o.fleet == z.fleet) = none → Answers (.solDeadline z stage) s (fun t => Keeps [] s t))) ∧
  (∀ s : State, solOn s = true → (flume (rd SOL_FLUME_REF_IN s) s).tags = [] → (∀ r, s.sol.ref = some r → r.cycle ≠ cycleNo s) →
    (s.sol.missed ≠ some (cycleNo s) → Answers .solRefMissing s (fun t => rd SOL_STATUS_STATE t = 2 ∧ t.sol.missed = some (cycleNo s) ∧ (on EVT_CTRL_EN s = true → Pended 72 t) ∧ Keeps [.sol] s t)) ∧
    (s.sol.missed = some (cycleNo s) → Answers .solRefMissing s (fun t => Keeps [] s t))) ∧
  (∀ (c m : Nat) (i : Instr) (s : State), m < 256 → (c, i) ∈ [(1, .resetAmb m), (2, .resetAll m)] →
    (isMember m s = false → Answers i s (fun t => filt m t = filt m s ∧ Result 7 0 0x24 c 4 0x0709 t ∧ rd SOL_CMD_RES_FLEET t = m ∧ Keeps [.sol] s t)) ∧
    (isMember m s = true → Answers i s (fun t => filt m t = { filt m s with cmd := c } ∧ (∀ n, n ≠ m → filt n t = filt n s) ∧
      ((filt m s).cmd ≠ 0 → (filt m s).cmd < 16 → Result 7 0 0x24 (filt m s).cmd 2 0 t ∧ rd SOL_CMD_RES_FLEET t = m) ∧ Keeps [.sol] s t))) ∧
  (∀ s : State, Answers .solLatClear s (fun t => rd SOL_LAT_MAX t = 0 ∧ t.sol.newest = s.sol.newest ∧ Keeps [.sol] s t))

/-- A HELLO whose HMAC holds under an access key opens a session under a new identifier and is answered WELCOME with 16 fresh bytes, or REJECT while four sessions are open; a session not heard for 60 s closes. A query gets the module's announcement. In a session, BYE closes it; PING gets site time; a code of no request gets 0x0040; REG_READ gets each register in turn and REG_WRITE writes each pair in turn, both closed for the steward's blocks; MEM_READ gets main SRAM's bytes; a stream opens, sends the next records, takes acknowledgements, resends its oldest message while 64 are outstanding, and closes; a digest is switched on and off and goes to each session that takes it. STOP sets the HOST source and answers with the epoch and serial, the lane LATCHED out of PERMIT; RESUME clears the source; RELEASE is answered at once when a cause stands against it and else waits; OVERRIDE is gated by presence. -/
def Obligations.HostSessions : Prop :=
  (∀ (peer : Nat) (d key : List Byte) (s : State), serviceOn s = true → datagramOk d = true → leAt d 3 1 = 1 → (leAt d 24 2 = 16 → lifecycle s ≠ 2) →
    folioKey (leAt d 24 2) 1 s = .ok key → (hmac key (d.take 42)).take 16 = slice d 42 16 →
    let seq := leAt d 8 4
    (s.stw.sessions.length < 4 → Answers (.hello peer d) s (fun t => ∃ id x r, sessOf id s = none ∧ r.length = 16 ∧ sessOf id t = some x ∧ (∀ j, j ≠ id → sessOf j t = sessOf j s) ∧
      x.slot = leAt d 24 2 ∧ x.peer = peer ∧ x.top = 0 ∧ x.busy = [] ∧ x.stream = none ∧ x.digest = false ∧ x.key = hkdf key (slice d 26 16 ++ r) (ascii "GSP1" ++ leBytes 4 id) 32 ∧
      (let h := gspHeader 2 id seq 0 0 0 0 32
       Emit.host peer (h ++ r ++ (hmac key (h ++ r ++ slice d 26 16)).take 16) ∈ t.out) ∧ Keeps [] s t)) ∧
    (4 ≤ s.stw.sessions.length → Answers (.hello peer d) s (fun t => t.stw.sessions = s.stw.sessions ∧ Emit.host peer (gspHeader 7 0 seq 0 4 0 0x00F2 0) ∈ t.out ∧ Keeps [] s t))) ∧
  (∀ (id : Nat) (x : Session) (s : State), sessOf id s = some x → stewardUp s = true →
    (30000000000 ≤ s.clk.frc - x.last → Answers (.sessionTimeout id) s (fun t => sessOf id t = none ∧ (∀ j, j ≠ id → sessOf j t = sessOf j s) ∧ Keeps [] s t)) ∧
    (s.clk.frc - x.last < 30000000000 → Answers (.sessionTimeout id) s (fun t => t.stw.sessions = s.stw.sessions ∧ Keeps [] s t))) ∧
  (∀ s : State, serviceOn s = true →
    Answers .mdnsQuery s (fun t => Emit.mdns (ofBe ((moduleEui s).drop 5)) (rd AIR_SITE_SITE_ID s) (rd STW_FW_VERSION s) (progVersion s) (roleCode s) (pwrState s) ∈ t.out ∧ t.stw.sessions = s.stw.sessions ∧ Keeps [] s t) ∧
    (s.clk.siteSet = true → ∀ id x, s.stw.sessions.filter (fun p => p.1 == id) = [(id, x)] →
      let seq := (x.digestSeq + 1) % 2 ^ 32
      Answers .digestSend s (fun t => Keeps [] s t ∧
        (x.digest = true → sessOf id t = some { x with digestSeq := seq } ∧
          Emit.host x.peer (gspSealed x.key (gspHeader 6 id seq 0 0 0 0 (digestBytes s).length) 4 id seq (digestBytes s)) ∈ t.out) ∧
        (x.digest = false → sessOf id t = some x)))) ∧
  (∀ (peer code id seq : Nat) (d p : List Byte) (x : Session) (s : State), Requests code d p id seq x s →
    let answered := fun (st e : Nat) (pay : List Byte) (t : State) => Responds id seq code st e pay x t
    let others := fun (t : State) => ∀ j, j ≠ id → sessOf j t = sessOf j s
    let mine := fun (t : State) (f : Session → Prop) => ∃ y, sessOf id t = some y ∧ y.key = x.key ∧ y.peer = x.peer ∧ f y
    let u := served id seq x s
    (code = 0x02 → p = [] → Answers (.bye peer d) s (fun t => answered 0 0 [] t ∧ sessOf id t = none ∧ others t ∧ Keeps [] s t)) ∧
    (code = 0x03 → p = [] → Answers (.ping peer d) s (fun t => answered 0 0 (leBytes 8 (siteNs s)) t ∧ others t ∧ Keeps [] s t)) ∧
    (knownCode code = false → Answers (.ping peer d) s (fun t => answered 4 0x0040 [] t ∧ others t ∧ Keeps [] s t)) ∧
    (code = 0x10 → p.length = 6 → 1 ≤ leAt p 4 2 → leAt p 4 2 ≤ 256 →
      let l := (List.range (leAt p 4 2)).map (fun i => leAt p 0 4 + 4 * i)
      (∀ a ∈ l, hostAddr a = true) →
      ((∀ a ∈ l, closedBlk a = false) →
        Answers (.regRead peer d) s (fun t => answered 0 0 (l.foldl (fun (q : List Byte × State) a => (q.1 ++ leBytes 4 (readControl a q.2).1, (readControl a q.2).2)) ([], u)).1 t)) ∧
      ((∃ a ∈ l, closedBlk a = true) → Answers (.regRead peer d) s (fun t => answered 4 0x0042 [] t ∧ Keeps [] s t))) ∧
    (code = 0x11 →
      let n := leAt p 0 2
      let l := (List.range n).map (fun i => (leAt p (2 + 8 * i) 4, leAt p (6 + 8 * i) 4))
      let w := writePairs l 0 u
      1 ≤ n → n ≤ 128 → p.length = 2 + 8 * n → (∀ a ∈ l, hostAddr a.1 = true) →
      Answers (.regWrite peer d) s (fun t => answered (if w.1.2 = 0 then 0 else 1) w.1.2 (leBytes 2 w.1.1) t ∧ ∀ q : Part, q.same t w.2)) ∧
    (code = 0x12 → p.length = 6 → 4 ≤ leAt p 4 2 → leAt p 4 2 ≤ 1024 → leAt p 4 2 % 4 = 0 →
      (ErrorFree s → leAt p 0 4 + leAt p 4 2 ≤ 0x4000000 → Answers (.memRead peer d) s (fun t => answered 0 0 (bytesAt s.mem (leAt p 0 4) (leAt p 4 2)) t ∧ Keeps [] s t)) ∧
      (0x4000000 < leAt p 0 4 + leAt p 4 2 → Answers (.memRead peer d) s (fun t => answered 4 0x0041 [] t ∧ Keeps [] s t))) ∧
    (code = 0x38 → p.length = 9 → leAt p 0 1 ≤ 7 →
      (x.stream = none → Answers (.ledgerOpen peer d) s (fun t => answered 0 0 [] t ∧ mine t (fun y => y.stream = some { classes := leAt p 0 1, next := leAt p 1 8 }) ∧ others t ∧ Keeps [] s t)) ∧
      (∀ v, x.stream = some v → Answers (.ledgerOpen peer d) s (fun t => answered 4 0x0047 [] t ∧ mine t (fun y => y.stream = some v) ∧ Keeps [] s t))) ∧
    (code = 0x39 → p.length = 4 → ∀ v, x.stream = some v →
      Answers (.ledgerAck peer d) s (fun t => answered 0 0 [] t ∧ mine t (fun y => y.stream = some { v with open_ := v.open_.filter (fun o => decide (leAt p 0 4 < o.1)) }) ∧ others t ∧ Keeps [] s t)) ∧
    (code = 0x3A → p = [] →
      (x.stream ≠ none → Answers (.ledgerClose peer d) s (fun t => answered 0 0 [] t ∧ mine t (fun y => y.stream = none) ∧ others t ∧ Keeps [] s t)) ∧
      (x.stream = none → Answers (.ledgerClose peer d) s (fun t => answered 4 0x00F4 [] t ∧ Keeps [] s t))) ∧
    (code = 0x50 → p = [] → Answers (.digestOn peer d) s (fun t => answered 0 0 [] t ∧ mine t (fun y => y.digest = true) ∧ others t ∧ Keeps [] s t)) ∧
    (code = 0x51 → p = [] → Answers (.digestOff peer d) s (fun t => answered 0 0 [] t ∧ mine t (fun y => y.digest = false) ∧ others t ∧ Keeps [] s t)) ∧
    (code = 0x40 → p = [] → shadowing s = false → Answers (.hostStop peer d) s (fun t => answered 0 0 (leBytes 8 (rd64 STP_EPOCH_LO STP_EPOCH_HI t) ++ leBytes 2 (rd STP_SERIAL_SERIAL t)) t ∧
      t.stp.host = true ∧ bit (rd STP_STATUS_ACTIVE t) 2 = true ∧ lane t = (if lane s = 1 ∨ lane s = 3 then 2 else lane s) ∧
      (lane s = 1 → rd STP_SERIAL_SERIAL t = (rd STP_SERIAL_SERIAL s + 1) % 2 ^ 16 ∧ rd64 STP_EPOCH_LO STP_EPOCH_HI t = siteNs s % 2 ^ 64 ∧ CountsUp STP_CNT_EPOCH 1 s t) ∧
      Keeps [.stp, .air, .pro, .axs, .dio, .eth, .can] s t)) ∧
    (code = 0x41 → p = [] → sourcesNow (setStp { s.stp with host := false } s) = 0 →
      Answers (.hostResume peer d) s (fun t => answered 0 0 [] t ∧ t.stp.host = false ∧ lane t = lane s ∧ (shadowing s = false → rd STP_STATUS_ACTIVE t = 0) ∧ Keeps [.stp] s t)) ∧
    (code = 0x42 → p = [] →
      (releaseCause s = 0 → Answers (.hostRelease peer d) s (fun t => lane t = 3 ∧ mine t (fun y => (seq, 0x42) ∈ y.busy) ∧ t.pro.chans = s.pro.chans ∧ Keeps [.stp, .air, .pro] s t)) ∧
      (releaseCause s ≠ 0 → Answers (.hostRelease peer d) s (fun t => answered 4 (releaseCause s) [] t ∧ lane t = lane s ∧ CountsUp STP_CNT_RELEASE_REFUSED 1 s t ∧ Keeps [.stp] s t))) ∧
    (code = 0x43 → p = [] →
      (windowOpen s = false → Answers (.hostOverride peer d) s (fun t => answered 4 0x0CF0 [] t ∧ lane t = lane s ∧ CountsUp KEY_CNT_GATE_REFUSED 1 s t ∧ Keeps [.stp, .key] s t)) ∧
      (windowOpen s = true → shadowing s = false → rd STP_STATUS_FAULT s = 1 → on STP_STATUS_INA s = true → on STP_STATUS_INB s = true →
        Answers (.hostOverride peer d) s (fun t => answered 0 0 [] t ∧ lane t = 2 ∧ rd STP_STATUS_FAULT t = 0)))) ∧
  (∀ (id : Nat) (x : Session) (v : Stream) (s : State), serviceOn s = true → sessOf id s = some x → x.stream = some v →
    let l := ledgerFrom v.classes v.next s
    let body := (l.take 20).flatMap recBytes
    let seq := (x.streamSeq + 1) % 2 ^ 32
    let m := gspSealed x.key (gspHeader 5 id seq 0 0 (if 20 < l.length then 2 else 0) 0 body.length) 3 id seq body
    (∀ r, (l.take 20).getLast? = some r → v.open_.length < 64 →
      (streamWaits (40 + body.length) s = false → Answers (.streamSend id) s (fun t => Emit.host x.peer m ∈ t.out ∧ Keeps [] s t ∧
        sessOf id t = some { x with streamSeq := seq, stream := some { v with next := r.seq + 1, at_ := s.clk.frc, open_ := v.open_ ++ [(seq, m)] } })) ∧
      (streamWaits (40 + body.length) s = true → Answers (.streamSend id) s (fun t => t.stw.sessions = s.stw.sessions ∧ Keeps [] s t))) ∧
    (∀ o r, v.open_ = o :: r → 64 ≤ v.open_.length → 500000000 ≤ s.clk.frc - v.at_ → streamWaits o.2.length s = false →
      Answers (.streamResend id) s (fun t => Emit.host x.peer o.2 ∈ t.out ∧ sessOf id t = some { x with stream := some { v with at_ := s.clk.frc } } ∧ Keeps [] s t)))

/-- Over the service protocol: IMAGE_BEGIN of a well-formed header takes up a download, its slot RECEIVING; GATHER_PUT keeps a piece, and with the sixty-fourth accepts a gathering whose hash holds, the last one making the slot RECEIVED, or counts a bad one; IMAGE_STATUS answers UPD_STATUS and the bitmap; a slot that is RECEIVED is verified, by IMAGE_VERIFY or the command, and the verification ends in VERIFIED or in FAILED with the first cause; a VERIFIED slot is activated, on trial in the boot pointer and its reset due, under presence and out of PERMIT; ABORT drops the download. PROG_START loads a sound image and starts F0 at its entry, or reports an unsound one with every core off; PROG_HALT, out of PERMIT, switches cores and Millrace off. A trial whose conditions have held long enough becomes CONFIRMED and its counter advances. A good write seals an edition, a bad or lost one spoils it; a counter only advances. A failed flash block costs a spare, or makes its region read-only; wear levelling shows a mean or is put off; the counters record takes SERIAL, TERM and time; a second of site time is event 248. -/
def Obligations.ImagesAndFuses : Prop :=
  (∀ (peer code id seq : Nat) (d p : List Byte) (x : Session) (s : State), Requests code d p id seq x s →
    let answered := fun (st e : Nat) (pay : List Byte) (t : State) => Responds id seq code st e pay x t
    (code = 0x20 → p.length = 552 →
      let kind := leAt p 0 1
      let slot := leAt p 1 1
      let h := slice p 40 512
      let k := 2 * (kind - 1) + slot
      let dl : Dl := { kind := kind, slot := slot, size := leAt p 4 4, lead := slice p 8 32, header := h }
      on UPD_CTRL_EN s = true → headerOk kind slot (leAt p 4 4) h = true → leAt p 2 2 = 0 → (slotOf k s).st ≠ 5 → (slotOf k s).st ≠ 6 → leAt h 12 2 ≤ gatherMax kind →
      (kindRegion kind ∈ s.fsh.ro → Answers (.imageBegin peer d) s (fun t => answered 4 0x1B0C [] t ∧ CountsUp FSH_CNT_WRITE_REFUSED 1 s t ∧ Keeps [.fsh] s t)) ∧
      (kindRegion kind ∉ s.fsh.ro → (∀ o, s.upd.dl = some o → ¬(o.kind = kind ∧ o.slot = slot ∧ o.size = leAt p 4 4 ∧ o.lead = dl.lead)) →
        Answers (.imageBegin peer d) s (fun t => answered 0 0 [] t ∧ t.upd.dl = some dl ∧ slotOf k t = { st := 1, header := h } ∧ t.upd.pieces = [] ∧ Keeps [.upd] s t)) ∧
      (∀ o, kindRegion kind ∉ s.fsh.ro → s.upd.dl = some o → o.kind = kind → o.slot = slot → o.size = leAt p 4 4 → o.lead = dl.lead →
        Answers (.imageBegin peer d) s (fun t => answered 0 0 [] t ∧ Keeps [] s t))) ∧
    (code = 0x21 → p.length = 1028 → leAt p 0 2 < 1024 → leAt p 2 1 < 64 → leAt p 3 1 = 0 →
      let g := leAt p 0 2
      let now := tins (leAt p 2 1) (p.drop 4) (tget [] g s.upd.pieces)
      (s.upd.dl = none → Answers (.gatherPut peer d) s (fun t => answered 4 0x1BF4 [] t ∧ Keeps [] s t)) ∧
      (∀ o, s.upd.dl = some o → g ∉ o.have_ → tfind (leAt p 2 1) (tget [] g s.upd.pieces) = none →
        let k := 2 * (o.kind - 1) + o.slot
        let b := joinPieces now
        (now.length < 64 → Answers (.gatherPut peer d) s (fun t => answered 0 0 [] t ∧ t.upd.dl = some o ∧ t.upd.pieces = tins g now s.upd.pieces ∧ Keeps [.upd] s t)) ∧
        (64 ≤ now.length → ∀ c, (if g = 0 then sha256 b = o.lead ∧ b.take 512 = o.header ∧ c = b
            else 0 ∈ o.have_ ∧ g < leAt o.header 12 2 ∧ plainOf o.header g b s = some c ∧ sha256 c = slice o.manifest (512 + 32 * g) 32) →
          Answers (.gatherPut peer d) s (fun t => answered 0 0 [] t ∧ (∃ e, t.upd.dl = some e ∧ e.have_ = o.have_ ++ [g]) ∧ tfind g (slotOf k t).body = some c ∧ CountsUp UPD_CNT_GATHER_OK 1 s t ∧
            (leAt o.header 12 2 ≤ o.have_.length + 1 → (slotOf k t).st = 2) ∧ Keeps [.upd, .fsh] s t)) ∧
        (64 ≤ now.length → g = 0 → (sha256 b ≠ o.lead ∨ b.take 512 ≠ o.header) →
          Answers (.gatherPut peer d) s (fun t => answered 4 0x1B04 [] t ∧ t.upd.dl = some o ∧ t.upd.slots = s.upd.slots ∧ CountsUp UPD_CNT_GATHER_BAD 1 s t ∧ Keeps [.upd] s t)))) ∧
    (code = 0x22 → p = [] → Answers (.imageStatus peer d) s (fun t => answered 0 0 (leBytes 4 (wordAt 27 4 s) ++ leBytes 128 (maskOf 1024 (fun i => (match s.upd.dl with | some o => o.have_ | none => []).contains i))) t ∧ Keeps [] s t)) ∧
    (code = 0x23 → p = [] → ∀ o, s.upd.dl = some o →
      let k := 2 * (o.kind - 1) + o.slot
      (on UPD_CTRL_EN s = true → (slotOf k s).st = 2 → s.upd.verifying = none → Answers (.imageVerify peer d) s (fun t => answered 0 0 [] t ∧ t.upd.verifying = some k ∧ t.upd.slots = s.upd.slots ∧ Keeps [.upd] s t)) ∧
      ((slotOf k s).st ≠ 2 → Answers (.imageVerify peer d) s (fun t => answered 4 0x1BF4 [] t ∧ Keeps [] s t))) ∧
    (code = 0x24 → p.length = 1 → leAt p 0 1 < 6 →
      let k := leAt p 0 1
      (windowOpen s = false → Answers (.imageActivate peer d) s (fun t => answered 4 0x1BF0 [] t ∧ CountsUp KEY_CNT_GATE_REFUSED 1 s t ∧ Keeps [.key] s t)) ∧
      (windowOpen s = true → anyTrial s = false → lane s ≠ 1 → (slotOf k s).st = 3 → 0 ∉ s.fsh.ro → (bootPtr s).kinds.length = 3 →
        Answers (.imageActivate peer d) s (fun t => answered 0 0 [] t ∧ (slotOf k t).st = 5 ∧ (bootKind (k / 2) t).trial = some (k % 2) ∧ t.upd.resetDue = true ∧ CountsUp UPD_CNT_ACTIVATE 1 s t ∧ Keeps [.upd] s t))) ∧
    (code = 0x28 → p.length = 1024 → ∀ good lost,
      (windowOpen s = false → Answers (.editionWrite peer d good lost) s (fun t => answered 4 0x1CF0 [] t ∧ t.otp = s.otp)) ∧
      (windowOpen s = true → s.otp.editions.length < 5 → editionOk p s = true →
        let whole := good && !lost
        Answers (.editionWrite peer d good lost) s (fun t => (if whole then answered 0 0 [] t else answered 1 0x1C02 [] t ∧ CountsUp OTP_CNT_SPOILED 1 s t) ∧
          t.otp.editions = tins (leAt p 4 1) { bytes := p.take 1020, sealed := whole } s.otp.editions ∧ t.otp.current = s.otp.current ∧ t.otp.ctrs = s.otp.ctrs ∧ Keeps [.otp] s t))) ∧
    (code = 0x30 → p = [] →
      (∀ k, programRuns s = false → programSlot s = some k → awake s = true →
        let img := slotContent k s
        (imageOk img = true → Answers (.progStart peer d) s (fun t => answered 0 0 [] t ∧ rd STW_BOOT_STAGE t = 3 ∧ (coreOf 0 t).st = .run ∧ (coreOf 0 t).pc = BitVec.ofNat 32 (leAt img 12 4) ∧
          (coreOf 0 t).gr 30 = BitVec.ofNat 64 (leAt img 20 4) ∧ (coreOf 0 t).gr 1 = 0 ∧ t.mem = ((sectionsOf img).filter isLoaded).foldl (fun m y => setBytes m y.addr (padTo y.memSize y.data)) s.mem ∧ Keeps [.mem, .flm, .ccx] s t)) ∧
        (imageOk img = false → Answers (.progStart peer d) s (fun t => answered 1 0x1E11 [] t ∧ rd CCX_CTRL_EN t = 0 ∧ (∀ n, n < 16 → (coreOf n t).st = .off) ∧ t.mem = s.mem ∧ Keeps [.upd, .ccx] s t))) ∧
      (programRuns s = true → Answers (.progStart peer d) s (fun t => answered 4 0x00F4 [] t ∧ Keeps [] s t))) ∧
    (code = 0x31 → p = [] →
      (lane s = 1 → Answers (.progHalt peer d) s (fun t => answered 4 0x0046 [] t ∧ Keeps [] s t)) ∧
      (lane s ≠ 1 → Answers (.progHalt peer d) s (fun t => answered 0 0 [] t ∧ rd CCX_CTRL_EN t = 0 ∧ on MRC_CTRL_EN t = false ∧ t.stp = s.stp)))) ∧
  (∀ (k0 : Nat) (s : State), let k := k0 % 8
    (on UPD_CTRL_EN s = true → (slotOf k s).st = 2 → s.upd.verifying = none → Answers (.updVerify k0) s (fun t => Result 27 0 0x3C 2 0 0 t ∧ t.upd.verifying = some k ∧ Keeps [.upd] s t)) ∧
    ((slotOf k s).st ≠ 2 → Answers (.updVerify k0) s (fun t => Result 27 0 0x3C 2 4 0x1BF4 t ∧ t.upd.verifying = s.upd.verifying ∧ Keeps [.upd] s t)) ∧
    (k < 6 → windowOpen s = true → anyTrial s = false → lane s ≠ 1 → (slotOf k s).st = 3 → 0 ∉ s.fsh.ro → (bootPtr s).kinds.length = 3 →
      Answers (.updActivate k0) s (fun t => Result 27 0 0x3C 3 0 0 t ∧ (slotOf k t).st = 5 ∧ (bootKind (k / 2) t).trial = some (k % 2) ∧ t.upd.resetDue = true ∧ Keeps [.upd] s t)) ∧
    (windowOpen s = true → lane s = 1 → anyTrial s = false → Answers (.updActivate k0) s (fun t => Result 27 0 0x3C 3 4 0x1B0A t ∧ t.upd.slots = s.upd.slots ∧ Keeps [.upd] s t))) ∧
  (∀ s : State, (s.upd.dl = none → Answers .updAbort s (fun t => Result 27 0 0x3C 1 4 0x1BF4 t ∧ Keeps [.upd] s t)) ∧
    (∀ o, s.upd.dl = some o → Answers .updAbort s (fun t => Result 27 0 0x3C 1 0 0 t ∧ t.upd.dl = none ∧ t.upd.pieces = [] ∧
      (let k := 2 * (o.kind - 1) + o.slot
       slotOf k t = if (slotOf k s).st = 1 then {} else slotOf k s) ∧ Keeps [.upd] s t))) ∧
  (∀ (bad corrected : List Nat) (k : Nat) (s : State), s.upd.verifying = some k →
    let c := verifyCause k bad s
    Answers (.verificationEnd bad corrected) s (fun t => t.upd.verifying = none ∧ (slotOf k t).st = (if c = 0 then 3 else 4) ∧ (slotOf k t).cause = c ∧ (c ≠ 0 → CountsUp UPD_CNT_VERIFY_FAIL 1 s t) ∧ Keeps [.upd, .fsh] s t)) ∧
  (∀ (kind tr f : Nat) (s : State), let i := kind % 3
    trialKind s = some i → (bootKind i s).trial = some tr → trialHolds i s = true → s.upd.heldFrom = some f → (bootPtr s).kinds.length = 3 →
    let w := max 10 (min 540 (rd UPD_CTRL_CONFIRM_HOLD s))
    (w ≤ (s.clk.frc - f) / 500000000 → Answers (.trialConfirm kind) s (fun t => bootKind i t = { conf := tr } ∧ (slotOf (2 * i + tr) t).st = 6 ∧
      ctrStep i t = max (ctrStep i s) (min 127 (leAt (slotOf (2 * i + tr) s).header 6 1)) ∧ CountsUp UPD_CNT_CONFIRM 1 s t ∧ Keeps [.upd, .otp, .nv] s t)) ∧
    ((s.clk.frc - f) / 500000000 < w → Answers (.trialConfirm kind) s (fun t => bootPtr t = bootPtr s ∧ t.upd.slots = s.upd.slots ∧ Keeps [.upd] s t))) ∧
  (∀ (e : List Byte) (good lost : Bool) (s : State),
    (windowOpen s = false → Answers (.otpWriteEdition e good lost) s (fun t => Result 28 0 0x14 1 4 0x1CF0 t ∧ t.otp.editions = s.otp.editions ∧ CountsUp KEY_CNT_GATE_REFUSED 1 s t ∧ Keeps [.otp, .key] s t)) ∧
    (windowOpen s = true → s.otp.editions.length < 5 → editionOk e s = true →
      let whole := good && !lost
      Answers (.otpWriteEdition e good lost) s (fun t => Result 28 0 0x14 1 (if whole then 0 else 1) (if whole then 0 else 0x1C02) t ∧
        t.otp.editions = tins (leAt e 4 1) { bytes := e.take 1020, sealed := whole } s.otp.editions ∧ t.otp.current = s.otp.current ∧ Keeps [.otp] s t)) ∧
    (windowOpen s = true → s.otp.editions.length < 5 → editionOk e s = false → Answers (.otpWriteEdition e good lost) s (fun t => Result 28 0 0x14 1 4 0x1C01 t ∧ t.otp.editions = s.otp.editions ∧ Keeps [.otp] s t))) ∧
  (∀ (ctr step : Nat) (s : State), let c := ctr % 4
    (ctrStep c s < min 127 step → Answers (.otpAdvance ctr step) s (fun t => Result 28 0 0x14 2 0 0 t ∧ ctrStep c t = min 127 step ∧ (∀ e, e ≠ c → ctrStep e t = ctrStep e s) ∧ Keeps [.otp, .upd] s t)) ∧
    (min 127 step ≤ ctrStep c s → Answers (.otpAdvance ctr step) s (fun t => Result 28 0 0x14 2 4 0x1C03 t ∧ t.otp.ctrs = s.otp.ctrs ∧ Keeps [.otp] s t))) ∧
  (∀ (region mean : Nat) (erase : Bool) (s : State), let k := region % 9
    s.pwr.off = false → on FSH_CTRL_EN s = true →
    (s.held = [] → (sparesLeft s ≠ 0 → Answers (.flashOpFail region erase) s (fun t => t.fsh.used = s.fsh.used + 1 ∧ t.fsh.ro = s.fsh.ro ∧ CountsUp FSH_CNT_RETIRED 1 s t ∧
        CountsUp (if erase then FSH_CNT_ERASE_FAIL else FSH_CNT_PROG_FAIL) 1 s t ∧ Keeps [.fsh] s t)) ∧
      (sparesLeft s = 0 → Answers (.flashOpFail region erase) s (fun t => tget 0 k t.fsh.retired = tget 0 k s.fsh.retired + 1 ∧ (k ≠ 8 → k ∈ t.fsh.ro) ∧ t.fsh.used = s.fsh.used ∧ Keeps [.fsh] s t))) ∧
    (on FSH_CTRL_WEAR_EN s = true → Answers (.wearLevelling region mean false) s (fun t => rd (FSH_REGION_MEAN k) t = mean % 2 ^ 15 ∧ Keeps [.fsh] s t) ∧
      Answers (.wearLevelling region mean true) s (fun t => CountsUp FSH_CNT_WEAR_DEFER 1 s t ∧ Keeps [.fsh] s t))) ∧
  (∀ s : State, s.pwr.off = false →
    ((rd STP_SERIAL_SERIAL s ≠ s.nv.serial ∨ rd TWN_STATUS_TERM s ≠ s.nv.term ∨ s.nv.time + 60000000000 ≤ siteNs s) →
      (2 ∉ s.fsh.ro → Answers .countersAppend s (fun t => t.nv = { s.nv with serial := rd STP_SERIAL_SERIAL s, term := rd TWN_STATUS_TERM s, time := max s.nv.time (siteNs s) } ∧ Keeps [.nv] s t)) ∧
      (2 ∈ s.fsh.ro → Answers .countersAppend s (fun t => t.nv = s.nv ∧ CountsUp FSH_CNT_WRITE_REFUSED 1 s t ∧ Keeps [.fsh] s t))) ∧
    (rd STP_SERIAL_SERIAL s = s.nv.serial → rd TWN_STATUS_TERM s = s.nv.term → siteNs s < s.nv.time + 60000000000 → Answers .countersAppend s (fun t => Keeps [] s t)) ∧
    (s.clk.siteSet = true → Settled s → on EVT_CTRL_EN s = true → Answers .second s (fun t => Pended 248 t ∧ Keeps [.ptc, .upd] s t)))

/-- Under presence: CREATE_QUIRE of an empty slot puts a quire of generation 1 with a fresh nonce into it; IMPORT_KEY puts the key wrapped under its quire, once its KCV holds, GENERATE_KEY a fresh key, DERIVE_KEY the derived one, each with the next generation and its own KCV; a KCV that does not hold changes nothing and is counted; DESTROY empties the slot and revokes the keys under a quire; DECOMMISSION advances the epoch counter, erases every slot, closes every session and leaves the lifecycle OPEN. Without presence each is refused with 0x1AF0. DEBUG_ENABLE sets DEBUG and the test root out of PERMIT; TWIN_PAIR stores the partner and starts the pair; CASCADE_JOIN on a module with CAS off enables it as a tributary and sends its join. -/
def Obligations.KeyChanges : Prop :=
  ∀ (peer code id seq steps : Nat) (d p : List Byte) (x : Session) (s : State), Requests code d p id seq x s →
    let answered := fun (st e : Nat) (pay : List Byte) (t : State) => Responds id seq code st e pay x t
    let usage := leAt p 1 1
    let n := leAt p 2 2
    let parent := leAt p 4 2
    let len := leAt p 6 1
    (code = 0x29 → keyPayloadOk p = true →
      (windowOpen s = false → ∀ i, (leAt p 0 1 = 1 ∧ i = .createQuire peer d steps) ∨ (leAt p 0 1 = 2 ∧ i = .importKey peer d steps) ∨ (leAt p 0 1 = 3 ∧ i = .generateKey peer d steps) ∨
          (leAt p 0 1 = 4 ∧ i = .deriveKey peer d steps) ∨ (leAt p 0 1 = 5 ∧ i = .destroyKey peer d steps) ∨ (leAt p 0 1 = 6 ∧ i = .decommission peer d) →
        Answers i s (fun t => answered 4 0x1AF0 [] t ∧ CountsUp KEY_CNT_GATE_REFUSED 1 s t ∧ Keeps [.key] s t)) ∧
      (windowOpen s = true → 6 ≤ steps →
        (leAt p 0 1 = 1 → quireRange n = true → 3 ∉ s.fsh.ro → usage = 15 → slotNow n s = none → on KEY_STATUS_DRBG_OK s = true →
          Answers (.createQuire peer d steps) s (fun t => answered 0 0 [] t ∧ (∃ r kcv, r.length = 16 ∧ slotNow n t = some { kind := 1, usage := 15, len := 32, gen := 1, nonce := r, kcv := kcv }) ∧
            (∀ m, m ≠ n → slotRec m t = slotRec m s) ∧ Keeps [.key] s t)) ∧
        (∀ q, folioRefusal n parent usage s = 0 → parentKey parent s = some q → (testRootOn s = true ∨ tfind n s.key.dbg = none) →
          let base : KSlot := { kind := 2, usage := usage, parent := parent, len := len, gen := nextGen n s }
          (leAt p 0 1 = 2 → let key := slice p 12 len
            (slice p 8 3 = kcvOf usage key → Answers (.importKey peer d steps) s (fun t => answered 0 0 [] t ∧ slotNow n t = some { base with origin := 2, cur := keyWrap q key, kcv := kcvOf usage key } ∧ ∀ m, m ≠ n → slotRec m t = slotRec m s)) ∧
            (slice p 8 3 ≠ kcvOf usage key → Answers (.importKey peer d steps) s (fun t => answered 1 0x1A04 [] t ∧ CountsUp KEY_CNT_KCV_FAIL 1 s t ∧ (∀ m, slotNow m t = slotNow m s) ∧ Keeps [.key] s t))) ∧
          (leAt p 0 1 = 3 → on KEY_STATUS_DRBG_OK s = true →
            Answers (.generateKey peer d steps) s (fun t => answered 0 0 [] t ∧ (∃ key, key.length = len ∧ slotNow n t = some { base with origin := 3, cur := keyWrap q key, kcv := kcvOf usage key }) ∧ ∀ m, m ≠ n → slotRec m t = slotRec m s)) ∧
          (leAt p 0 1 = 4 →
            Answers (.deriveKey peer d steps) s (fun t => answered 0 0 [] t ∧ slotNow n t = some { base with origin := 1, kcv := kcvOf usage (derivedKey n { base with origin := 1 } q) } ∧ ∀ m, m ≠ n → slotRec m t = slotRec m s))) ∧
        (∀ k, leAt p 0 1 = 5 → (folioRange n = true ∨ quireRange n = true) → lockedSlot n s = false → 3 ∉ s.fsh.ro → slotNow n s = some k → isSealed n s = false → 6 + 2 * s.key.recA.length ≤ steps →
          Answers (.destroyKey peer d steps) s (fun t => answered 0 0 [] t ∧
            (testRootOn s = true → tfind n t.key.dbg = none ∧ t.key.recA = s.key.recA) ∧
            (testRootOn s = false → tfind n s.key.dbg = none → (s.key.recA.filter (fun r => r.1 == n)).length ≤ 1 → slotRec n t = none ∧
              ∀ m c, m ≠ n → k.kind = 1 → c.kind = 2 → c.parent = n → s.key.recA.filter (fun r => r.1 == m) = [(m, { now := some c })] → slotRec m t = some { c with st := 2 }))) ∧
        (leAt p 0 1 = 6 → on STP_STATUS_PERMIT s = false → ctrStep 3 s < 127 →
          Answers (.decommission peer d) s (fun t => answered 0 0 [] t ∧ t.key.recA = [] ∧ t.key.recB = [] ∧ t.key.dbg = [] ∧ ctrStep 3 t = ctrStep 3 s + 1 ∧ lifecycle t = 1 ∧ t.stw.sessions = [] ∧
            (twnRole s ≠ 0 → t.nv.pair = none))))) ∧
    (code = 0x2A → p = [] →
      (windowOpen s = false → Answers (.debugEnable peer d) s (fun t => answered 4 0x1AF0 [] t ∧ on KEY_STATUS_DEBUG t = on KEY_STATUS_DEBUG s ∧ CountsUp KEY_CNT_GATE_REFUSED 1 s t ∧ Keeps [.key] s t)) ∧
      (windowOpen s = true → on STP_STATUS_PERMIT s = true → Answers (.debugEnable peer d) s (fun t => answered 4 0x1A09 [] t ∧ Keeps [] s t)) ∧
      (windowOpen s = true → on STP_STATUS_PERMIT s = false → Answers (.debugEnable peer d) s (fun t => answered 0 0 [] t ∧ on KEY_STATUS_DEBUG t = true ∧ on KEY_STATUS_TEST_ROOT t = true ∧ Keeps [.key] s t))) ∧
    (code = 0x2B → p.length = 8 → twnRole s = 0 → windowOpen s = true →
      (∀ pub, Answers (.twinPair peer d (some pub)) s (fun t => answered 0 0 [] t ∧ t.nv.pair = some p ∧ twnRole t = 1 ∧ on TWN_CTRL_EN t = true ∧ Keeps [.key, .nv, .air] s t)) ∧
      Answers (.twinPair peer d none) s (fun t => answered 4 0x1803 [] t ∧ t.nv = s.nv ∧ Keeps [] s t)) ∧
    (code = 0x2C → p.length = 9 → leAt p 8 1 < 8 → windowOpen s = true → on CAS_CTRL_EN s = false →
      Answers (.cascadeJoin peer d) s (fun t => answered 0 0 [] t ∧ on CAS_CTRL_EN t = true ∧ rd CAS_CTRL_ROLE t = 2 ∧ rd CAS_CTRL_MEMBER t = leAt p 8 1 ∧ casState t = 1 ∧ t.cas.joinAt = some s.clk.frc ∧
        (∃ f, Emit.cas none f ∈ t.out) ∧ Keeps [.clm] s t))

/-- With the pair on: a frame whose tag fails is counted and changes nothing else. An active sends its lease, and with every fourth frame the plans of its axes; a lease with a higher TERM makes it STALE with its transmitter off. A lease makes a starting module STALE and is noted by a standby, which a lease ahead of its journal makes STALE. A standby's frame shows its health, fitness and stop input, which stops a permitted lane, and is answered by a RESYNC when it asks. A standby applies the next mirror record and no other: an old one changes nothing, a gap makes it STALE; a RESYNC makes a STALE module STANDBY at the SEQ named. A fit standby without a lease for LEASE takes over: ACTIVE, TERM one higher, transmitting, its sessions closed; so it does when the active yields to it, from the hop named. An active yields to a fit partner by command or on a fault of its transmit chain. A starting module that hears no partner, or a starting one of higher EUI-64, becomes ACTIVE. The I/O module takes the plans of channels 256 to 263 and the outputs and returns its registers; after 5 ms without them it holds its axes. Pairing under presence stores the partner and starts; unpairing leaves a single module. -/
def Obligations.TwinPair : Prop :=
  (∀ s : State, twnOn s = true →
    let frames := fun (i : Instr) => (∃ a b c e, i = .leaseRx false a b c e) ∨ (∃ a b c e f g, i = .standbyFrame false a b c e f g) ∨ (∃ a b, i = .mirrorFrame false a b) ∨ (∃ a b c, i = .yieldFrame false a b c) ∨
      (∃ a b, i = .resyncFrame false a b) ∨ (∃ a b c, i = .ioFrame false a b c)
    let active := fun (t : State) => twnRole t = 2 ∧ rd TWN_STATUS_TERM t = (rd TWN_STATUS_TERM s + 1) % 2 ^ 16 ∧ on AIR_CTRL_TX_EN t = true ∧ t.twn.partnerStale = true
    (∀ i, frames i → Answers i s (fun t => CountsUp TWN_CNT_LINK_BAD 1 s t ∧ twnRole t = twnRole s ∧ Keeps [] s t)) ∧
    (twnRole s = 2 → Answers .leaseTx s (fun t => Emit.lease (rd TWN_STATUS_TERM s) (siteNs s) (twnSeq s) (lane s) (rd STP_STATUS_ACTIVE s) ∈ t.out ∧ twnRole t = 2 ∧
      (on TWN_CTRL_IO_EN s = true → on TWN_CTRL_IO_HOME s = true → (s.twn.sent + 1) % 4 = 0 → Emit.ioPlan (s.pro.chans.filter (fun p => decide (256 ≤ p.1))) (rd DIO_OUT_OUT s) ∈ t.out) ∧ Keeps [] s t)) ∧
    (∀ term site seq act,
      (twnRole s = 1 → Answers (.leaseRx true term site seq act) s (fun t => twnRole t = 4 ∧ rd TWN_STATUS_TERM t = term % 65536 ∧ CountsUp TWN_CNT_STALE 1 s t ∧ Emit.askResync ∈ t.out ∧ Keeps [.air] s t)) ∧
      (twnRole s = 2 → rd TWN_STATUS_TERM s < term % 65536 → Answers (.leaseRx true term site seq act) s (fun t => twnRole t = 4 ∧ rd TWN_STATUS_TERM t = term % 65536 ∧ on AIR_CTRL_TX_EN t = false ∧ Emit.askResync ∈ t.out ∧ Keeps [.air] s t)) ∧
      (twnRole s = 2 → term % 65536 ≤ rd TWN_STATUS_TERM s → Answers (.leaseRx true term site seq act) s (fun t => twnRole t = 2 ∧ rd TWN_STATUS_TERM t = rd TWN_STATUS_TERM s ∧ Keeps [] s t)) ∧
      (twnRole s = 3 → s.twn.yieldAt = none → Answers (.leaseRx true term site seq act) s (fun t => t.twn.leaseAt = some s.clk.frc ∧
        twnRole t = (if 0 < sgn 32 (seq % 2 ^ 32 + 2 ^ 32 - twnSeq s) then 4 else 3) ∧ Keeps [.clk, .pwr, .ptc, .air] s t))) ∧
    (∀ term health seq stop ask lag, twnRole s = 2 → term % 65536 ≤ rd TWN_STATUS_TERM s →
      Answers (.standbyFrame true term health seq stop ask lag) s (fun t => rd TWN_HEALTH_FIT t = bits health 8 1 ∧ rd TWN_HEALTH_TESTS t = health % 256 ∧ on TWN_STATUS_PARTNER_FIT t = bit health 8 ∧
        t.twn.partnerSeq = seq ∧ t.twn.partnerStop = stop ∧ twnRole t = 2 ∧ (stop = true → lane s = 1 → lane t = 2 ∧ bit (rd STP_STATUS_ACTIVE t) 6 = true) ∧
        (ask = true → Emit.resync (twnSeq s) (fullState s) ∈ t.out ∧ t.twn.partnerStale = false) ∧ Keeps [.stp, .air, .pro, .axs, .dio, .eth, .can] s t)) ∧
    (∀ seq r, twnRole s = 3 → let ahead := sgn 32 (seq % 2 ^ 32 + 2 ^ 32 - twnSeq s)
      (ahead = 1 → Answers (.mirrorFrame true seq r) s (fun t => (∀ q : Part, q.same t (applyRec r s)) ∧ ((∀ a v, r ≠ .write a v) → twnSeq t = seq % 2 ^ 32 ∧ twnRole t = 3) ∧
        (∀ k c, r = .claim k (some c) → claim? k t = some c) ∧ (∀ k, r = .claim k none → claim? k t = none) ∧ (∀ m i, r = .idx m (some i) → idx? m t = some i) ∧ (∀ l, r = .orders l → t.air.orders = l))) ∧
      (ahead ≤ 0 → Answers (.mirrorFrame true seq r) s (fun t => twnRole t = 3 ∧ twnSeq t = twnSeq s ∧ Keeps [] s t)) ∧
      (1 < ahead → Answers (.mirrorFrame true seq r) s (fun t => twnRole t = 4 ∧ CountsUp TWN_CNT_STALE 1 s t ∧ Emit.askResync ∈ t.out ∧ Keeps [.air] s t))) ∧
    (∀ seq l, twnRole s = 4 → Answers (.resyncFrame true seq l) s (fun t => twnRole t = 3 ∧ twnSeq t = seq % 2 ^ 32 ∧ t.twn.whole = true)) ∧
    (selfFit s = true → since s.twn.leaseAt (leaseTicks s) s = true → Answers (.hopCheck false) s (fun t => active t ∧ t.stw.sessions = [] ∧ CountsUp TWN_CNT_TAKEOVER 1 s t ∧
      Emit.lease ((rd TWN_STATUS_TERM s + 1) % 2 ^ 16) (siteNs s) (twnSeq s) (lane s) (rd STP_STATUS_ACTIVE s) ∈ t.out)) ∧
    ((selfFit s = false ∨ since s.twn.leaseAt (leaseTicks s) s = false) → Answers (.hopCheck false) s (fun t => twnRole t = twnRole s ∧ Keeps [] s t)) ∧
    Answers (.hopCheck true) s (fun t => twnRole t = twnRole s ∧ Keeps [] s t) ∧
    (∀ term cyc hop, selfFit s = true → rd TWN_STATUS_TERM s ≤ term % 65536 → Answers (.yieldFrame true term cyc hop) s (fun t => active t ∧ t.twn.yieldAt = some (cyc % 2 ^ 32, hop % 3) ∧ CountsUp TWN_CNT_TAKEOVER 1 s t)) ∧
    (let gives := fun (t : State) => twnRole t = 3 ∧ t.twn.yieldAt = some (yieldHop s) ∧ CountsUp TWN_CNT_YIELD 1 s t ∧ Emit.yield (rd TWN_STATUS_TERM s) (yieldHop s).1 (yieldHop s).2 ∈ t.out ∧ Keeps [.air] s t
     (twnRole s = 2 → partnerFit s = true → Answers .twnYield s (fun t => gives t ∧ Result 24 0 0x24 1 0 0 t) ∧ Answers .transmitChainFault s gives) ∧
     (twnRole s = 2 → partnerFit s = false → Answers .twnYield s (fun t => twnRole t = 2 ∧ Result 24 0 0x24 1 4 0x1802 t ∧ Keeps [] s t) ∧ Answers .transmitChainFault s (fun t => twnRole t = 2 ∧ Keeps [] s t)) ∧
     (twnRole s ≠ 2 → Answers .twnYield s (fun t => twnRole t = twnRole s ∧ Result 24 0 0x24 1 4 0x18F4 t ∧ Keeps [] s t))) ∧
    (twnRole s = 4 → Answers .twnResync s (fun t => Result 24 0 0x24 2 0 0 t ∧ Emit.askResync ∈ t.out ∧ Keeps [] s t)) ∧
    (twnRole s ≠ 4 → Answers .twnResync s (fun t => Result 24 0 0x24 2 4 0x18F4 t ∧ Keeps [] s t)) ∧
    (∀ heard partner, twnRole s = 1 → let goes := (heard = false ∧ cycleLen s ≤ s.clk.frc - s.twn.startAt) ∨ (partner = true ∧ euiNum (moduleEui s) < euiNum (partnerEui s))
      (goes → Answers (.twinStartTimeout heard partner) s active) ∧ (¬ goes → Answers (.twinStartTimeout heard partner) s (fun t => twnRole t = 1 ∧ Keeps [] s t))) ∧
    (∀ plan out inputs,
      (ioModule s = true → Answers (.ioFrame true plan out inputs) s (fun t => t.twn.ioAt = some s.clk.frc ∧ t.twn.ioHeld = false ∧ (∃ l, Emit.ioInputs l ∈ t.out) ∧
        (∀ n c, 256 ≤ n → n < 264 → plan.filter (fun p => p.1 == n) = [(n, c)] → chan? n t = some c) ∧ (∀ n, (n < 256 ∨ 264 ≤ n ∨ plan.filter (fun p => p.1 == n) = []) → chan? n t = chan? n s) ∧
        (doubleFaulted s = false → laneInPermit s = true → ∀ k, k < 8 → fbit DIO_OUT_OUT k t = bit out k) ∧ Keeps [.pro, .dio] s t)) ∧
      (on TWN_CTRL_IO_EN s = true → on TWN_CTRL_IO_HOME s = true → twnRole s = 2 → Answers (.ioFrame true plan out inputs) s (fun t => Keeps [.axs, .dio] s t ∧
        ∀ b k v, (b = 22 ∨ b = 23) → inputs.filter (fun x => x.1 == b && x.2.1 == k) = [(b, k, v)] → tfind k (regsAt b t) = some (v % 2 ^ 32)))) ∧
    (ioModule s = true → s.twn.ioHeld = false → since s.twn.ioAt 2500000 s = true → Answers .ioLoss s (fun t => t.twn.ioHeld = true ∧ CountsUp TWN_CNT_IO_LOST 1 s t ∧
      (∀ n, n < 8 → chan? (256 + n) t = (chan? (256 + n) s).map (fun c => if c.mode = .stop then c else { c with mode := .hold })) ∧ Keeps [.pro] s t)) ∧
    (∀ obs, shadowing s = true → Answers (.standbyTx obs) s (fun t => Emit.standby (rd TWN_STATUS_TERM s) (256 * rd TWN_HEALTH_FIT t + rd TWN_HEALTH_TESTS t) (twnSeq s) (bit (sourcesNow s) 0) ∈ t.out ∧
      (twnRole s = 3 → twnRole t = (if on (ETH_STATUS_LINK (rd TWN_CTRL_PORT s)) s then 3 else 4)) ∧ Keeps [.air] s t))) ∧
  (∀ s : State,
    (twnOn s = false → Answers .twnYield s (fun t => Result 24 0 0x24 1 4 0x18F4 t ∧ Keeps [] s t) ∧ Answers .twnResync s (fun t => Result 24 0 0x24 2 4 0x18F4 t ∧ Keeps [] s t)) ∧
    (twnRole s = 0 → windowOpen s = true → (∀ pub, Answers (.twnPair (some pub)) s (fun t => twnRole t = 1 ∧ on TWN_CTRL_EN t = true ∧ t.nv.pair = some (partnerEui s) ∧ Result 24 0 0x24 3 0 0 t ∧ Keeps [.key, .nv, .air] s t)) ∧
      Answers (.twnPair none) s (fun t => twnRole t = 0 ∧ Result 24 0 0x24 3 4 0x1803 t ∧ Keeps [] s t)) ∧
    (∀ pub, windowOpen s = false → Answers (.twnPair pub) s (fun t => twnRole t = twnRole s ∧ Result 24 0 0x24 3 4 0x18F0 t ∧ CountsUp KEY_CNT_GATE_REFUSED 1 s t ∧ Keeps [.key] s t)) ∧
    (∀ agreed, twnRole s ≠ 0 → windowOpen s = true → ¬(twnRole s = 2 ∧ partnerFit s = true) →
      ((agreed = true ∨ partnerFit s = false) → Answers (.twnUnpair agreed) s (fun t => twnRole t = 0 ∧ on TWN_CTRL_EN t = false ∧ t.nv.pair = none ∧ Result 24 0 0x24 4 0 0 t ∧ Keeps [.nv, .air] s t)) ∧
      (agreed = false → partnerFit s = true → Answers (.twnUnpair agreed) s (fun t => twnRole t = twnRole s ∧ Result 24 0 0x24 4 4 0x1803 t ∧ Keeps [] s t))))

/-- A headwater sends heartbeats with site time and cycle; a tributary that hears one notes it and the offset, and in ISOLATED asks for reconciliation. A joined tributary that hears none for HW_LEASE is ISOLATED with CLM isolated, its waiting requests refused and its claims kept; reconciliation at the headwater frees what the tributary freed of its own and no other module's claim and reaches the member again, at the tributary puts the replica in place and it is JOINED. A join under presence is sent, times out after 1 s, and is answered: accepted a tributary aligns with its broadcasts withheld, refused it is OFF; aligned for 10 s it is JOINED. Leaving is asked for in JOINED; a member lost for 60 s is evicted in LATCHED with its claims. A latency is shown with the highest; a member that does not answer is unreachable. A stop notice of another member stops a permitted lane. Frames at the headwater: a join that meets the conditions adds the member and one that does not is refused with its cause, a member without claims leaves, a request reaches CLM, progress is noted; at a tributary: answers, results and the replica. -/
def Obligations.Cascade : Prop :=
  (∀ s : State, heads s = true → Answers .heartbeatTx s (fun t => Emit.heartbeat (siteNs s) (cycleNo s) ∈ t.out ∧ Keeps [] s t)) ∧
  (∀ (site : Nat) (off : Int) (s : State), isTrib s = true → 2 ≤ casState s →
    Answers (.heartbeatRx true site off) s (fun t => t.cas.beatAt = some s.clk.frc ∧ rdS CAS_ALIGN t = satS 32 off ∧ casState t = (if casState s = 4 then 5 else casState s) ∧
      (casState s = 4 → Emit.reconcile s.cas.freed s.cas.orphans ∈ t.out) ∧ Keeps [.clk, .pwr, .ptc, .air] s t) ∧
    Answers (.heartbeatRx false site off) s (fun t => t.cas = s.cas ∧ Keeps [] s t)) ∧
  (∀ s : State, isTrib s = true → casState s = 3 →
    (since s.cas.beatAt (hwLease s) s = true → Answers .headwaterLost s (fun t => casState t = 4 ∧ clmState t = 3 ∧ t.clm.forwarded = [] ∧ t.clm.claims = s.clm.claims ∧ CountsUp CAS_CNT_ISOLATED 1 s t ∧
      t.cas.orphans = s.cas.orphans ++ s.clm.forwarded.map (fun x => (x.1, x.2.1)) ∧ Keeps [.clm, .air, .flm, .mem, .ecc] s t)) ∧
    (since s.cas.beatAt (hwLease s) s = false → Answers .headwaterLost s (fun t => t.cas = s.cas ∧ Keeps [] s t)) ∧
    Answers .casLeave s (fun t => Emit.cas none (.leave (rd CAS_CTRL_MEMBER s)) ∈ t.out ∧ casState t = 3 ∧ Keeps [] s t)) ∧
  (∀ (m : Nat) (freed : List Nat) (orphans : List (Nat × Nat)) (rep : List (Nat × Claim)) (s : State), m < 8 →
    (heads s = true → (tfind m s.cas.members).isSome = true → Answers (.reconciliation m freed orphans rep) s (fun t => Emit.reconciled m ∈ t.out ∧ bit (rd CAS_STATUS_UNREACH t) m = false ∧ CountsUp CAS_CNT_RECONCILED 1 s t ∧
      (∀ k c, k ∈ freed → claim? k s = some c → c.owner / 256 = m → claim? k t = none) ∧ (∀ k c, claim? k s = some c → c.owner / 256 ≠ m → claim? k t = some c))) ∧
    (isTrib s = true → casState s = 5 → Answers (.reconciliation m freed orphans rep) s (fun t => casState t = 3 ∧ clmState t = 2 ∧ t.cas.orphans = [] ∧ t.cas.freed = [] ∧ CountsUp CAS_CNT_RECONCILED 1 s t ∧
      (∀ k, rep.filter (fun p => p.1 == k) = [] → claim? k t = none) ∧ (∀ k c, rep.filter (fun p => p.1 == k) = [(k, c)] → claim? k t = some c)))) ∧
  (∀ s : State, (windowOpen s = false → Answers .casJoin s (fun t => casState t = casState s ∧ Result 25 0 0x24 1 4 0x19F0 t ∧ CountsUp KEY_CNT_GATE_REFUSED 1 s t ∧ Keeps [.key] s t)) ∧
    (windowOpen s = true → isTrib s = false → Answers .casJoin s (fun t => casState t = casState s ∧ Result 25 0 0x24 1 4 0x1908 t ∧ Keeps [] s t)) ∧
    (windowOpen s = true → isTrib s = true → casState s = 0 → Answers .casJoin s (fun t => casState t = 1 ∧ t.cas.joinAt = some s.clk.frc ∧ Emit.cas none (joinFrameOf s) ∈ t.out ∧ Keeps [] s t)) ∧
    (isTrib s = false → Answers .casLeave s (fun t => casState t = casState s ∧ Result 25 0 0x24 2 4 0x1908 t ∧ Keeps [] s t)) ∧
    (isTrib s = true → casState s = 1 → since s.cas.joinAt 500000000 s = true → Answers .casJoinTimeout s (fun t => casState t = 0 ∧ t.cas.joinAt = none ∧ Result 25 0 0x24 1 1 0x1901 t ∧ Keeps [] s t)) ∧
    (∀ f, isTrib s = true → casState s = 2 → s.cas.alignedFrom = some f →
      (5000000000 ≤ s.clk.frc - f → Answers .alignHold s (fun t => casState t = 3 ∧ clmState t = 2 ∧ t.air.withheld = false ∧ Keeps [.clm, .air] s t)) ∧
      (s.clk.frc - f < 5000000000 → Answers .alignHold s (fun t => casState t = 2 ∧ Keeps [] s t)))) ∧
  (∀ (m : Nat) (x : CasMember) (s : State), m < 8 → heads s = true → tfind m s.cas.members = some x →
    (∀ f, x.lostAt = some f → 30000000000 ≤ s.clk.frc - f → lane s = 2 → Answers (.casEvict m) s (fun t => tfind m t.cas.members = none ∧ bit (rd CAS_STATUS_PRESENT t) m = false ∧ (∀ p ∈ t.clm.claims, p.2.owner / 256 ≠ m) ∧
      (∀ k c, claim? k s = some c → c.owner / 256 ≠ m → claim? k t = some c) ∧ Result 25 0 0x24 3 0 0 t)) ∧
    ((x.lostAt = none ∨ lane s ≠ 2) → Answers (.casEvict m) s (fun t => t.cas.members = s.cas.members ∧ Result 25 0 0x24 3 4 0x1906 t ∧ Keeps [] s t)) ∧
    Answers (.latencyMeasure [(m, none)]) s (fun t => bit (rd CAS_STATUS_UNREACH t) m = true ∧ Keeps [] s t) ∧
    (∀ ws, s.held = [] → clmState s ≠ 0 → Answers (.cascadeLinkFrame true (.request m ws)) s (fun t => CountsUp CLM_CNT_REQ 1 s t ∧ bit (rd CAS_STATUS_UNREACH t) m = false)) ∧
    (s.clm.claims.any (fun p => p.2.owner / 256 == m) = false → Answers (.cascadeLinkFrame true (.leave m)) s (fun t => Emit.cas (some m) (.leaveAnswer 0) ∈ t.out ∧ tfind m t.cas.members = none ∧ Keeps [] s t)) ∧
    (s.clm.claims.any (fun p => p.2.owner / 256 == m) = true → Answers (.cascadeLinkFrame true (.leave m)) s (fun t => Emit.cas (some m) (.leaveAnswer 0x1904) ∈ t.out ∧ t.cas = s.cas ∧ Keeps [] s t))) ∧
  (∀ (l : List (Nat × Option Nat)) (m us : Nat) (s : State), casOn s = true → rd CAS_LAT s < 2 ^ 32 →
    Answers (.latencyMeasure (l ++ [(m, some us)])) s (fun t => rd CAS_LAT t % 65536 = min us 65535 ∧ min us 65535 ≤ rd CAS_LAT t / 65536 ∧ Keeps [] s t)) ∧
  (∀ (m act : Nat) (s : State), m < 8 → casOn s = true → shadowing s = false → lane s = 1 → act % 256 - bits (act % 256) 5 1 * 32 ≠ 0 →
    Answers (.cascadeStopNotice m true act) s (fun t => tget 0 m t.cas.sources = act % 256 ∧ lane t = 2 ∧ bit (rd STP_STATUS_ACTIVE t) 5 = true ∧ CountsUp STP_CNT_EPOCH 1 s t)) ∧
  (∀ (m group u site ep plan serial ed claims : Nat) (eui : List Byte) (s : State), m < 8 → heads s = true →
    let e := joinCause m group u site ep plan serial ed claims s
    let f := CasFrame.join m eui group u site ep plan serial ed claims
    (e = 0 → Answers (.cascadeLinkFrame true f) s (fun t => tfind m t.cas.members = some { eui := eui, group := group, u := u } ∧ (∀ k, k ≠ m → tfind k t.cas.members = tfind k s.cas.members) ∧
      bit (rd CAS_STATUS_PRESENT t) m = true ∧ Emit.cas (some m) (.accept (headEuis s) ((keyOfUsage 6 s).getD [])) ∈ t.out ∧ Keeps [] s t)) ∧
    (e ≠ 0 → Answers (.cascadeLinkFrame true f) s (fun t => Emit.cas (some m) (.refused e) ∈ t.out ∧ t.cas = s.cas ∧ Keeps [] s t))) ∧
  (∀ (m o k : Nat) (st : Int) (h : Nat) (l : List (Nat × Nat × Int × Nat)) (es : List (Nat × Nat)) (s : State), heads s = true →
    (o / 256 = m → l.filter (fun x => x.1 == o) = [(o, k, st, h)] → Answers (.cascadeLinkFrame true (.progress m l)) s (fun t => tfind o t.clm.prog = some { claim := k, station := st, hpl := h } ∧ t.clm.claims = s.clm.claims ∧ Keeps [.clm] s t)) ∧
    ((∀ x ∈ es, x.1 / 256 = m) → Answers (.cascadeLinkFrame true (.echoes m es)) s (fun t => ∀ q : Part, q.same t (es.foldl (fun s x => takeEcho x.1 x.2 s) s)))) ∧
  (∀ s : State, heads s = false → isTrib s = true →
    (∀ euis key, casState s = 1 → Answers (.cascadeLinkFrame true (.accept euis key)) s (fun t => casState t = 2 ∧ t.cas.heads = euis ∧ t.cas.joinAt = none ∧ t.air.withheld = true ∧ rd PTC_TIME_CFG_SRC t = 1 ∧
      Result 25 0 0x24 1 0 0 t ∧ Keeps [.key, .ptc, .air] s t)) ∧
    (∀ e, casState s = 1 → Answers (.cascadeLinkFrame true (.refused e)) s (fun t => casState t = 0 ∧ Result 25 0 0x24 1 4 (e % 65536) t ∧ Keeps [] s t)) ∧
    (casState s = 3 → Answers (.cascadeLinkFrame true (.leaveAnswer 0)) s (fun t => casState t = 0 ∧ Result 25 0 0x24 2 0 0 t ∧ t.air.withheld = false ∧ (on CLM_CTRL_EN s = true → clmState t = 0))) ∧
    (∀ e, casState s = 3 → e ≠ 0 → Answers (.cascadeLinkFrame true (.leaveAnswer e)) s (fun t => casState t = 3 ∧ Result 25 0 0x24 2 4 (e % 65536) t ∧ Keeps [] s t)) ∧
    (∀ ws, let hit := fun (x : Nat × Nat × Nat) => x.1 == leAt (bytesOf ws) 2 2 && x.2.1 == leAt (bytesOf ws) 4 4
      Answers (.cascadeLinkFrame true (.result ws)) s (fun t => t.clm.forwarded = s.clm.forwarded.filter (fun x => !hit x) ∧ t.clm.claims = s.clm.claims ∧ Keeps [.clm, .flm, .mem, .ecc] s t)) ∧
    (∀ ws, Answers (.cascadeLinkFrame true (.note ws)) s (fun t => t.clm.claims = s.clm.claims ∧ Keeps [.clm, .flm, .mem, .ecc] s t)) ∧
    (∀ k c, casState s = 3 → Answers (.cascadeLinkFrame true (.replica k (some c))) s (fun t => claim? k t = some c ∧ (∀ j, j ≠ k → claim? j t = claim? j s) ∧ k ∈ pathOf c.owner t ∧ Keeps [.clm] s t)) ∧
    (∀ k, casState s = 3 → Answers (.cascadeLinkFrame true (.replica k none)) s (fun t => claim? k t = none ∧ ∀ j, j ≠ k → claim? j t = claim? j s))) ∧
  (∀ (f : CasFrame) (s : State), Answers (.cascadeLinkFrame false f) s (fun t => t.cas = s.cas ∧ Keeps [] s t))

/-- RUN in Ready with site time set and no thermal stop enters Run and completes; without site time, or while Watch is being entered, it waits as pending, and takes effect when site time is set or the entry is complete; in a thermal stop it is refused. READY leaves Run out of PERMIT, at once where no burst is on air, and Watch; in PERMIT it is refused. WATCH in Ready out of PERMIT saves and clears the core enables; once the cores are idle the module is in Watch, or wakes at once for a source or a RUN that came meanwhile (log entry 116). An enabled source wakes it from Watch and is recorded. AUTO_RUN set in Ready issues RUN. A low logic supply is counted and sets the PROGRAM stop. A temperature reading shows itself, moves the governor along Table PWR-8, stops the fleet and leaves Run at T_STOP, resets with kind THERMAL at T_OFF, and ends the thermal stop below T_GOV. Power loss leaves flash and fuses only; power on, the pin, brownout, RESET, an activation, a trial's revert and a double fault reset the module, each of its kind; the ROM tries again. -/
def Obligations.PowerAndResets : Prop :=
  (∀ s : State, (awake s = true ∨ inWatch s = true) → s.pwr.thermalWatch = false →
    (on PWR_STATUS_THERM_STOP s = true → Answers .pwrRun s (fun t => pwrState t = pwrState s ∧ Result 1 0 0x0C 1 4 0x0103 t ∧ CountsUp PWR_CNT_CMD_REFUSED 1 s t ∧ Keeps [.pwr] s t)) ∧
    (on PWR_STATUS_THERM_STOP s = false → pwrState s = 2 → Answers .pwrRun s (fun t => pwrState t = 2 ∧ Result 1 0 0x0C 1 4 0x01F4 t ∧ Keeps [.pwr] s t)) ∧
    (on PWR_STATUS_THERM_STOP s = false → s.clk.siteSet = true → s.pwr.entering = false → (pwrState s = 1 ∨ inWatch s = true) → Answers .pwrRun s (fun t => pwrState t = 2 ∧ on PWR_STATUS_RUN_PENDING t = false ∧ Result 1 0 0x0C 1 0 0 t)) ∧
    (on PWR_STATUS_THERM_STOP s = false → (s.clk.siteSet = false ∨ s.pwr.entering = true) → pwrState s = 1 → Answers .pwrRun s (fun t => pwrState t = 1 ∧ on PWR_STATUS_RUN_PENDING t = true ∧ t.pwr.runCmd = true ∧ Keeps [.pwr] s t)) ∧
    (inWatch s = true → Answers .pwrReady s (fun t => pwrState t = 1 ∧ Result 1 0 0x0C 2 0 0 t ∧ CountsUp PWR_CNT_WAKE 1 s t)) ∧
    (pwrState s ≠ 0 → lane s = 1 → (Answers .pwrReady s (fun t => pwrState t = pwrState s ∧ Result 1 0 0x0C 2 4 0x0101 t ∧ Keeps [.pwr] s t) ∧
      Answers .pwrWatch s (fun t => pwrState t = pwrState s ∧ Result 1 0 0x0C 3 4 0x0101 t ∧ Keeps [.pwr] s t))) ∧
    (∀ b, lane s = 1 → Answers (.pwrReset b) s (fun t => pwrState t = pwrState s ∧ lane t = 1 ∧ Result 1 0 0x0C 4 4 0x0101 t ∧ Keeps [.pwr] s t)) ∧
    (∀ b, lane s ≠ 1 → Answers (.pwrReset b) s (Restarted 3 b s)) ∧
    (pwrState s = 2 → lane s ≠ 1 → Answers .pwrReady s (fun t => Result 1 0 0x0C 2 0 0 t ∧ (if bursting s then pwrState t = 2 ∧ t.pwr.stopping = true else pwrState t = 1) ∧ Keeps [.pwr, .air] s t) ∧
      Answers .pwrWatch s (fun t => pwrState t = 2 ∧ Result 1 0 0x0C 3 4 0x0102 t ∧ Keeps [.pwr] s t)) ∧
    (pwrState s = 1 → lane s ≠ 1 → Answers .pwrReady s (fun t => pwrState t = 1 ∧ Result 1 0 0x0C 2 4 0x01F4 t ∧ Keeps [.pwr] s t)) ∧
    (pwrState s = 1 → lane s ≠ 1 → s.pwr.entering = false → Answers .pwrWatch s (fun t => t.pwr.entering = true ∧ t.pwr.savedEn = rd CCX_CTRL_EN s ∧ rd CCX_CTRL_EN t = 0 ∧ Result 1 0 0x0C 3 0 0 t ∧ Keeps [.pwr, .ccx] s t))) ∧
  (∀ s : State, let wakes := fun (i : Nat) (t : State) => CountsUp PWR_CNT_WAKE 1 s t ∧ (if 16 ≤ i then bit (rd PWR_WAKE_SRC_DI t) (i - 16) = true else bit (rd PWR_WAKE_SRC_SRC t) i = true) ∧
      (wakeBit PWR_WAKE_TGT_DI PWR_WAKE_TGT_SRC i s = true → mayRun s = true → pwrState t = 2) ∧ (wakeBit PWR_WAKE_TGT_DI PWR_WAKE_TGT_SRC i s = false → on PWR_CTRL_AUTO_RUN s = false → pwrState t = 1)
    (s.pwr.entering = true → coresIdle s = true → (s.pwr.pendingWake = none → on PWR_STATUS_RUN_PENDING s = false → Answers .watchEntryDone s (fun t => pwrState t = 0 ∧ t.pwr.entering = false ∧ t.pwr.watchAt = siteNs s)) ∧
      (s.pwr.pendingWake = none → on PWR_STATUS_RUN_PENDING s = true → mayRun s = true → Answers .watchEntryDone s (fun t => pwrState t = 2 ∧ t.pwr.entering = false ∧ CountsUp PWR_CNT_WAKE 1 s t ∧ (s.pwr.runCmd = true → Result 1 0 0x0C 1 0 0 t))) ∧
      (∀ i, i < 32 → isWakeSource i = true → s.pwr.pendingWake = some i → Answers .watchEntryDone s (fun t => wakes i t ∧ t.pwr.entering = false))) ∧
    (∀ i, i < 32 → isWakeSource i = true → i ≠ 6 → s.pwr.off = false → s.pwr.thermalWatch = false →
      (wakeBit PWR_WAKE_EN_DI PWR_WAKE_EN_SRC i s = false → Answers (.wake i) s (fun t => pwrState t = pwrState s ∧ Keeps [] s t)) ∧
      (wakeBit PWR_WAKE_EN_DI PWR_WAKE_EN_SRC i s = true → s.pwr.entering = false → inWatch s = true → Answers (.wake i) s (wakes i)) ∧
      (wakeBit PWR_WAKE_EN_DI PWR_WAKE_EN_SRC i s = true → s.pwr.entering = true → s.pwr.pendingWake = none → Answers (.wake i) s (fun t => t.pwr.pendingWake = some i ∧ pwrState t = pwrState s ∧ Keeps [.pwr] s t))) ∧
    (on PWR_STATUS_RUN_PENDING s = true → mayRun s = true → pwrState s = 1 → s.pwr.off = false → s.pwr.entering = false →
      Answers .runEntry s (fun t => pwrState t = 2 ∧ on PWR_STATUS_RUN_PENDING t = false ∧ t.pwr.runCmd = false ∧ (s.pwr.runCmd = true → Result 1 0 0x0C 1 0 0 t) ∧ Keeps [.pwr, .air] s t)) ∧
    Answers .autoRunSet s (fun t => on PWR_CTRL_AUTO_RUN t = true ∧
      (on PWR_CTRL_AUTO_RUN s = false → pwrState s = 1 → on PWR_STATUS_RUN_PENDING s = false → on PWR_STATUS_THERM_STOP s = false → s.pwr.entering = false →
        if s.clk.siteSet then pwrState t = 2 else pwrState t = 1 ∧ on PWR_STATUS_RUN_PENDING t = true) ∧ Keeps [.pwr, .air] s t)) ∧
  (∀ (v : Nat) (s : State), s.pwr.off = false →
    (v < 850 → Answers (.supplyWarn v) s (fun t => rd PWR_SUPPLY_LOGIC t = v ∧ CountsUp PWR_CNT_SUPPLY_WARN 1 s t ∧ t.stp.program = true ∧ Result 12 0 0x0C 1 0 0 t ∧
      (shadowing s = false → lane t = (if lane s = 1 ∨ lane s = 3 then 2 else lane s)))) ∧
    (850 ≤ v → Answers (.supplyWarn v) s (fun t => lane t = lane s ∧ Keeps [] s t))) ∧
  (∀ (c : Int) (logic output : Nat) (b : Boot) (s : State), s.pwr.off = false → s.pwr.romFail = false → s.held = [] →
    let gov : Int := rd PWR_THERM_T_GOV s
    let stop : Int := rd PWR_THERM_T_STOP s
    let cut : Int := rd PWR_THERM_T_OFF s
    (c < cut → Answers (.temperatureReading c logic output b) s (fun t => rd PWR_SUPPLY_LOGIC t = logic % 2 ^ 16 ∧ rd PWR_SUPPLY_OUTPUT t = output % 2 ^ 16 ∧ rd PWR_STATUS_TEMP t = enc 8 c)) ∧
    (gov ≤ c → c < stop → c < cut → on PWR_CTRL_GOV_EN s = true → s.pwr.govRows = [] → Answers (.temperatureReading c logic output b) s (fun t =>
      (let d := (c - gov).toNat
       rd AIR_TXPWR_GOV t = max (2 * (min 11 (d / 2) + 1)) (if 15 ≤ d then 17 else 0) ∧ rd PWR_STATUS_CORE_STEP t = (if d < 10 then 0 else if d < 15 then 1 else if d < 20 then 2 else 3)) ∧
      CountsUp PWR_CNT_GOV_STEP 1 s t ∧ on PWR_STATUS_THERM_STOP t = on PWR_STATUS_THERM_STOP s ∧ Keeps [.pwr, .air, .upd] s t)) ∧
    (stop ≤ c → c < cut → on PWR_STATUS_THERM_STOP s = false → s.pwr.thermalWatch = false → Answers (.temperatureReading c logic output b) s (fun t => on PWR_STATUS_THERM_STOP t = true ∧ CountsUp PWR_CNT_THERM_STOP 1 s t ∧
      t.stp.program = true ∧ (pwrState s = 2 → lane s ≠ 1 → bursting s = false → pwrState t = 1))) ∧
    (cut ≤ c → s.pwr.thermalWatch = false → Answers (.temperatureReading c logic output b) s (Restarted 5 b s)) ∧
    (c < gov → c < stop → c < cut → s.pwr.thermalWatch = false → Answers (.temperatureReading c logic output b) s (fun t => on PWR_STATUS_THERM_STOP t = false ∧ Keeps [.pwr, .air, .upd] s t))) ∧
  (∀ (b : Boot) (s : State), s.pwr.off = false →
    Answers .powerLoss s (fun t => t.pwr.off = true ∧ t.mem = [] ∧ t.stw.sessions = [] ∧ t.air.idx = [] ∧ t.clm.claims = [] ∧ lane t = 0 ∧ t.pending = s.pending ∧ t.site = s.site ∧ t.nv = s.nv ∧
      (t.key.recA, t.key.recB, t.otp.editions, t.otp.ctrs, t.upd.slots, t.fsh.ro) = (s.key.recA, s.key.recB, s.otp.editions, s.otp.ctrs, s.upd.slots, s.fsh.ro)) ∧
    Answers (.pinReset b) s (Restarted 2 b s) ∧ Answers (.brownoutReset b) s (Restarted 1 b s) ∧
    Answers (.powerOn b) s (fun t => pwrState t = pwrState s ∧ Keeps [] s t) ∧
    (s.upd.resetDue = true → stewardUp s = true → Answers (.activationReset b) s (Restarted 3 b s)) ∧
    (∀ n, n = rd EVT_CTRL_DF_RESET s → n ≠ 0 → doubleFaulted s = true → s.evt.dfAt + 500000000 * n ≤ s.clk.frc →
      Answers (.dfaultReset b) s (fun t => Restarted 4 b s t ∧ doubleFaulted t = false ∧ (fwGood (bootKind 0 s).conf b = true → anyTrial s = false → rd STW_BOOT_STAGE t = 2))) ∧
    (s.pwr.romFail = true → anyTrial s = false →
      (fwGood (bootKind 0 s).conf b = true → Answers (.romRetry b) s (fun t => t.pwr.romFail = false ∧ rd STW_BOOT_FW_SLOT t = (bootKind 0 s).conf % 2)) ∧
      (b.fw0 = false → b.fw1 = false → Answers (.romRetry b) s (fun t => t.pwr.romFail = true ∧ rd STW_BOOT_STAGE t = 4))) ∧
    (∀ kind tr, let i := kind % 3
      (bootKind i s).trial = some tr → (bootPtr s).kinds.length = 3 →
      (mustRevert i s = true → lane s ≠ 1 → bursting s = false → Answers (.trialRevert kind b) s (fun t => Restarted 3 b s t ∧ (bootKind i t).trial = none ∧ (slotOf (2 * i + tr) t).st = 4)) ∧
      (mustRevert i s = true → lane s = 1 → mayBurst s = true → s.twn.burstDue = false → Answers (.trialRevert kind b) s (fun t => lane t = 2 ∧ bootPtr t = bootPtr s ∧ CountsUp STP_CNT_EPOCH 1 s t)) ∧
      (mustRevert i s = false → Answers (.trialRevert kind b) s (fun t => bootPtr t = bootPtr s ∧ t.upd.slots = s.upd.slots ∧ lane t = lane s ∧ Keeps [.upd] s t)))) ∧
  (∀ (b : Boot) (s : State), s.pwr.off = true → Answers (.powerOn b) s (Restarted 0 b s) ∧ Answers (.pinReset b) s (fun t => t.pwr.off = true ∧ Keeps [] s t))

/-- On every core g0 reads as zero and a write to it changes no register; so an instruction that names it as D, here ADDI and a load, only goes on to the next instruction. -/
def Obligations.HardWiredZero : Prop :=
  (∀ (c : Core) (v : Word), c.gr 0 = 0 ∧ c.setGr 0 v = c) ∧
  ∀ (n a imm ofs : Nat) (s : State), Settled s → Executes n s →
    (imm < 65536 → exec (.addi n 0 a imm) s = .next (retire n (fun c => c) s)) ∧
    (Reaches n (effAddr (coreOf n s) a ofs 1) 8 false s → exec (.ld n 0 a ofs) s = .next (retire n (fun c => c) s))

/-- For every command c and state s, a step with c at the front of the queue is the effect of c on the rest: exec c on the state whose queue is what follows c. On an empty queue (the model's choice, log entry 1) one tick of the time clock passes: the free-running counter is one higher, site time, once set, and port time go on by their increments, and nothing else changes. -/
def Obligations.StepTakesTheFront : Prop :=
  (∀ (c : Instr) (rest : List Instr) (s : State), step { s with pending := c :: rest } = exec c { s with pending := rest }) ∧
  ∀ s : State, s.pending = [] → ∃ t, step s = .next t ∧ t.clk.frc = s.clk.frc + 1 ∧ t.clk.portAcc = s.clk.portAcc + s.clk.incPort ∧
    (s.clk.siteSet = true → t.clk.siteAcc = s.clk.siteAcc + s.clk.incSite) ∧ (s.clk.siteSet = false → siteNs t = 0) ∧ { t with clk := s.clk } = s

/-- In the state right after reset no command waits and nothing reported is left to be taken; memory is in its canonical form and every byte reads zero; the stop lane is HELD, CLM OFF, the pair SINGLE, the cascade OFF, the module in Ready; every field core is OFF and the steward's runs; no flume is enabled; site time is 0; no session, claim, index or channel is open; and the thermal thresholds are 115, 140 and 150 degrees. -/
def Obligations.ResetLeaves : Prop :=
  let s := State.reset
  s.pending = [] ∧ Settled s ∧ Memory.wf s.mem = true ∧ (∀ a, byteAt s.mem a = 0) ∧ lane s = 0 ∧ clmState s = 0 ∧ twnRole s = 0 ∧ casState s = 0 ∧ pwrState s = 1 ∧
    (∀ n, n < 16 → (coreOf n s).st = .off) ∧ (coreOf 16 s).st = .run ∧ (∀ f, f < 128 → flumeOn f s = false) ∧ siteNs s = 0 ∧ s.stw.sessions = [] ∧ s.clm.claims = [] ∧ s.air.idx = [] ∧ s.pro.chans = [] ∧
    (rd PWR_THERM_T_GOV s, rd PWR_THERM_T_STOP s, rd PWR_THERM_T_OFF s) = (115, 140, 150)

/-- Every step from any state with nothing left to be taken goes on to a next state, and there too every event and error that the step's command reported has been taken by EVT. -/
def Obligations.StepKeepsSettled : Prop :=
  ∀ s : State, Settled s → ∃ t, step s = .next t ∧ Settled t

/-- From every state whose memory is in canonical form (addresses strictly rising, no zero byte listed), a step, whatever command it takes, leads to a state whose memory is in canonical form; so equal memories stay equal data. -/
def Obligations.StepKeepsMemory : Prop :=
  ∀ s t : State, Memory.wf s.mem = true → step s = .next t → Memory.wf t.mem = true

/-- For every well-formed Cyent instruction, with every operand at every value its encoding admits, its word has 32 bits and decodes, on the instruction's own core, to that instruction; and every word that decodes gives a well-formed instruction. -/
def Obligations.DecodeUndoesEncode : Prop :=
  (∀ (i : Instr) (w : Nat), i.wf = true → encodeCyent i = some w → w < 2 ^ 32 ∧ ∃ c, c ≤ 16 ∧ decodeCyent c w = some i) ∧
  (∀ (c w : Nat) (i : Instr), c ≤ 16 → decodeCyent c w = some i → i.wf = true)
end

