-- ==== Sys2Proof/Laws/State.lean ====
section
/-!
SUPPORT. Sys2Proof/Laws/State.lean: what each named update leaves of each component of the state, so that no proof unfolds a record update.
-/
namespace Sys2Proof.Machine
set_option Elab.async false -- a simp lemma waits for its proof: one after another, none holds a thread

/-! ### note changes notes alone -/

@[simp] theorem note_pending (x : Note) (s : State) : (note x s).pending = s.pending := rfl
@[simp] theorem note_free (x : Note) (s : State) : (note x s).free = s.free := rfl
@[simp] theorem note_clk (x : Note) (s : State) : (note x s).clk = s.clk := rfl
@[simp] theorem note_mem (x : Note) (s : State) : (note x s).mem = s.mem := rfl
@[simp] theorem note_held (x : Note) (s : State) : (note x s).held = s.held := rfl
@[simp] theorem note_out (x : Note) (s : State) : (note x s).out = s.out := rfl
@[simp] theorem note_site (x : Note) (s : State) : (note x s).site = s.site := rfl
@[simp] theorem note_nv (x : Note) (s : State) : (note x s).nv = s.nv := rfl
@[simp] theorem note_stw (x : Note) (s : State) : (note x s).stw = s.stw := rfl
@[simp] theorem note_pwr (x : Note) (s : State) : (note x s).pwr = s.pwr := rfl
@[simp] theorem note_evt (x : Note) (s : State) : (note x s).evt = s.evt := rfl
@[simp] theorem note_mrc (x : Note) (s : State) : (note x s).mrc = s.mrc := rfl
@[simp] theorem note_flm (x : Note) (s : State) : (note x s).flm = s.flm := rfl
@[simp] theorem note_ecc (x : Note) (s : State) : (note x s).ecc = s.ecc := rfl
@[simp] theorem note_ref (x : Note) (s : State) : (note x s).ref = s.ref := rfl
@[simp] theorem note_sol (x : Note) (s : State) : (note x s).sol = s.sol := rfl
@[simp] theorem note_clm (x : Note) (s : State) : (note x s).clm = s.clm := rfl
@[simp] theorem note_pro (x : Note) (s : State) : (note x s).pro = s.pro := rfl
@[simp] theorem note_air (x : Note) (s : State) : (note x s).air = s.air := rfl
@[simp] theorem note_wkr (x : Note) (s : State) : (note x s).wkr = s.wkr := rfl
@[simp] theorem note_stp (x : Note) (s : State) : (note x s).stp = s.stp := rfl
@[simp] theorem note_eth (x : Note) (s : State) : (note x s).eth = s.eth := rfl
@[simp] theorem note_ptc (x : Note) (s : State) : (note x s).ptc = s.ptc := rfl
@[simp] theorem note_can (x : Note) (s : State) : (note x s).can = s.can := rfl
@[simp] theorem note_ser (x : Note) (s : State) : (note x s).ser = s.ser := rfl
@[simp] theorem note_axs (x : Note) (s : State) : (note x s).axs = s.axs := rfl
@[simp] theorem note_dio (x : Note) (s : State) : (note x s).dio = s.dio := rfl
@[simp] theorem note_twn (x : Note) (s : State) : (note x s).twn = s.twn := rfl
@[simp] theorem note_cas (x : Note) (s : State) : (note x s).cas = s.cas := rfl
@[simp] theorem note_key (x : Note) (s : State) : (note x s).key = s.key := rfl
@[simp] theorem note_upd (x : Note) (s : State) : (note x s).upd = s.upd := rfl
@[simp] theorem note_otp (x : Note) (s : State) : (note x s).otp = s.otp := rfl
@[simp] theorem note_fsh (x : Note) (s : State) : (note x s).fsh = s.fsh := rfl
@[simp] theorem note_ccx (x : Note) (s : State) : (note x s).ccx = s.ccx := rfl

/-! ### raise changes notes alone -/

@[simp] theorem raise_pending (e : Nat) (s : State) : (raise e s).pending = s.pending := rfl
@[simp] theorem raise_free (e : Nat) (s : State) : (raise e s).free = s.free := rfl
@[simp] theorem raise_clk (e : Nat) (s : State) : (raise e s).clk = s.clk := rfl
@[simp] theorem raise_mem (e : Nat) (s : State) : (raise e s).mem = s.mem := rfl
@[simp] theorem raise_held (e : Nat) (s : State) : (raise e s).held = s.held := rfl
@[simp] theorem raise_out (e : Nat) (s : State) : (raise e s).out = s.out := rfl
@[simp] theorem raise_site (e : Nat) (s : State) : (raise e s).site = s.site := rfl
@[simp] theorem raise_nv (e : Nat) (s : State) : (raise e s).nv = s.nv := rfl
@[simp] theorem raise_stw (e : Nat) (s : State) : (raise e s).stw = s.stw := rfl
@[simp] theorem raise_pwr (e : Nat) (s : State) : (raise e s).pwr = s.pwr := rfl
@[simp] theorem raise_evt (e : Nat) (s : State) : (raise e s).evt = s.evt := rfl
@[simp] theorem raise_mrc (e : Nat) (s : State) : (raise e s).mrc = s.mrc := rfl
@[simp] theorem raise_flm (e : Nat) (s : State) : (raise e s).flm = s.flm := rfl
@[simp] theorem raise_ecc (e : Nat) (s : State) : (raise e s).ecc = s.ecc := rfl
@[simp] theorem raise_ref (e : Nat) (s : State) : (raise e s).ref = s.ref := rfl
@[simp] theorem raise_sol (e : Nat) (s : State) : (raise e s).sol = s.sol := rfl
@[simp] theorem raise_clm (e : Nat) (s : State) : (raise e s).clm = s.clm := rfl
@[simp] theorem raise_pro (e : Nat) (s : State) : (raise e s).pro = s.pro := rfl
@[simp] theorem raise_air (e : Nat) (s : State) : (raise e s).air = s.air := rfl
@[simp] theorem raise_wkr (e : Nat) (s : State) : (raise e s).wkr = s.wkr := rfl
@[simp] theorem raise_stp (e : Nat) (s : State) : (raise e s).stp = s.stp := rfl
@[simp] theorem raise_eth (e : Nat) (s : State) : (raise e s).eth = s.eth := rfl
@[simp] theorem raise_ptc (e : Nat) (s : State) : (raise e s).ptc = s.ptc := rfl
@[simp] theorem raise_can (e : Nat) (s : State) : (raise e s).can = s.can := rfl
@[simp] theorem raise_ser (e : Nat) (s : State) : (raise e s).ser = s.ser := rfl
@[simp] theorem raise_axs (e : Nat) (s : State) : (raise e s).axs = s.axs := rfl
@[simp] theorem raise_dio (e : Nat) (s : State) : (raise e s).dio = s.dio := rfl
@[simp] theorem raise_twn (e : Nat) (s : State) : (raise e s).twn = s.twn := rfl
@[simp] theorem raise_cas (e : Nat) (s : State) : (raise e s).cas = s.cas := rfl
@[simp] theorem raise_key (e : Nat) (s : State) : (raise e s).key = s.key := rfl
@[simp] theorem raise_upd (e : Nat) (s : State) : (raise e s).upd = s.upd := rfl
@[simp] theorem raise_otp (e : Nat) (s : State) : (raise e s).otp = s.otp := rfl
@[simp] theorem raise_fsh (e : Nat) (s : State) : (raise e s).fsh = s.fsh := rfl
@[simp] theorem raise_ccx (e : Nat) (s : State) : (raise e s).ccx = s.ccx := rfl

/-! ### raiseAlarm changes notes alone -/

@[simp] theorem raiseAlarm_pending (e : Nat) (s : State) : (raiseAlarm e s).pending = s.pending := rfl
@[simp] theorem raiseAlarm_free (e : Nat) (s : State) : (raiseAlarm e s).free = s.free := rfl
@[simp] theorem raiseAlarm_clk (e : Nat) (s : State) : (raiseAlarm e s).clk = s.clk := rfl
@[simp] theorem raiseAlarm_mem (e : Nat) (s : State) : (raiseAlarm e s).mem = s.mem := rfl
@[simp] theorem raiseAlarm_held (e : Nat) (s : State) : (raiseAlarm e s).held = s.held := rfl
@[simp] theorem raiseAlarm_out (e : Nat) (s : State) : (raiseAlarm e s).out = s.out := rfl
@[simp] theorem raiseAlarm_site (e : Nat) (s : State) : (raiseAlarm e s).site = s.site := rfl
@[simp] theorem raiseAlarm_nv (e : Nat) (s : State) : (raiseAlarm e s).nv = s.nv := rfl
@[simp] theorem raiseAlarm_stw (e : Nat) (s : State) : (raiseAlarm e s).stw = s.stw := rfl
@[simp] theorem raiseAlarm_pwr (e : Nat) (s : State) : (raiseAlarm e s).pwr = s.pwr := rfl
@[simp] theorem raiseAlarm_evt (e : Nat) (s : State) : (raiseAlarm e s).evt = s.evt := rfl
@[simp] theorem raiseAlarm_mrc (e : Nat) (s : State) : (raiseAlarm e s).mrc = s.mrc := rfl
@[simp] theorem raiseAlarm_flm (e : Nat) (s : State) : (raiseAlarm e s).flm = s.flm := rfl
@[simp] theorem raiseAlarm_ecc (e : Nat) (s : State) : (raiseAlarm e s).ecc = s.ecc := rfl
@[simp] theorem raiseAlarm_ref (e : Nat) (s : State) : (raiseAlarm e s).ref = s.ref := rfl
@[simp] theorem raiseAlarm_sol (e : Nat) (s : State) : (raiseAlarm e s).sol = s.sol := rfl
@[simp] theorem raiseAlarm_clm (e : Nat) (s : State) : (raiseAlarm e s).clm = s.clm := rfl
@[simp] theorem raiseAlarm_pro (e : Nat) (s : State) : (raiseAlarm e s).pro = s.pro := rfl
@[simp] theorem raiseAlarm_air (e : Nat) (s : State) : (raiseAlarm e s).air = s.air := rfl
@[simp] theorem raiseAlarm_wkr (e : Nat) (s : State) : (raiseAlarm e s).wkr = s.wkr := rfl
@[simp] theorem raiseAlarm_stp (e : Nat) (s : State) : (raiseAlarm e s).stp = s.stp := rfl
@[simp] theorem raiseAlarm_eth (e : Nat) (s : State) : (raiseAlarm e s).eth = s.eth := rfl
@[simp] theorem raiseAlarm_ptc (e : Nat) (s : State) : (raiseAlarm e s).ptc = s.ptc := rfl
@[simp] theorem raiseAlarm_can (e : Nat) (s : State) : (raiseAlarm e s).can = s.can := rfl
@[simp] theorem raiseAlarm_ser (e : Nat) (s : State) : (raiseAlarm e s).ser = s.ser := rfl
@[simp] theorem raiseAlarm_axs (e : Nat) (s : State) : (raiseAlarm e s).axs = s.axs := rfl
@[simp] theorem raiseAlarm_dio (e : Nat) (s : State) : (raiseAlarm e s).dio = s.dio := rfl
@[simp] theorem raiseAlarm_twn (e : Nat) (s : State) : (raiseAlarm e s).twn = s.twn := rfl
@[simp] theorem raiseAlarm_cas (e : Nat) (s : State) : (raiseAlarm e s).cas = s.cas := rfl
@[simp] theorem raiseAlarm_key (e : Nat) (s : State) : (raiseAlarm e s).key = s.key := rfl
@[simp] theorem raiseAlarm_upd (e : Nat) (s : State) : (raiseAlarm e s).upd = s.upd := rfl
@[simp] theorem raiseAlarm_otp (e : Nat) (s : State) : (raiseAlarm e s).otp = s.otp := rfl
@[simp] theorem raiseAlarm_fsh (e : Nat) (s : State) : (raiseAlarm e s).fsh = s.fsh := rfl
@[simp] theorem raiseAlarm_ccx (e : Nat) (s : State) : (raiseAlarm e s).ccx = s.ccx := rfl

/-! ### report changes notes alone -/

@[simp] theorem report_pending (c d : Nat) (s : State) : (report c d s).pending = s.pending := rfl
@[simp] theorem report_free (c d : Nat) (s : State) : (report c d s).free = s.free := rfl
@[simp] theorem report_clk (c d : Nat) (s : State) : (report c d s).clk = s.clk := rfl
@[simp] theorem report_mem (c d : Nat) (s : State) : (report c d s).mem = s.mem := rfl
@[simp] theorem report_held (c d : Nat) (s : State) : (report c d s).held = s.held := rfl
@[simp] theorem report_out (c d : Nat) (s : State) : (report c d s).out = s.out := rfl
@[simp] theorem report_site (c d : Nat) (s : State) : (report c d s).site = s.site := rfl
@[simp] theorem report_nv (c d : Nat) (s : State) : (report c d s).nv = s.nv := rfl
@[simp] theorem report_stw (c d : Nat) (s : State) : (report c d s).stw = s.stw := rfl
@[simp] theorem report_pwr (c d : Nat) (s : State) : (report c d s).pwr = s.pwr := rfl
@[simp] theorem report_evt (c d : Nat) (s : State) : (report c d s).evt = s.evt := rfl
@[simp] theorem report_mrc (c d : Nat) (s : State) : (report c d s).mrc = s.mrc := rfl
@[simp] theorem report_flm (c d : Nat) (s : State) : (report c d s).flm = s.flm := rfl
@[simp] theorem report_ecc (c d : Nat) (s : State) : (report c d s).ecc = s.ecc := rfl
@[simp] theorem report_ref (c d : Nat) (s : State) : (report c d s).ref = s.ref := rfl
@[simp] theorem report_sol (c d : Nat) (s : State) : (report c d s).sol = s.sol := rfl
@[simp] theorem report_clm (c d : Nat) (s : State) : (report c d s).clm = s.clm := rfl
@[simp] theorem report_pro (c d : Nat) (s : State) : (report c d s).pro = s.pro := rfl
@[simp] theorem report_air (c d : Nat) (s : State) : (report c d s).air = s.air := rfl
@[simp] theorem report_wkr (c d : Nat) (s : State) : (report c d s).wkr = s.wkr := rfl
@[simp] theorem report_stp (c d : Nat) (s : State) : (report c d s).stp = s.stp := rfl
@[simp] theorem report_eth (c d : Nat) (s : State) : (report c d s).eth = s.eth := rfl
@[simp] theorem report_ptc (c d : Nat) (s : State) : (report c d s).ptc = s.ptc := rfl
@[simp] theorem report_can (c d : Nat) (s : State) : (report c d s).can = s.can := rfl
@[simp] theorem report_ser (c d : Nat) (s : State) : (report c d s).ser = s.ser := rfl
@[simp] theorem report_axs (c d : Nat) (s : State) : (report c d s).axs = s.axs := rfl
@[simp] theorem report_dio (c d : Nat) (s : State) : (report c d s).dio = s.dio := rfl
@[simp] theorem report_twn (c d : Nat) (s : State) : (report c d s).twn = s.twn := rfl
@[simp] theorem report_cas (c d : Nat) (s : State) : (report c d s).cas = s.cas := rfl
@[simp] theorem report_key (c d : Nat) (s : State) : (report c d s).key = s.key := rfl
@[simp] theorem report_upd (c d : Nat) (s : State) : (report c d s).upd = s.upd := rfl
@[simp] theorem report_otp (c d : Nat) (s : State) : (report c d s).otp = s.otp := rfl
@[simp] theorem report_fsh (c d : Nat) (s : State) : (report c d s).fsh = s.fsh := rfl
@[simp] theorem report_ccx (c d : Nat) (s : State) : (report c d s).ccx = s.ccx := rfl

/-! ### reportAlarm changes notes alone -/

@[simp] theorem reportAlarm_pending (c d : Nat) (s : State) : (reportAlarm c d s).pending = s.pending := rfl
@[simp] theorem reportAlarm_free (c d : Nat) (s : State) : (reportAlarm c d s).free = s.free := rfl
@[simp] theorem reportAlarm_clk (c d : Nat) (s : State) : (reportAlarm c d s).clk = s.clk := rfl
@[simp] theorem reportAlarm_mem (c d : Nat) (s : State) : (reportAlarm c d s).mem = s.mem := rfl
@[simp] theorem reportAlarm_held (c d : Nat) (s : State) : (reportAlarm c d s).held = s.held := rfl
@[simp] theorem reportAlarm_out (c d : Nat) (s : State) : (reportAlarm c d s).out = s.out := rfl
@[simp] theorem reportAlarm_site (c d : Nat) (s : State) : (reportAlarm c d s).site = s.site := rfl
@[simp] theorem reportAlarm_nv (c d : Nat) (s : State) : (reportAlarm c d s).nv = s.nv := rfl
@[simp] theorem reportAlarm_stw (c d : Nat) (s : State) : (reportAlarm c d s).stw = s.stw := rfl
@[simp] theorem reportAlarm_pwr (c d : Nat) (s : State) : (reportAlarm c d s).pwr = s.pwr := rfl
@[simp] theorem reportAlarm_evt (c d : Nat) (s : State) : (reportAlarm c d s).evt = s.evt := rfl
@[simp] theorem reportAlarm_mrc (c d : Nat) (s : State) : (reportAlarm c d s).mrc = s.mrc := rfl
@[simp] theorem reportAlarm_flm (c d : Nat) (s : State) : (reportAlarm c d s).flm = s.flm := rfl
@[simp] theorem reportAlarm_ecc (c d : Nat) (s : State) : (reportAlarm c d s).ecc = s.ecc := rfl
@[simp] theorem reportAlarm_ref (c d : Nat) (s : State) : (reportAlarm c d s).ref = s.ref := rfl
@[simp] theorem reportAlarm_sol (c d : Nat) (s : State) : (reportAlarm c d s).sol = s.sol := rfl
@[simp] theorem reportAlarm_clm (c d : Nat) (s : State) : (reportAlarm c d s).clm = s.clm := rfl
@[simp] theorem reportAlarm_pro (c d : Nat) (s : State) : (reportAlarm c d s).pro = s.pro := rfl
@[simp] theorem reportAlarm_air (c d : Nat) (s : State) : (reportAlarm c d s).air = s.air := rfl
@[simp] theorem reportAlarm_wkr (c d : Nat) (s : State) : (reportAlarm c d s).wkr = s.wkr := rfl
@[simp] theorem reportAlarm_stp (c d : Nat) (s : State) : (reportAlarm c d s).stp = s.stp := rfl
@[simp] theorem reportAlarm_eth (c d : Nat) (s : State) : (reportAlarm c d s).eth = s.eth := rfl
@[simp] theorem reportAlarm_ptc (c d : Nat) (s : State) : (reportAlarm c d s).ptc = s.ptc := rfl
@[simp] theorem reportAlarm_can (c d : Nat) (s : State) : (reportAlarm c d s).can = s.can := rfl
@[simp] theorem reportAlarm_ser (c d : Nat) (s : State) : (reportAlarm c d s).ser = s.ser := rfl
@[simp] theorem reportAlarm_axs (c d : Nat) (s : State) : (reportAlarm c d s).axs = s.axs := rfl
@[simp] theorem reportAlarm_dio (c d : Nat) (s : State) : (reportAlarm c d s).dio = s.dio := rfl
@[simp] theorem reportAlarm_twn (c d : Nat) (s : State) : (reportAlarm c d s).twn = s.twn := rfl
@[simp] theorem reportAlarm_cas (c d : Nat) (s : State) : (reportAlarm c d s).cas = s.cas := rfl
@[simp] theorem reportAlarm_key (c d : Nat) (s : State) : (reportAlarm c d s).key = s.key := rfl
@[simp] theorem reportAlarm_upd (c d : Nat) (s : State) : (reportAlarm c d s).upd = s.upd := rfl
@[simp] theorem reportAlarm_otp (c d : Nat) (s : State) : (reportAlarm c d s).otp = s.otp := rfl
@[simp] theorem reportAlarm_fsh (c d : Nat) (s : State) : (reportAlarm c d s).fsh = s.fsh := rfl
@[simp] theorem reportAlarm_ccx (c d : Nat) (s : State) : (reportAlarm c d s).ccx = s.ccx := rfl

/-! ### emit changes out alone -/

@[simp] theorem emit_pending (e : Emit) (s : State) : (emit e s).pending = s.pending := rfl
@[simp] theorem emit_free (e : Emit) (s : State) : (emit e s).free = s.free := rfl
@[simp] theorem emit_clk (e : Emit) (s : State) : (emit e s).clk = s.clk := rfl
@[simp] theorem emit_mem (e : Emit) (s : State) : (emit e s).mem = s.mem := rfl
@[simp] theorem emit_held (e : Emit) (s : State) : (emit e s).held = s.held := rfl
@[simp] theorem emit_notes (e : Emit) (s : State) : (emit e s).notes = s.notes := rfl
@[simp] theorem emit_site (e : Emit) (s : State) : (emit e s).site = s.site := rfl
@[simp] theorem emit_nv (e : Emit) (s : State) : (emit e s).nv = s.nv := rfl
@[simp] theorem emit_stw (e : Emit) (s : State) : (emit e s).stw = s.stw := rfl
@[simp] theorem emit_pwr (e : Emit) (s : State) : (emit e s).pwr = s.pwr := rfl
@[simp] theorem emit_evt (e : Emit) (s : State) : (emit e s).evt = s.evt := rfl
@[simp] theorem emit_mrc (e : Emit) (s : State) : (emit e s).mrc = s.mrc := rfl
@[simp] theorem emit_flm (e : Emit) (s : State) : (emit e s).flm = s.flm := rfl
@[simp] theorem emit_ecc (e : Emit) (s : State) : (emit e s).ecc = s.ecc := rfl
@[simp] theorem emit_ref (e : Emit) (s : State) : (emit e s).ref = s.ref := rfl
@[simp] theorem emit_sol (e : Emit) (s : State) : (emit e s).sol = s.sol := rfl
@[simp] theorem emit_clm (e : Emit) (s : State) : (emit e s).clm = s.clm := rfl
@[simp] theorem emit_pro (e : Emit) (s : State) : (emit e s).pro = s.pro := rfl
@[simp] theorem emit_air (e : Emit) (s : State) : (emit e s).air = s.air := rfl
@[simp] theorem emit_wkr (e : Emit) (s : State) : (emit e s).wkr = s.wkr := rfl
@[simp] theorem emit_stp (e : Emit) (s : State) : (emit e s).stp = s.stp := rfl
@[simp] theorem emit_eth (e : Emit) (s : State) : (emit e s).eth = s.eth := rfl
@[simp] theorem emit_ptc (e : Emit) (s : State) : (emit e s).ptc = s.ptc := rfl
@[simp] theorem emit_can (e : Emit) (s : State) : (emit e s).can = s.can := rfl
@[simp] theorem emit_ser (e : Emit) (s : State) : (emit e s).ser = s.ser := rfl
@[simp] theorem emit_axs (e : Emit) (s : State) : (emit e s).axs = s.axs := rfl
@[simp] theorem emit_dio (e : Emit) (s : State) : (emit e s).dio = s.dio := rfl
@[simp] theorem emit_twn (e : Emit) (s : State) : (emit e s).twn = s.twn := rfl
@[simp] theorem emit_cas (e : Emit) (s : State) : (emit e s).cas = s.cas := rfl
@[simp] theorem emit_key (e : Emit) (s : State) : (emit e s).key = s.key := rfl
@[simp] theorem emit_upd (e : Emit) (s : State) : (emit e s).upd = s.upd := rfl
@[simp] theorem emit_otp (e : Emit) (s : State) : (emit e s).otp = s.otp := rfl
@[simp] theorem emit_fsh (e : Emit) (s : State) : (emit e s).fsh = s.fsh := rfl
@[simp] theorem emit_ccx (e : Emit) (s : State) : (emit e s).ccx = s.ccx := rfl

/-! ### tickClocks changes clk alone -/

@[simp] theorem tickClocks_pending  (s : State) : (tickClocks s).pending = s.pending := rfl
@[simp] theorem tickClocks_free  (s : State) : (tickClocks s).free = s.free := rfl
@[simp] theorem tickClocks_mem  (s : State) : (tickClocks s).mem = s.mem := rfl
@[simp] theorem tickClocks_held  (s : State) : (tickClocks s).held = s.held := rfl
@[simp] theorem tickClocks_notes  (s : State) : (tickClocks s).notes = s.notes := rfl
@[simp] theorem tickClocks_out  (s : State) : (tickClocks s).out = s.out := rfl
@[simp] theorem tickClocks_site  (s : State) : (tickClocks s).site = s.site := rfl
@[simp] theorem tickClocks_nv  (s : State) : (tickClocks s).nv = s.nv := rfl
@[simp] theorem tickClocks_stw  (s : State) : (tickClocks s).stw = s.stw := rfl
@[simp] theorem tickClocks_pwr  (s : State) : (tickClocks s).pwr = s.pwr := rfl
@[simp] theorem tickClocks_evt  (s : State) : (tickClocks s).evt = s.evt := rfl
@[simp] theorem tickClocks_mrc  (s : State) : (tickClocks s).mrc = s.mrc := rfl
@[simp] theorem tickClocks_flm  (s : State) : (tickClocks s).flm = s.flm := rfl
@[simp] theorem tickClocks_ecc  (s : State) : (tickClocks s).ecc = s.ecc := rfl
@[simp] theorem tickClocks_ref  (s : State) : (tickClocks s).ref = s.ref := rfl
@[simp] theorem tickClocks_sol  (s : State) : (tickClocks s).sol = s.sol := rfl
@[simp] theorem tickClocks_clm  (s : State) : (tickClocks s).clm = s.clm := rfl
@[simp] theorem tickClocks_pro  (s : State) : (tickClocks s).pro = s.pro := rfl
@[simp] theorem tickClocks_air  (s : State) : (tickClocks s).air = s.air := rfl
@[simp] theorem tickClocks_wkr  (s : State) : (tickClocks s).wkr = s.wkr := rfl
@[simp] theorem tickClocks_stp  (s : State) : (tickClocks s).stp = s.stp := rfl
@[simp] theorem tickClocks_eth  (s : State) : (tickClocks s).eth = s.eth := rfl
@[simp] theorem tickClocks_ptc  (s : State) : (tickClocks s).ptc = s.ptc := rfl
@[simp] theorem tickClocks_can  (s : State) : (tickClocks s).can = s.can := rfl
@[simp] theorem tickClocks_ser  (s : State) : (tickClocks s).ser = s.ser := rfl
@[simp] theorem tickClocks_axs  (s : State) : (tickClocks s).axs = s.axs := rfl
@[simp] theorem tickClocks_dio  (s : State) : (tickClocks s).dio = s.dio := rfl
@[simp] theorem tickClocks_twn  (s : State) : (tickClocks s).twn = s.twn := rfl
@[simp] theorem tickClocks_cas  (s : State) : (tickClocks s).cas = s.cas := rfl
@[simp] theorem tickClocks_key  (s : State) : (tickClocks s).key = s.key := rfl
@[simp] theorem tickClocks_upd  (s : State) : (tickClocks s).upd = s.upd := rfl
@[simp] theorem tickClocks_otp  (s : State) : (tickClocks s).otp = s.otp := rfl
@[simp] theorem tickClocks_fsh  (s : State) : (tickClocks s).fsh = s.fsh := rfl
@[simp] theorem tickClocks_ccx  (s : State) : (tickClocks s).ccx = s.ccx := rfl

/-! ### setCore changes ccx alone -/

@[simp] theorem setCore_pending (n : Nat) (c : Core) (s : State) : (setCore n c s).pending = s.pending := rfl
@[simp] theorem setCore_free (n : Nat) (c : Core) (s : State) : (setCore n c s).free = s.free := rfl
@[simp] theorem setCore_clk (n : Nat) (c : Core) (s : State) : (setCore n c s).clk = s.clk := rfl
@[simp] theorem setCore_mem (n : Nat) (c : Core) (s : State) : (setCore n c s).mem = s.mem := rfl
@[simp] theorem setCore_held (n : Nat) (c : Core) (s : State) : (setCore n c s).held = s.held := rfl
@[simp] theorem setCore_notes (n : Nat) (c : Core) (s : State) : (setCore n c s).notes = s.notes := rfl
@[simp] theorem setCore_out (n : Nat) (c : Core) (s : State) : (setCore n c s).out = s.out := rfl
@[simp] theorem setCore_site (n : Nat) (c : Core) (s : State) : (setCore n c s).site = s.site := rfl
@[simp] theorem setCore_nv (n : Nat) (c : Core) (s : State) : (setCore n c s).nv = s.nv := rfl
@[simp] theorem setCore_stw (n : Nat) (c : Core) (s : State) : (setCore n c s).stw = s.stw := rfl
@[simp] theorem setCore_pwr (n : Nat) (c : Core) (s : State) : (setCore n c s).pwr = s.pwr := rfl
@[simp] theorem setCore_evt (n : Nat) (c : Core) (s : State) : (setCore n c s).evt = s.evt := rfl
@[simp] theorem setCore_mrc (n : Nat) (c : Core) (s : State) : (setCore n c s).mrc = s.mrc := rfl
@[simp] theorem setCore_flm (n : Nat) (c : Core) (s : State) : (setCore n c s).flm = s.flm := rfl
@[simp] theorem setCore_ecc (n : Nat) (c : Core) (s : State) : (setCore n c s).ecc = s.ecc := rfl
@[simp] theorem setCore_ref (n : Nat) (c : Core) (s : State) : (setCore n c s).ref = s.ref := rfl
@[simp] theorem setCore_sol (n : Nat) (c : Core) (s : State) : (setCore n c s).sol = s.sol := rfl
@[simp] theorem setCore_clm (n : Nat) (c : Core) (s : State) : (setCore n c s).clm = s.clm := rfl
@[simp] theorem setCore_pro (n : Nat) (c : Core) (s : State) : (setCore n c s).pro = s.pro := rfl
@[simp] theorem setCore_air (n : Nat) (c : Core) (s : State) : (setCore n c s).air = s.air := rfl
@[simp] theorem setCore_wkr (n : Nat) (c : Core) (s : State) : (setCore n c s).wkr = s.wkr := rfl
@[simp] theorem setCore_stp (n : Nat) (c : Core) (s : State) : (setCore n c s).stp = s.stp := rfl
@[simp] theorem setCore_eth (n : Nat) (c : Core) (s : State) : (setCore n c s).eth = s.eth := rfl
@[simp] theorem setCore_ptc (n : Nat) (c : Core) (s : State) : (setCore n c s).ptc = s.ptc := rfl
@[simp] theorem setCore_can (n : Nat) (c : Core) (s : State) : (setCore n c s).can = s.can := rfl
@[simp] theorem setCore_ser (n : Nat) (c : Core) (s : State) : (setCore n c s).ser = s.ser := rfl
@[simp] theorem setCore_axs (n : Nat) (c : Core) (s : State) : (setCore n c s).axs = s.axs := rfl
@[simp] theorem setCore_dio (n : Nat) (c : Core) (s : State) : (setCore n c s).dio = s.dio := rfl
@[simp] theorem setCore_twn (n : Nat) (c : Core) (s : State) : (setCore n c s).twn = s.twn := rfl
@[simp] theorem setCore_cas (n : Nat) (c : Core) (s : State) : (setCore n c s).cas = s.cas := rfl
@[simp] theorem setCore_key (n : Nat) (c : Core) (s : State) : (setCore n c s).key = s.key := rfl
@[simp] theorem setCore_upd (n : Nat) (c : Core) (s : State) : (setCore n c s).upd = s.upd := rfl
@[simp] theorem setCore_otp (n : Nat) (c : Core) (s : State) : (setCore n c s).otp = s.otp := rfl
@[simp] theorem setCore_fsh (n : Nat) (c : Core) (s : State) : (setCore n c s).fsh = s.fsh := rfl

/-! ### setFlume changes flm alone -/

@[simp] theorem setFlume_pending (n : Nat) (f : Flume) (s : State) : (setFlume n f s).pending = s.pending := rfl
@[simp] theorem setFlume_free (n : Nat) (f : Flume) (s : State) : (setFlume n f s).free = s.free := rfl
@[simp] theorem setFlume_clk (n : Nat) (f : Flume) (s : State) : (setFlume n f s).clk = s.clk := rfl
@[simp] theorem setFlume_mem (n : Nat) (f : Flume) (s : State) : (setFlume n f s).mem = s.mem := rfl
@[simp] theorem setFlume_held (n : Nat) (f : Flume) (s : State) : (setFlume n f s).held = s.held := rfl
@[simp] theorem setFlume_notes (n : Nat) (f : Flume) (s : State) : (setFlume n f s).notes = s.notes := rfl
@[simp] theorem setFlume_out (n : Nat) (f : Flume) (s : State) : (setFlume n f s).out = s.out := rfl
@[simp] theorem setFlume_site (n : Nat) (f : Flume) (s : State) : (setFlume n f s).site = s.site := rfl
@[simp] theorem setFlume_nv (n : Nat) (f : Flume) (s : State) : (setFlume n f s).nv = s.nv := rfl
@[simp] theorem setFlume_stw (n : Nat) (f : Flume) (s : State) : (setFlume n f s).stw = s.stw := rfl
@[simp] theorem setFlume_pwr (n : Nat) (f : Flume) (s : State) : (setFlume n f s).pwr = s.pwr := rfl
@[simp] theorem setFlume_evt (n : Nat) (f : Flume) (s : State) : (setFlume n f s).evt = s.evt := rfl
@[simp] theorem setFlume_mrc (n : Nat) (f : Flume) (s : State) : (setFlume n f s).mrc = s.mrc := rfl
@[simp] theorem setFlume_ecc (n : Nat) (f : Flume) (s : State) : (setFlume n f s).ecc = s.ecc := rfl
@[simp] theorem setFlume_ref (n : Nat) (f : Flume) (s : State) : (setFlume n f s).ref = s.ref := rfl
@[simp] theorem setFlume_sol (n : Nat) (f : Flume) (s : State) : (setFlume n f s).sol = s.sol := rfl
@[simp] theorem setFlume_clm (n : Nat) (f : Flume) (s : State) : (setFlume n f s).clm = s.clm := rfl
@[simp] theorem setFlume_pro (n : Nat) (f : Flume) (s : State) : (setFlume n f s).pro = s.pro := rfl
@[simp] theorem setFlume_air (n : Nat) (f : Flume) (s : State) : (setFlume n f s).air = s.air := rfl
@[simp] theorem setFlume_wkr (n : Nat) (f : Flume) (s : State) : (setFlume n f s).wkr = s.wkr := rfl
@[simp] theorem setFlume_stp (n : Nat) (f : Flume) (s : State) : (setFlume n f s).stp = s.stp := rfl
@[simp] theorem setFlume_eth (n : Nat) (f : Flume) (s : State) : (setFlume n f s).eth = s.eth := rfl
@[simp] theorem setFlume_ptc (n : Nat) (f : Flume) (s : State) : (setFlume n f s).ptc = s.ptc := rfl
@[simp] theorem setFlume_can (n : Nat) (f : Flume) (s : State) : (setFlume n f s).can = s.can := rfl
@[simp] theorem setFlume_ser (n : Nat) (f : Flume) (s : State) : (setFlume n f s).ser = s.ser := rfl
@[simp] theorem setFlume_axs (n : Nat) (f : Flume) (s : State) : (setFlume n f s).axs = s.axs := rfl
@[simp] theorem setFlume_dio (n : Nat) (f : Flume) (s : State) : (setFlume n f s).dio = s.dio := rfl
@[simp] theorem setFlume_twn (n : Nat) (f : Flume) (s : State) : (setFlume n f s).twn = s.twn := rfl
@[simp] theorem setFlume_cas (n : Nat) (f : Flume) (s : State) : (setFlume n f s).cas = s.cas := rfl
@[simp] theorem setFlume_key (n : Nat) (f : Flume) (s : State) : (setFlume n f s).key = s.key := rfl
@[simp] theorem setFlume_upd (n : Nat) (f : Flume) (s : State) : (setFlume n f s).upd = s.upd := rfl
@[simp] theorem setFlume_otp (n : Nat) (f : Flume) (s : State) : (setFlume n f s).otp = s.otp := rfl
@[simp] theorem setFlume_fsh (n : Nat) (f : Flume) (s : State) : (setFlume n f s).fsh = s.fsh := rfl
@[simp] theorem setFlume_ccx (n : Nat) (f : Flume) (s : State) : (setFlume n f s).ccx = s.ccx := rfl

/-! ### setAir changes air alone -/

@[simp] theorem setAir_pending (a : Air) (s : State) : (setAir a s).pending = s.pending := rfl
@[simp] theorem setAir_free (a : Air) (s : State) : (setAir a s).free = s.free := rfl
@[simp] theorem setAir_clk (a : Air) (s : State) : (setAir a s).clk = s.clk := rfl
@[simp] theorem setAir_mem (a : Air) (s : State) : (setAir a s).mem = s.mem := rfl
@[simp] theorem setAir_held (a : Air) (s : State) : (setAir a s).held = s.held := rfl
@[simp] theorem setAir_notes (a : Air) (s : State) : (setAir a s).notes = s.notes := rfl
@[simp] theorem setAir_out (a : Air) (s : State) : (setAir a s).out = s.out := rfl
@[simp] theorem setAir_site (a : Air) (s : State) : (setAir a s).site = s.site := rfl
@[simp] theorem setAir_nv (a : Air) (s : State) : (setAir a s).nv = s.nv := rfl
@[simp] theorem setAir_stw (a : Air) (s : State) : (setAir a s).stw = s.stw := rfl
@[simp] theorem setAir_pwr (a : Air) (s : State) : (setAir a s).pwr = s.pwr := rfl
@[simp] theorem setAir_evt (a : Air) (s : State) : (setAir a s).evt = s.evt := rfl
@[simp] theorem setAir_mrc (a : Air) (s : State) : (setAir a s).mrc = s.mrc := rfl
@[simp] theorem setAir_flm (a : Air) (s : State) : (setAir a s).flm = s.flm := rfl
@[simp] theorem setAir_ecc (a : Air) (s : State) : (setAir a s).ecc = s.ecc := rfl
@[simp] theorem setAir_ref (a : Air) (s : State) : (setAir a s).ref = s.ref := rfl
@[simp] theorem setAir_sol (a : Air) (s : State) : (setAir a s).sol = s.sol := rfl
@[simp] theorem setAir_clm (a : Air) (s : State) : (setAir a s).clm = s.clm := rfl
@[simp] theorem setAir_pro (a : Air) (s : State) : (setAir a s).pro = s.pro := rfl
@[simp] theorem setAir_wkr (a : Air) (s : State) : (setAir a s).wkr = s.wkr := rfl
@[simp] theorem setAir_stp (a : Air) (s : State) : (setAir a s).stp = s.stp := rfl
@[simp] theorem setAir_eth (a : Air) (s : State) : (setAir a s).eth = s.eth := rfl
@[simp] theorem setAir_ptc (a : Air) (s : State) : (setAir a s).ptc = s.ptc := rfl
@[simp] theorem setAir_can (a : Air) (s : State) : (setAir a s).can = s.can := rfl
@[simp] theorem setAir_ser (a : Air) (s : State) : (setAir a s).ser = s.ser := rfl
@[simp] theorem setAir_axs (a : Air) (s : State) : (setAir a s).axs = s.axs := rfl
@[simp] theorem setAir_dio (a : Air) (s : State) : (setAir a s).dio = s.dio := rfl
@[simp] theorem setAir_twn (a : Air) (s : State) : (setAir a s).twn = s.twn := rfl
@[simp] theorem setAir_cas (a : Air) (s : State) : (setAir a s).cas = s.cas := rfl
@[simp] theorem setAir_key (a : Air) (s : State) : (setAir a s).key = s.key := rfl
@[simp] theorem setAir_upd (a : Air) (s : State) : (setAir a s).upd = s.upd := rfl
@[simp] theorem setAir_otp (a : Air) (s : State) : (setAir a s).otp = s.otp := rfl
@[simp] theorem setAir_fsh (a : Air) (s : State) : (setAir a s).fsh = s.fsh := rfl
@[simp] theorem setAir_ccx (a : Air) (s : State) : (setAir a s).ccx = s.ccx := rfl

/-! ### setAxis changes axs alone -/

@[simp] theorem setAxis_pending (n : Nat) (a : Axis) (s : State) : (setAxis n a s).pending = s.pending := rfl
@[simp] theorem setAxis_free (n : Nat) (a : Axis) (s : State) : (setAxis n a s).free = s.free := rfl
@[simp] theorem setAxis_clk (n : Nat) (a : Axis) (s : State) : (setAxis n a s).clk = s.clk := rfl
@[simp] theorem setAxis_mem (n : Nat) (a : Axis) (s : State) : (setAxis n a s).mem = s.mem := rfl
@[simp] theorem setAxis_held (n : Nat) (a : Axis) (s : State) : (setAxis n a s).held = s.held := rfl
@[simp] theorem setAxis_notes (n : Nat) (a : Axis) (s : State) : (setAxis n a s).notes = s.notes := rfl
@[simp] theorem setAxis_out (n : Nat) (a : Axis) (s : State) : (setAxis n a s).out = s.out := rfl
@[simp] theorem setAxis_site (n : Nat) (a : Axis) (s : State) : (setAxis n a s).site = s.site := rfl
@[simp] theorem setAxis_nv (n : Nat) (a : Axis) (s : State) : (setAxis n a s).nv = s.nv := rfl
@[simp] theorem setAxis_stw (n : Nat) (a : Axis) (s : State) : (setAxis n a s).stw = s.stw := rfl
@[simp] theorem setAxis_pwr (n : Nat) (a : Axis) (s : State) : (setAxis n a s).pwr = s.pwr := rfl
@[simp] theorem setAxis_evt (n : Nat) (a : Axis) (s : State) : (setAxis n a s).evt = s.evt := rfl
@[simp] theorem setAxis_mrc (n : Nat) (a : Axis) (s : State) : (setAxis n a s).mrc = s.mrc := rfl
@[simp] theorem setAxis_flm (n : Nat) (a : Axis) (s : State) : (setAxis n a s).flm = s.flm := rfl
@[simp] theorem setAxis_ecc (n : Nat) (a : Axis) (s : State) : (setAxis n a s).ecc = s.ecc := rfl
@[simp] theorem setAxis_ref (n : Nat) (a : Axis) (s : State) : (setAxis n a s).ref = s.ref := rfl
@[simp] theorem setAxis_sol (n : Nat) (a : Axis) (s : State) : (setAxis n a s).sol = s.sol := rfl
@[simp] theorem setAxis_clm (n : Nat) (a : Axis) (s : State) : (setAxis n a s).clm = s.clm := rfl
@[simp] theorem setAxis_pro (n : Nat) (a : Axis) (s : State) : (setAxis n a s).pro = s.pro := rfl
@[simp] theorem setAxis_air (n : Nat) (a : Axis) (s : State) : (setAxis n a s).air = s.air := rfl
@[simp] theorem setAxis_wkr (n : Nat) (a : Axis) (s : State) : (setAxis n a s).wkr = s.wkr := rfl
@[simp] theorem setAxis_stp (n : Nat) (a : Axis) (s : State) : (setAxis n a s).stp = s.stp := rfl
@[simp] theorem setAxis_eth (n : Nat) (a : Axis) (s : State) : (setAxis n a s).eth = s.eth := rfl
@[simp] theorem setAxis_ptc (n : Nat) (a : Axis) (s : State) : (setAxis n a s).ptc = s.ptc := rfl
@[simp] theorem setAxis_can (n : Nat) (a : Axis) (s : State) : (setAxis n a s).can = s.can := rfl
@[simp] theorem setAxis_ser (n : Nat) (a : Axis) (s : State) : (setAxis n a s).ser = s.ser := rfl
@[simp] theorem setAxis_dio (n : Nat) (a : Axis) (s : State) : (setAxis n a s).dio = s.dio := rfl
@[simp] theorem setAxis_twn (n : Nat) (a : Axis) (s : State) : (setAxis n a s).twn = s.twn := rfl
@[simp] theorem setAxis_cas (n : Nat) (a : Axis) (s : State) : (setAxis n a s).cas = s.cas := rfl
@[simp] theorem setAxis_key (n : Nat) (a : Axis) (s : State) : (setAxis n a s).key = s.key := rfl
@[simp] theorem setAxis_upd (n : Nat) (a : Axis) (s : State) : (setAxis n a s).upd = s.upd := rfl
@[simp] theorem setAxis_otp (n : Nat) (a : Axis) (s : State) : (setAxis n a s).otp = s.otp := rfl
@[simp] theorem setAxis_fsh (n : Nat) (a : Axis) (s : State) : (setAxis n a s).fsh = s.fsh := rfl
@[simp] theorem setAxis_ccx (n : Nat) (a : Axis) (s : State) : (setAxis n a s).ccx = s.ccx := rfl

/-! ### setCan changes can alone -/

@[simp] theorem setCan_pending (p : Nat) (x : CanPort) (s : State) : (setCan p x s).pending = s.pending := rfl
@[simp] theorem setCan_free (p : Nat) (x : CanPort) (s : State) : (setCan p x s).free = s.free := rfl
@[simp] theorem setCan_clk (p : Nat) (x : CanPort) (s : State) : (setCan p x s).clk = s.clk := rfl
@[simp] theorem setCan_mem (p : Nat) (x : CanPort) (s : State) : (setCan p x s).mem = s.mem := rfl
@[simp] theorem setCan_held (p : Nat) (x : CanPort) (s : State) : (setCan p x s).held = s.held := rfl
@[simp] theorem setCan_notes (p : Nat) (x : CanPort) (s : State) : (setCan p x s).notes = s.notes := rfl
@[simp] theorem setCan_out (p : Nat) (x : CanPort) (s : State) : (setCan p x s).out = s.out := rfl
@[simp] theorem setCan_site (p : Nat) (x : CanPort) (s : State) : (setCan p x s).site = s.site := rfl
@[simp] theorem setCan_nv (p : Nat) (x : CanPort) (s : State) : (setCan p x s).nv = s.nv := rfl
@[simp] theorem setCan_stw (p : Nat) (x : CanPort) (s : State) : (setCan p x s).stw = s.stw := rfl
@[simp] theorem setCan_pwr (p : Nat) (x : CanPort) (s : State) : (setCan p x s).pwr = s.pwr := rfl
@[simp] theorem setCan_evt (p : Nat) (x : CanPort) (s : State) : (setCan p x s).evt = s.evt := rfl
@[simp] theorem setCan_mrc (p : Nat) (x : CanPort) (s : State) : (setCan p x s).mrc = s.mrc := rfl
@[simp] theorem setCan_flm (p : Nat) (x : CanPort) (s : State) : (setCan p x s).flm = s.flm := rfl
@[simp] theorem setCan_ecc (p : Nat) (x : CanPort) (s : State) : (setCan p x s).ecc = s.ecc := rfl
@[simp] theorem setCan_ref (p : Nat) (x : CanPort) (s : State) : (setCan p x s).ref = s.ref := rfl
@[simp] theorem setCan_sol (p : Nat) (x : CanPort) (s : State) : (setCan p x s).sol = s.sol := rfl
@[simp] theorem setCan_clm (p : Nat) (x : CanPort) (s : State) : (setCan p x s).clm = s.clm := rfl
@[simp] theorem setCan_pro (p : Nat) (x : CanPort) (s : State) : (setCan p x s).pro = s.pro := rfl
@[simp] theorem setCan_air (p : Nat) (x : CanPort) (s : State) : (setCan p x s).air = s.air := rfl
@[simp] theorem setCan_wkr (p : Nat) (x : CanPort) (s : State) : (setCan p x s).wkr = s.wkr := rfl
@[simp] theorem setCan_stp (p : Nat) (x : CanPort) (s : State) : (setCan p x s).stp = s.stp := rfl
@[simp] theorem setCan_eth (p : Nat) (x : CanPort) (s : State) : (setCan p x s).eth = s.eth := rfl
@[simp] theorem setCan_ptc (p : Nat) (x : CanPort) (s : State) : (setCan p x s).ptc = s.ptc := rfl
@[simp] theorem setCan_ser (p : Nat) (x : CanPort) (s : State) : (setCan p x s).ser = s.ser := rfl
@[simp] theorem setCan_axs (p : Nat) (x : CanPort) (s : State) : (setCan p x s).axs = s.axs := rfl
@[simp] theorem setCan_dio (p : Nat) (x : CanPort) (s : State) : (setCan p x s).dio = s.dio := rfl
@[simp] theorem setCan_twn (p : Nat) (x : CanPort) (s : State) : (setCan p x s).twn = s.twn := rfl
@[simp] theorem setCan_cas (p : Nat) (x : CanPort) (s : State) : (setCan p x s).cas = s.cas := rfl
@[simp] theorem setCan_key (p : Nat) (x : CanPort) (s : State) : (setCan p x s).key = s.key := rfl
@[simp] theorem setCan_upd (p : Nat) (x : CanPort) (s : State) : (setCan p x s).upd = s.upd := rfl
@[simp] theorem setCan_otp (p : Nat) (x : CanPort) (s : State) : (setCan p x s).otp = s.otp := rfl
@[simp] theorem setCan_fsh (p : Nat) (x : CanPort) (s : State) : (setCan p x s).fsh = s.fsh := rfl
@[simp] theorem setCan_ccx (p : Nat) (x : CanPort) (s : State) : (setCan p x s).ccx = s.ccx := rfl

/-! ### setCas changes cas alone -/

@[simp] theorem setCas_pending (x : Cas) (s : State) : (setCas x s).pending = s.pending := rfl
@[simp] theorem setCas_free (x : Cas) (s : State) : (setCas x s).free = s.free := rfl
@[simp] theorem setCas_clk (x : Cas) (s : State) : (setCas x s).clk = s.clk := rfl
@[simp] theorem setCas_mem (x : Cas) (s : State) : (setCas x s).mem = s.mem := rfl
@[simp] theorem setCas_held (x : Cas) (s : State) : (setCas x s).held = s.held := rfl
@[simp] theorem setCas_notes (x : Cas) (s : State) : (setCas x s).notes = s.notes := rfl
@[simp] theorem setCas_out (x : Cas) (s : State) : (setCas x s).out = s.out := rfl
@[simp] theorem setCas_site (x : Cas) (s : State) : (setCas x s).site = s.site := rfl
@[simp] theorem setCas_nv (x : Cas) (s : State) : (setCas x s).nv = s.nv := rfl
@[simp] theorem setCas_stw (x : Cas) (s : State) : (setCas x s).stw = s.stw := rfl
@[simp] theorem setCas_pwr (x : Cas) (s : State) : (setCas x s).pwr = s.pwr := rfl
@[simp] theorem setCas_evt (x : Cas) (s : State) : (setCas x s).evt = s.evt := rfl
@[simp] theorem setCas_mrc (x : Cas) (s : State) : (setCas x s).mrc = s.mrc := rfl
@[simp] theorem setCas_flm (x : Cas) (s : State) : (setCas x s).flm = s.flm := rfl
@[simp] theorem setCas_ecc (x : Cas) (s : State) : (setCas x s).ecc = s.ecc := rfl
@[simp] theorem setCas_ref (x : Cas) (s : State) : (setCas x s).ref = s.ref := rfl
@[simp] theorem setCas_sol (x : Cas) (s : State) : (setCas x s).sol = s.sol := rfl
@[simp] theorem setCas_clm (x : Cas) (s : State) : (setCas x s).clm = s.clm := rfl
@[simp] theorem setCas_pro (x : Cas) (s : State) : (setCas x s).pro = s.pro := rfl
@[simp] theorem setCas_air (x : Cas) (s : State) : (setCas x s).air = s.air := rfl
@[simp] theorem setCas_wkr (x : Cas) (s : State) : (setCas x s).wkr = s.wkr := rfl
@[simp] theorem setCas_stp (x : Cas) (s : State) : (setCas x s).stp = s.stp := rfl
@[simp] theorem setCas_eth (x : Cas) (s : State) : (setCas x s).eth = s.eth := rfl
@[simp] theorem setCas_ptc (x : Cas) (s : State) : (setCas x s).ptc = s.ptc := rfl
@[simp] theorem setCas_can (x : Cas) (s : State) : (setCas x s).can = s.can := rfl
@[simp] theorem setCas_ser (x : Cas) (s : State) : (setCas x s).ser = s.ser := rfl
@[simp] theorem setCas_axs (x : Cas) (s : State) : (setCas x s).axs = s.axs := rfl
@[simp] theorem setCas_dio (x : Cas) (s : State) : (setCas x s).dio = s.dio := rfl
@[simp] theorem setCas_twn (x : Cas) (s : State) : (setCas x s).twn = s.twn := rfl
@[simp] theorem setCas_key (x : Cas) (s : State) : (setCas x s).key = s.key := rfl
@[simp] theorem setCas_upd (x : Cas) (s : State) : (setCas x s).upd = s.upd := rfl
@[simp] theorem setCas_otp (x : Cas) (s : State) : (setCas x s).otp = s.otp := rfl
@[simp] theorem setCas_fsh (x : Cas) (s : State) : (setCas x s).fsh = s.fsh := rfl
@[simp] theorem setCas_ccx (x : Cas) (s : State) : (setCas x s).ccx = s.ccx := rfl

/-! ### setChan changes pro alone -/

@[simp] theorem setChan_pending (n : Nat) (c : Chan) (s : State) : (setChan n c s).pending = s.pending := rfl
@[simp] theorem setChan_free (n : Nat) (c : Chan) (s : State) : (setChan n c s).free = s.free := rfl
@[simp] theorem setChan_clk (n : Nat) (c : Chan) (s : State) : (setChan n c s).clk = s.clk := rfl
@[simp] theorem setChan_mem (n : Nat) (c : Chan) (s : State) : (setChan n c s).mem = s.mem := rfl
@[simp] theorem setChan_held (n : Nat) (c : Chan) (s : State) : (setChan n c s).held = s.held := rfl
@[simp] theorem setChan_notes (n : Nat) (c : Chan) (s : State) : (setChan n c s).notes = s.notes := rfl
@[simp] theorem setChan_out (n : Nat) (c : Chan) (s : State) : (setChan n c s).out = s.out := rfl
@[simp] theorem setChan_site (n : Nat) (c : Chan) (s : State) : (setChan n c s).site = s.site := rfl
@[simp] theorem setChan_nv (n : Nat) (c : Chan) (s : State) : (setChan n c s).nv = s.nv := rfl
@[simp] theorem setChan_stw (n : Nat) (c : Chan) (s : State) : (setChan n c s).stw = s.stw := rfl
@[simp] theorem setChan_pwr (n : Nat) (c : Chan) (s : State) : (setChan n c s).pwr = s.pwr := rfl
@[simp] theorem setChan_evt (n : Nat) (c : Chan) (s : State) : (setChan n c s).evt = s.evt := rfl
@[simp] theorem setChan_mrc (n : Nat) (c : Chan) (s : State) : (setChan n c s).mrc = s.mrc := rfl
@[simp] theorem setChan_flm (n : Nat) (c : Chan) (s : State) : (setChan n c s).flm = s.flm := rfl
@[simp] theorem setChan_ecc (n : Nat) (c : Chan) (s : State) : (setChan n c s).ecc = s.ecc := rfl
@[simp] theorem setChan_ref (n : Nat) (c : Chan) (s : State) : (setChan n c s).ref = s.ref := rfl
@[simp] theorem setChan_sol (n : Nat) (c : Chan) (s : State) : (setChan n c s).sol = s.sol := rfl
@[simp] theorem setChan_clm (n : Nat) (c : Chan) (s : State) : (setChan n c s).clm = s.clm := rfl
@[simp] theorem setChan_air (n : Nat) (c : Chan) (s : State) : (setChan n c s).air = s.air := rfl
@[simp] theorem setChan_wkr (n : Nat) (c : Chan) (s : State) : (setChan n c s).wkr = s.wkr := rfl
@[simp] theorem setChan_stp (n : Nat) (c : Chan) (s : State) : (setChan n c s).stp = s.stp := rfl
@[simp] theorem setChan_eth (n : Nat) (c : Chan) (s : State) : (setChan n c s).eth = s.eth := rfl
@[simp] theorem setChan_ptc (n : Nat) (c : Chan) (s : State) : (setChan n c s).ptc = s.ptc := rfl
@[simp] theorem setChan_can (n : Nat) (c : Chan) (s : State) : (setChan n c s).can = s.can := rfl
@[simp] theorem setChan_ser (n : Nat) (c : Chan) (s : State) : (setChan n c s).ser = s.ser := rfl
@[simp] theorem setChan_axs (n : Nat) (c : Chan) (s : State) : (setChan n c s).axs = s.axs := rfl
@[simp] theorem setChan_dio (n : Nat) (c : Chan) (s : State) : (setChan n c s).dio = s.dio := rfl
@[simp] theorem setChan_twn (n : Nat) (c : Chan) (s : State) : (setChan n c s).twn = s.twn := rfl
@[simp] theorem setChan_cas (n : Nat) (c : Chan) (s : State) : (setChan n c s).cas = s.cas := rfl
@[simp] theorem setChan_key (n : Nat) (c : Chan) (s : State) : (setChan n c s).key = s.key := rfl
@[simp] theorem setChan_upd (n : Nat) (c : Chan) (s : State) : (setChan n c s).upd = s.upd := rfl
@[simp] theorem setChan_otp (n : Nat) (c : Chan) (s : State) : (setChan n c s).otp = s.otp := rfl
@[simp] theorem setChan_fsh (n : Nat) (c : Chan) (s : State) : (setChan n c s).fsh = s.fsh := rfl
@[simp] theorem setChan_ccx (n : Nat) (c : Chan) (s : State) : (setChan n c s).ccx = s.ccx := rfl

/-! ### setClm changes clm alone -/

@[simp] theorem setClm_pending (c : Clm) (s : State) : (setClm c s).pending = s.pending := rfl
@[simp] theorem setClm_free (c : Clm) (s : State) : (setClm c s).free = s.free := rfl
@[simp] theorem setClm_clk (c : Clm) (s : State) : (setClm c s).clk = s.clk := rfl
@[simp] theorem setClm_mem (c : Clm) (s : State) : (setClm c s).mem = s.mem := rfl
@[simp] theorem setClm_held (c : Clm) (s : State) : (setClm c s).held = s.held := rfl
@[simp] theorem setClm_notes (c : Clm) (s : State) : (setClm c s).notes = s.notes := rfl
@[simp] theorem setClm_out (c : Clm) (s : State) : (setClm c s).out = s.out := rfl
@[simp] theorem setClm_site (c : Clm) (s : State) : (setClm c s).site = s.site := rfl
@[simp] theorem setClm_nv (c : Clm) (s : State) : (setClm c s).nv = s.nv := rfl
@[simp] theorem setClm_stw (c : Clm) (s : State) : (setClm c s).stw = s.stw := rfl
@[simp] theorem setClm_pwr (c : Clm) (s : State) : (setClm c s).pwr = s.pwr := rfl
@[simp] theorem setClm_evt (c : Clm) (s : State) : (setClm c s).evt = s.evt := rfl
@[simp] theorem setClm_mrc (c : Clm) (s : State) : (setClm c s).mrc = s.mrc := rfl
@[simp] theorem setClm_flm (c : Clm) (s : State) : (setClm c s).flm = s.flm := rfl
@[simp] theorem setClm_ecc (c : Clm) (s : State) : (setClm c s).ecc = s.ecc := rfl
@[simp] theorem setClm_ref (c : Clm) (s : State) : (setClm c s).ref = s.ref := rfl
@[simp] theorem setClm_sol (c : Clm) (s : State) : (setClm c s).sol = s.sol := rfl
@[simp] theorem setClm_pro (c : Clm) (s : State) : (setClm c s).pro = s.pro := rfl
@[simp] theorem setClm_air (c : Clm) (s : State) : (setClm c s).air = s.air := rfl
@[simp] theorem setClm_wkr (c : Clm) (s : State) : (setClm c s).wkr = s.wkr := rfl
@[simp] theorem setClm_stp (c : Clm) (s : State) : (setClm c s).stp = s.stp := rfl
@[simp] theorem setClm_eth (c : Clm) (s : State) : (setClm c s).eth = s.eth := rfl
@[simp] theorem setClm_ptc (c : Clm) (s : State) : (setClm c s).ptc = s.ptc := rfl
@[simp] theorem setClm_can (c : Clm) (s : State) : (setClm c s).can = s.can := rfl
@[simp] theorem setClm_ser (c : Clm) (s : State) : (setClm c s).ser = s.ser := rfl
@[simp] theorem setClm_axs (c : Clm) (s : State) : (setClm c s).axs = s.axs := rfl
@[simp] theorem setClm_dio (c : Clm) (s : State) : (setClm c s).dio = s.dio := rfl
@[simp] theorem setClm_twn (c : Clm) (s : State) : (setClm c s).twn = s.twn := rfl
@[simp] theorem setClm_cas (c : Clm) (s : State) : (setClm c s).cas = s.cas := rfl
@[simp] theorem setClm_key (c : Clm) (s : State) : (setClm c s).key = s.key := rfl
@[simp] theorem setClm_upd (c : Clm) (s : State) : (setClm c s).upd = s.upd := rfl
@[simp] theorem setClm_otp (c : Clm) (s : State) : (setClm c s).otp = s.otp := rfl
@[simp] theorem setClm_fsh (c : Clm) (s : State) : (setClm c s).fsh = s.fsh := rfl
@[simp] theorem setClm_ccx (c : Clm) (s : State) : (setClm c s).ccx = s.ccx := rfl

/-! ### setPort changes eth alone -/

@[simp] theorem setPort_pending (p : Nat) (x : Port) (s : State) : (setPort p x s).pending = s.pending := rfl
@[simp] theorem setPort_free (p : Nat) (x : Port) (s : State) : (setPort p x s).free = s.free := rfl
@[simp] theorem setPort_clk (p : Nat) (x : Port) (s : State) : (setPort p x s).clk = s.clk := rfl
@[simp] theorem setPort_mem (p : Nat) (x : Port) (s : State) : (setPort p x s).mem = s.mem := rfl
@[simp] theorem setPort_held (p : Nat) (x : Port) (s : State) : (setPort p x s).held = s.held := rfl
@[simp] theorem setPort_notes (p : Nat) (x : Port) (s : State) : (setPort p x s).notes = s.notes := rfl
@[simp] theorem setPort_out (p : Nat) (x : Port) (s : State) : (setPort p x s).out = s.out := rfl
@[simp] theorem setPort_site (p : Nat) (x : Port) (s : State) : (setPort p x s).site = s.site := rfl
@[simp] theorem setPort_nv (p : Nat) (x : Port) (s : State) : (setPort p x s).nv = s.nv := rfl
@[simp] theorem setPort_stw (p : Nat) (x : Port) (s : State) : (setPort p x s).stw = s.stw := rfl
@[simp] theorem setPort_pwr (p : Nat) (x : Port) (s : State) : (setPort p x s).pwr = s.pwr := rfl
@[simp] theorem setPort_evt (p : Nat) (x : Port) (s : State) : (setPort p x s).evt = s.evt := rfl
@[simp] theorem setPort_mrc (p : Nat) (x : Port) (s : State) : (setPort p x s).mrc = s.mrc := rfl
@[simp] theorem setPort_flm (p : Nat) (x : Port) (s : State) : (setPort p x s).flm = s.flm := rfl
@[simp] theorem setPort_ecc (p : Nat) (x : Port) (s : State) : (setPort p x s).ecc = s.ecc := rfl
@[simp] theorem setPort_ref (p : Nat) (x : Port) (s : State) : (setPort p x s).ref = s.ref := rfl
@[simp] theorem setPort_sol (p : Nat) (x : Port) (s : State) : (setPort p x s).sol = s.sol := rfl
@[simp] theorem setPort_clm (p : Nat) (x : Port) (s : State) : (setPort p x s).clm = s.clm := rfl
@[simp] theorem setPort_pro (p : Nat) (x : Port) (s : State) : (setPort p x s).pro = s.pro := rfl
@[simp] theorem setPort_air (p : Nat) (x : Port) (s : State) : (setPort p x s).air = s.air := rfl
@[simp] theorem setPort_wkr (p : Nat) (x : Port) (s : State) : (setPort p x s).wkr = s.wkr := rfl
@[simp] theorem setPort_stp (p : Nat) (x : Port) (s : State) : (setPort p x s).stp = s.stp := rfl
@[simp] theorem setPort_ptc (p : Nat) (x : Port) (s : State) : (setPort p x s).ptc = s.ptc := rfl
@[simp] theorem setPort_can (p : Nat) (x : Port) (s : State) : (setPort p x s).can = s.can := rfl
@[simp] theorem setPort_ser (p : Nat) (x : Port) (s : State) : (setPort p x s).ser = s.ser := rfl
@[simp] theorem setPort_axs (p : Nat) (x : Port) (s : State) : (setPort p x s).axs = s.axs := rfl
@[simp] theorem setPort_dio (p : Nat) (x : Port) (s : State) : (setPort p x s).dio = s.dio := rfl
@[simp] theorem setPort_twn (p : Nat) (x : Port) (s : State) : (setPort p x s).twn = s.twn := rfl
@[simp] theorem setPort_cas (p : Nat) (x : Port) (s : State) : (setPort p x s).cas = s.cas := rfl
@[simp] theorem setPort_key (p : Nat) (x : Port) (s : State) : (setPort p x s).key = s.key := rfl
@[simp] theorem setPort_upd (p : Nat) (x : Port) (s : State) : (setPort p x s).upd = s.upd := rfl
@[simp] theorem setPort_otp (p : Nat) (x : Port) (s : State) : (setPort p x s).otp = s.otp := rfl
@[simp] theorem setPort_fsh (p : Nat) (x : Port) (s : State) : (setPort p x s).fsh = s.fsh := rfl
@[simp] theorem setPort_ccx (p : Nat) (x : Port) (s : State) : (setPort p x s).ccx = s.ccx := rfl

/-! ### setRing changes eth alone -/

@[simp] theorem setRing_pending (p r : Nat) (x : Ring) (s : State) : (setRing p r x s).pending = s.pending := rfl
@[simp] theorem setRing_free (p r : Nat) (x : Ring) (s : State) : (setRing p r x s).free = s.free := rfl
@[simp] theorem setRing_clk (p r : Nat) (x : Ring) (s : State) : (setRing p r x s).clk = s.clk := rfl
@[simp] theorem setRing_mem (p r : Nat) (x : Ring) (s : State) : (setRing p r x s).mem = s.mem := rfl
@[simp] theorem setRing_held (p r : Nat) (x : Ring) (s : State) : (setRing p r x s).held = s.held := rfl
@[simp] theorem setRing_notes (p r : Nat) (x : Ring) (s : State) : (setRing p r x s).notes = s.notes := rfl
@[simp] theorem setRing_out (p r : Nat) (x : Ring) (s : State) : (setRing p r x s).out = s.out := rfl
@[simp] theorem setRing_site (p r : Nat) (x : Ring) (s : State) : (setRing p r x s).site = s.site := rfl
@[simp] theorem setRing_nv (p r : Nat) (x : Ring) (s : State) : (setRing p r x s).nv = s.nv := rfl
@[simp] theorem setRing_stw (p r : Nat) (x : Ring) (s : State) : (setRing p r x s).stw = s.stw := rfl
@[simp] theorem setRing_pwr (p r : Nat) (x : Ring) (s : State) : (setRing p r x s).pwr = s.pwr := rfl
@[simp] theorem setRing_evt (p r : Nat) (x : Ring) (s : State) : (setRing p r x s).evt = s.evt := rfl
@[simp] theorem setRing_mrc (p r : Nat) (x : Ring) (s : State) : (setRing p r x s).mrc = s.mrc := rfl
@[simp] theorem setRing_flm (p r : Nat) (x : Ring) (s : State) : (setRing p r x s).flm = s.flm := rfl
@[simp] theorem setRing_ecc (p r : Nat) (x : Ring) (s : State) : (setRing p r x s).ecc = s.ecc := rfl
@[simp] theorem setRing_ref (p r : Nat) (x : Ring) (s : State) : (setRing p r x s).ref = s.ref := rfl
@[simp] theorem setRing_sol (p r : Nat) (x : Ring) (s : State) : (setRing p r x s).sol = s.sol := rfl
@[simp] theorem setRing_clm (p r : Nat) (x : Ring) (s : State) : (setRing p r x s).clm = s.clm := rfl
@[simp] theorem setRing_pro (p r : Nat) (x : Ring) (s : State) : (setRing p r x s).pro = s.pro := rfl
@[simp] theorem setRing_air (p r : Nat) (x : Ring) (s : State) : (setRing p r x s).air = s.air := rfl
@[simp] theorem setRing_wkr (p r : Nat) (x : Ring) (s : State) : (setRing p r x s).wkr = s.wkr := rfl
@[simp] theorem setRing_stp (p r : Nat) (x : Ring) (s : State) : (setRing p r x s).stp = s.stp := rfl
@[simp] theorem setRing_ptc (p r : Nat) (x : Ring) (s : State) : (setRing p r x s).ptc = s.ptc := rfl
@[simp] theorem setRing_can (p r : Nat) (x : Ring) (s : State) : (setRing p r x s).can = s.can := rfl
@[simp] theorem setRing_ser (p r : Nat) (x : Ring) (s : State) : (setRing p r x s).ser = s.ser := rfl
@[simp] theorem setRing_axs (p r : Nat) (x : Ring) (s : State) : (setRing p r x s).axs = s.axs := rfl
@[simp] theorem setRing_dio (p r : Nat) (x : Ring) (s : State) : (setRing p r x s).dio = s.dio := rfl
@[simp] theorem setRing_twn (p r : Nat) (x : Ring) (s : State) : (setRing p r x s).twn = s.twn := rfl
@[simp] theorem setRing_cas (p r : Nat) (x : Ring) (s : State) : (setRing p r x s).cas = s.cas := rfl
@[simp] theorem setRing_key (p r : Nat) (x : Ring) (s : State) : (setRing p r x s).key = s.key := rfl
@[simp] theorem setRing_upd (p r : Nat) (x : Ring) (s : State) : (setRing p r x s).upd = s.upd := rfl
@[simp] theorem setRing_otp (p r : Nat) (x : Ring) (s : State) : (setRing p r x s).otp = s.otp := rfl
@[simp] theorem setRing_fsh (p r : Nat) (x : Ring) (s : State) : (setRing p r x s).fsh = s.fsh := rfl
@[simp] theorem setRing_ccx (p r : Nat) (x : Ring) (s : State) : (setRing p r x s).ccx = s.ccx := rfl

/-! ### setKey changes key alone -/

@[simp] theorem setKey_pending (k : Key) (s : State) : (setKey k s).pending = s.pending := rfl
@[simp] theorem setKey_free (k : Key) (s : State) : (setKey k s).free = s.free := rfl
@[simp] theorem setKey_clk (k : Key) (s : State) : (setKey k s).clk = s.clk := rfl
@[simp] theorem setKey_mem (k : Key) (s : State) : (setKey k s).mem = s.mem := rfl
@[simp] theorem setKey_held (k : Key) (s : State) : (setKey k s).held = s.held := rfl
@[simp] theorem setKey_notes (k : Key) (s : State) : (setKey k s).notes = s.notes := rfl
@[simp] theorem setKey_out (k : Key) (s : State) : (setKey k s).out = s.out := rfl
@[simp] theorem setKey_site (k : Key) (s : State) : (setKey k s).site = s.site := rfl
@[simp] theorem setKey_nv (k : Key) (s : State) : (setKey k s).nv = s.nv := rfl
@[simp] theorem setKey_stw (k : Key) (s : State) : (setKey k s).stw = s.stw := rfl
@[simp] theorem setKey_pwr (k : Key) (s : State) : (setKey k s).pwr = s.pwr := rfl
@[simp] theorem setKey_evt (k : Key) (s : State) : (setKey k s).evt = s.evt := rfl
@[simp] theorem setKey_mrc (k : Key) (s : State) : (setKey k s).mrc = s.mrc := rfl
@[simp] theorem setKey_flm (k : Key) (s : State) : (setKey k s).flm = s.flm := rfl
@[simp] theorem setKey_ecc (k : Key) (s : State) : (setKey k s).ecc = s.ecc := rfl
@[simp] theorem setKey_ref (k : Key) (s : State) : (setKey k s).ref = s.ref := rfl
@[simp] theorem setKey_sol (k : Key) (s : State) : (setKey k s).sol = s.sol := rfl
@[simp] theorem setKey_clm (k : Key) (s : State) : (setKey k s).clm = s.clm := rfl
@[simp] theorem setKey_pro (k : Key) (s : State) : (setKey k s).pro = s.pro := rfl
@[simp] theorem setKey_air (k : Key) (s : State) : (setKey k s).air = s.air := rfl
@[simp] theorem setKey_wkr (k : Key) (s : State) : (setKey k s).wkr = s.wkr := rfl
@[simp] theorem setKey_stp (k : Key) (s : State) : (setKey k s).stp = s.stp := rfl
@[simp] theorem setKey_eth (k : Key) (s : State) : (setKey k s).eth = s.eth := rfl
@[simp] theorem setKey_ptc (k : Key) (s : State) : (setKey k s).ptc = s.ptc := rfl
@[simp] theorem setKey_can (k : Key) (s : State) : (setKey k s).can = s.can := rfl
@[simp] theorem setKey_ser (k : Key) (s : State) : (setKey k s).ser = s.ser := rfl
@[simp] theorem setKey_axs (k : Key) (s : State) : (setKey k s).axs = s.axs := rfl
@[simp] theorem setKey_dio (k : Key) (s : State) : (setKey k s).dio = s.dio := rfl
@[simp] theorem setKey_twn (k : Key) (s : State) : (setKey k s).twn = s.twn := rfl
@[simp] theorem setKey_cas (k : Key) (s : State) : (setKey k s).cas = s.cas := rfl
@[simp] theorem setKey_upd (k : Key) (s : State) : (setKey k s).upd = s.upd := rfl
@[simp] theorem setKey_otp (k : Key) (s : State) : (setKey k s).otp = s.otp := rfl
@[simp] theorem setKey_fsh (k : Key) (s : State) : (setKey k s).fsh = s.fsh := rfl
@[simp] theorem setKey_ccx (k : Key) (s : State) : (setKey k s).ccx = s.ccx := rfl

/-! ### setEvt changes evt alone -/

@[simp] theorem setEvt_pending (x : Evt) (s : State) : (setEvt x s).pending = s.pending := rfl
@[simp] theorem setEvt_free (x : Evt) (s : State) : (setEvt x s).free = s.free := rfl
@[simp] theorem setEvt_clk (x : Evt) (s : State) : (setEvt x s).clk = s.clk := rfl
@[simp] theorem setEvt_mem (x : Evt) (s : State) : (setEvt x s).mem = s.mem := rfl
@[simp] theorem setEvt_held (x : Evt) (s : State) : (setEvt x s).held = s.held := rfl
@[simp] theorem setEvt_notes (x : Evt) (s : State) : (setEvt x s).notes = s.notes := rfl
@[simp] theorem setEvt_out (x : Evt) (s : State) : (setEvt x s).out = s.out := rfl
@[simp] theorem setEvt_site (x : Evt) (s : State) : (setEvt x s).site = s.site := rfl
@[simp] theorem setEvt_nv (x : Evt) (s : State) : (setEvt x s).nv = s.nv := rfl
@[simp] theorem setEvt_stw (x : Evt) (s : State) : (setEvt x s).stw = s.stw := rfl
@[simp] theorem setEvt_pwr (x : Evt) (s : State) : (setEvt x s).pwr = s.pwr := rfl
@[simp] theorem setEvt_mrc (x : Evt) (s : State) : (setEvt x s).mrc = s.mrc := rfl
@[simp] theorem setEvt_flm (x : Evt) (s : State) : (setEvt x s).flm = s.flm := rfl
@[simp] theorem setEvt_ecc (x : Evt) (s : State) : (setEvt x s).ecc = s.ecc := rfl
@[simp] theorem setEvt_ref (x : Evt) (s : State) : (setEvt x s).ref = s.ref := rfl
@[simp] theorem setEvt_sol (x : Evt) (s : State) : (setEvt x s).sol = s.sol := rfl
@[simp] theorem setEvt_clm (x : Evt) (s : State) : (setEvt x s).clm = s.clm := rfl
@[simp] theorem setEvt_pro (x : Evt) (s : State) : (setEvt x s).pro = s.pro := rfl
@[simp] theorem setEvt_air (x : Evt) (s : State) : (setEvt x s).air = s.air := rfl
@[simp] theorem setEvt_wkr (x : Evt) (s : State) : (setEvt x s).wkr = s.wkr := rfl
@[simp] theorem setEvt_stp (x : Evt) (s : State) : (setEvt x s).stp = s.stp := rfl
@[simp] theorem setEvt_eth (x : Evt) (s : State) : (setEvt x s).eth = s.eth := rfl
@[simp] theorem setEvt_ptc (x : Evt) (s : State) : (setEvt x s).ptc = s.ptc := rfl
@[simp] theorem setEvt_can (x : Evt) (s : State) : (setEvt x s).can = s.can := rfl
@[simp] theorem setEvt_ser (x : Evt) (s : State) : (setEvt x s).ser = s.ser := rfl
@[simp] theorem setEvt_axs (x : Evt) (s : State) : (setEvt x s).axs = s.axs := rfl
@[simp] theorem setEvt_dio (x : Evt) (s : State) : (setEvt x s).dio = s.dio := rfl
@[simp] theorem setEvt_twn (x : Evt) (s : State) : (setEvt x s).twn = s.twn := rfl
@[simp] theorem setEvt_cas (x : Evt) (s : State) : (setEvt x s).cas = s.cas := rfl
@[simp] theorem setEvt_key (x : Evt) (s : State) : (setEvt x s).key = s.key := rfl
@[simp] theorem setEvt_upd (x : Evt) (s : State) : (setEvt x s).upd = s.upd := rfl
@[simp] theorem setEvt_otp (x : Evt) (s : State) : (setEvt x s).otp = s.otp := rfl
@[simp] theorem setEvt_fsh (x : Evt) (s : State) : (setEvt x s).fsh = s.fsh := rfl
@[simp] theorem setEvt_ccx (x : Evt) (s : State) : (setEvt x s).ccx = s.ccx := rfl

/-! ### setItem changes mrc alone -/

@[simp] theorem setItem_pending (q : Nat) (i : Item) (s : State) : (setItem q i s).pending = s.pending := rfl
@[simp] theorem setItem_free (q : Nat) (i : Item) (s : State) : (setItem q i s).free = s.free := rfl
@[simp] theorem setItem_clk (q : Nat) (i : Item) (s : State) : (setItem q i s).clk = s.clk := rfl
@[simp] theorem setItem_mem (q : Nat) (i : Item) (s : State) : (setItem q i s).mem = s.mem := rfl
@[simp] theorem setItem_held (q : Nat) (i : Item) (s : State) : (setItem q i s).held = s.held := rfl
@[simp] theorem setItem_notes (q : Nat) (i : Item) (s : State) : (setItem q i s).notes = s.notes := rfl
@[simp] theorem setItem_out (q : Nat) (i : Item) (s : State) : (setItem q i s).out = s.out := rfl
@[simp] theorem setItem_site (q : Nat) (i : Item) (s : State) : (setItem q i s).site = s.site := rfl
@[simp] theorem setItem_nv (q : Nat) (i : Item) (s : State) : (setItem q i s).nv = s.nv := rfl
@[simp] theorem setItem_stw (q : Nat) (i : Item) (s : State) : (setItem q i s).stw = s.stw := rfl
@[simp] theorem setItem_pwr (q : Nat) (i : Item) (s : State) : (setItem q i s).pwr = s.pwr := rfl
@[simp] theorem setItem_evt (q : Nat) (i : Item) (s : State) : (setItem q i s).evt = s.evt := rfl
@[simp] theorem setItem_flm (q : Nat) (i : Item) (s : State) : (setItem q i s).flm = s.flm := rfl
@[simp] theorem setItem_ecc (q : Nat) (i : Item) (s : State) : (setItem q i s).ecc = s.ecc := rfl
@[simp] theorem setItem_ref (q : Nat) (i : Item) (s : State) : (setItem q i s).ref = s.ref := rfl
@[simp] theorem setItem_sol (q : Nat) (i : Item) (s : State) : (setItem q i s).sol = s.sol := rfl
@[simp] theorem setItem_clm (q : Nat) (i : Item) (s : State) : (setItem q i s).clm = s.clm := rfl
@[simp] theorem setItem_pro (q : Nat) (i : Item) (s : State) : (setItem q i s).pro = s.pro := rfl
@[simp] theorem setItem_air (q : Nat) (i : Item) (s : State) : (setItem q i s).air = s.air := rfl
@[simp] theorem setItem_wkr (q : Nat) (i : Item) (s : State) : (setItem q i s).wkr = s.wkr := rfl
@[simp] theorem setItem_stp (q : Nat) (i : Item) (s : State) : (setItem q i s).stp = s.stp := rfl
@[simp] theorem setItem_eth (q : Nat) (i : Item) (s : State) : (setItem q i s).eth = s.eth := rfl
@[simp] theorem setItem_ptc (q : Nat) (i : Item) (s : State) : (setItem q i s).ptc = s.ptc := rfl
@[simp] theorem setItem_can (q : Nat) (i : Item) (s : State) : (setItem q i s).can = s.can := rfl
@[simp] theorem setItem_ser (q : Nat) (i : Item) (s : State) : (setItem q i s).ser = s.ser := rfl
@[simp] theorem setItem_axs (q : Nat) (i : Item) (s : State) : (setItem q i s).axs = s.axs := rfl
@[simp] theorem setItem_dio (q : Nat) (i : Item) (s : State) : (setItem q i s).dio = s.dio := rfl
@[simp] theorem setItem_twn (q : Nat) (i : Item) (s : State) : (setItem q i s).twn = s.twn := rfl
@[simp] theorem setItem_cas (q : Nat) (i : Item) (s : State) : (setItem q i s).cas = s.cas := rfl
@[simp] theorem setItem_key (q : Nat) (i : Item) (s : State) : (setItem q i s).key = s.key := rfl
@[simp] theorem setItem_upd (q : Nat) (i : Item) (s : State) : (setItem q i s).upd = s.upd := rfl
@[simp] theorem setItem_otp (q : Nat) (i : Item) (s : State) : (setItem q i s).otp = s.otp := rfl
@[simp] theorem setItem_fsh (q : Nat) (i : Item) (s : State) : (setItem q i s).fsh = s.fsh := rfl
@[simp] theorem setItem_ccx (q : Nat) (i : Item) (s : State) : (setItem q i s).ccx = s.ccx := rfl

/-! ### setFlow changes mrc alone -/

@[simp] theorem setFlow_pending (f : Nat) (x : Flow) (s : State) : (setFlow f x s).pending = s.pending := rfl
@[simp] theorem setFlow_free (f : Nat) (x : Flow) (s : State) : (setFlow f x s).free = s.free := rfl
@[simp] theorem setFlow_clk (f : Nat) (x : Flow) (s : State) : (setFlow f x s).clk = s.clk := rfl
@[simp] theorem setFlow_mem (f : Nat) (x : Flow) (s : State) : (setFlow f x s).mem = s.mem := rfl
@[simp] theorem setFlow_held (f : Nat) (x : Flow) (s : State) : (setFlow f x s).held = s.held := rfl
@[simp] theorem setFlow_notes (f : Nat) (x : Flow) (s : State) : (setFlow f x s).notes = s.notes := rfl
@[simp] theorem setFlow_out (f : Nat) (x : Flow) (s : State) : (setFlow f x s).out = s.out := rfl
@[simp] theorem setFlow_site (f : Nat) (x : Flow) (s : State) : (setFlow f x s).site = s.site := rfl
@[simp] theorem setFlow_nv (f : Nat) (x : Flow) (s : State) : (setFlow f x s).nv = s.nv := rfl
@[simp] theorem setFlow_stw (f : Nat) (x : Flow) (s : State) : (setFlow f x s).stw = s.stw := rfl
@[simp] theorem setFlow_pwr (f : Nat) (x : Flow) (s : State) : (setFlow f x s).pwr = s.pwr := rfl
@[simp] theorem setFlow_evt (f : Nat) (x : Flow) (s : State) : (setFlow f x s).evt = s.evt := rfl
@[simp] theorem setFlow_flm (f : Nat) (x : Flow) (s : State) : (setFlow f x s).flm = s.flm := rfl
@[simp] theorem setFlow_ecc (f : Nat) (x : Flow) (s : State) : (setFlow f x s).ecc = s.ecc := rfl
@[simp] theorem setFlow_ref (f : Nat) (x : Flow) (s : State) : (setFlow f x s).ref = s.ref := rfl
@[simp] theorem setFlow_sol (f : Nat) (x : Flow) (s : State) : (setFlow f x s).sol = s.sol := rfl
@[simp] theorem setFlow_clm (f : Nat) (x : Flow) (s : State) : (setFlow f x s).clm = s.clm := rfl
@[simp] theorem setFlow_pro (f : Nat) (x : Flow) (s : State) : (setFlow f x s).pro = s.pro := rfl
@[simp] theorem setFlow_air (f : Nat) (x : Flow) (s : State) : (setFlow f x s).air = s.air := rfl
@[simp] theorem setFlow_wkr (f : Nat) (x : Flow) (s : State) : (setFlow f x s).wkr = s.wkr := rfl
@[simp] theorem setFlow_stp (f : Nat) (x : Flow) (s : State) : (setFlow f x s).stp = s.stp := rfl
@[simp] theorem setFlow_eth (f : Nat) (x : Flow) (s : State) : (setFlow f x s).eth = s.eth := rfl
@[simp] theorem setFlow_ptc (f : Nat) (x : Flow) (s : State) : (setFlow f x s).ptc = s.ptc := rfl
@[simp] theorem setFlow_can (f : Nat) (x : Flow) (s : State) : (setFlow f x s).can = s.can := rfl
@[simp] theorem setFlow_ser (f : Nat) (x : Flow) (s : State) : (setFlow f x s).ser = s.ser := rfl
@[simp] theorem setFlow_axs (f : Nat) (x : Flow) (s : State) : (setFlow f x s).axs = s.axs := rfl
@[simp] theorem setFlow_dio (f : Nat) (x : Flow) (s : State) : (setFlow f x s).dio = s.dio := rfl
@[simp] theorem setFlow_twn (f : Nat) (x : Flow) (s : State) : (setFlow f x s).twn = s.twn := rfl
@[simp] theorem setFlow_cas (f : Nat) (x : Flow) (s : State) : (setFlow f x s).cas = s.cas := rfl
@[simp] theorem setFlow_key (f : Nat) (x : Flow) (s : State) : (setFlow f x s).key = s.key := rfl
@[simp] theorem setFlow_upd (f : Nat) (x : Flow) (s : State) : (setFlow f x s).upd = s.upd := rfl
@[simp] theorem setFlow_otp (f : Nat) (x : Flow) (s : State) : (setFlow f x s).otp = s.otp := rfl
@[simp] theorem setFlow_fsh (f : Nat) (x : Flow) (s : State) : (setFlow f x s).fsh = s.fsh := rfl
@[simp] theorem setFlow_ccx (f : Nat) (x : Flow) (s : State) : (setFlow f x s).ccx = s.ccx := rfl

/-! ### setReady changes mrc alone -/

@[simp] theorem setReady_pending (l : Nat) (q : List Nat) (s : State) : (setReady l q s).pending = s.pending := rfl
@[simp] theorem setReady_free (l : Nat) (q : List Nat) (s : State) : (setReady l q s).free = s.free := rfl
@[simp] theorem setReady_clk (l : Nat) (q : List Nat) (s : State) : (setReady l q s).clk = s.clk := rfl
@[simp] theorem setReady_mem (l : Nat) (q : List Nat) (s : State) : (setReady l q s).mem = s.mem := rfl
@[simp] theorem setReady_held (l : Nat) (q : List Nat) (s : State) : (setReady l q s).held = s.held := rfl
@[simp] theorem setReady_notes (l : Nat) (q : List Nat) (s : State) : (setReady l q s).notes = s.notes := rfl
@[simp] theorem setReady_out (l : Nat) (q : List Nat) (s : State) : (setReady l q s).out = s.out := rfl
@[simp] theorem setReady_site (l : Nat) (q : List Nat) (s : State) : (setReady l q s).site = s.site := rfl
@[simp] theorem setReady_nv (l : Nat) (q : List Nat) (s : State) : (setReady l q s).nv = s.nv := rfl
@[simp] theorem setReady_stw (l : Nat) (q : List Nat) (s : State) : (setReady l q s).stw = s.stw := rfl
@[simp] theorem setReady_pwr (l : Nat) (q : List Nat) (s : State) : (setReady l q s).pwr = s.pwr := rfl
@[simp] theorem setReady_evt (l : Nat) (q : List Nat) (s : State) : (setReady l q s).evt = s.evt := rfl
@[simp] theorem setReady_flm (l : Nat) (q : List Nat) (s : State) : (setReady l q s).flm = s.flm := rfl
@[simp] theorem setReady_ecc (l : Nat) (q : List Nat) (s : State) : (setReady l q s).ecc = s.ecc := rfl
@[simp] theorem setReady_ref (l : Nat) (q : List Nat) (s : State) : (setReady l q s).ref = s.ref := rfl
@[simp] theorem setReady_sol (l : Nat) (q : List Nat) (s : State) : (setReady l q s).sol = s.sol := rfl
@[simp] theorem setReady_clm (l : Nat) (q : List Nat) (s : State) : (setReady l q s).clm = s.clm := rfl
@[simp] theorem setReady_pro (l : Nat) (q : List Nat) (s : State) : (setReady l q s).pro = s.pro := rfl
@[simp] theorem setReady_air (l : Nat) (q : List Nat) (s : State) : (setReady l q s).air = s.air := rfl
@[simp] theorem setReady_wkr (l : Nat) (q : List Nat) (s : State) : (setReady l q s).wkr = s.wkr := rfl
@[simp] theorem setReady_stp (l : Nat) (q : List Nat) (s : State) : (setReady l q s).stp = s.stp := rfl
@[simp] theorem setReady_eth (l : Nat) (q : List Nat) (s : State) : (setReady l q s).eth = s.eth := rfl
@[simp] theorem setReady_ptc (l : Nat) (q : List Nat) (s : State) : (setReady l q s).ptc = s.ptc := rfl
@[simp] theorem setReady_can (l : Nat) (q : List Nat) (s : State) : (setReady l q s).can = s.can := rfl
@[simp] theorem setReady_ser (l : Nat) (q : List Nat) (s : State) : (setReady l q s).ser = s.ser := rfl
@[simp] theorem setReady_axs (l : Nat) (q : List Nat) (s : State) : (setReady l q s).axs = s.axs := rfl
@[simp] theorem setReady_dio (l : Nat) (q : List Nat) (s : State) : (setReady l q s).dio = s.dio := rfl
@[simp] theorem setReady_twn (l : Nat) (q : List Nat) (s : State) : (setReady l q s).twn = s.twn := rfl
@[simp] theorem setReady_cas (l : Nat) (q : List Nat) (s : State) : (setReady l q s).cas = s.cas := rfl
@[simp] theorem setReady_key (l : Nat) (q : List Nat) (s : State) : (setReady l q s).key = s.key := rfl
@[simp] theorem setReady_upd (l : Nat) (q : List Nat) (s : State) : (setReady l q s).upd = s.upd := rfl
@[simp] theorem setReady_otp (l : Nat) (q : List Nat) (s : State) : (setReady l q s).otp = s.otp := rfl
@[simp] theorem setReady_fsh (l : Nat) (q : List Nat) (s : State) : (setReady l q s).fsh = s.fsh := rfl
@[simp] theorem setReady_ccx (l : Nat) (q : List Nat) (s : State) : (setReady l q s).ccx = s.ccx := rfl

/-! ### setPtp changes ptc alone -/

@[simp] theorem setPtp_pending (p : Nat) (x : PtpPort) (s : State) : (setPtp p x s).pending = s.pending := rfl
@[simp] theorem setPtp_free (p : Nat) (x : PtpPort) (s : State) : (setPtp p x s).free = s.free := rfl
@[simp] theorem setPtp_clk (p : Nat) (x : PtpPort) (s : State) : (setPtp p x s).clk = s.clk := rfl
@[simp] theorem setPtp_mem (p : Nat) (x : PtpPort) (s : State) : (setPtp p x s).mem = s.mem := rfl
@[simp] theorem setPtp_held (p : Nat) (x : PtpPort) (s : State) : (setPtp p x s).held = s.held := rfl
@[simp] theorem setPtp_notes (p : Nat) (x : PtpPort) (s : State) : (setPtp p x s).notes = s.notes := rfl
@[simp] theorem setPtp_out (p : Nat) (x : PtpPort) (s : State) : (setPtp p x s).out = s.out := rfl
@[simp] theorem setPtp_site (p : Nat) (x : PtpPort) (s : State) : (setPtp p x s).site = s.site := rfl
@[simp] theorem setPtp_nv (p : Nat) (x : PtpPort) (s : State) : (setPtp p x s).nv = s.nv := rfl
@[simp] theorem setPtp_stw (p : Nat) (x : PtpPort) (s : State) : (setPtp p x s).stw = s.stw := rfl
@[simp] theorem setPtp_pwr (p : Nat) (x : PtpPort) (s : State) : (setPtp p x s).pwr = s.pwr := rfl
@[simp] theorem setPtp_evt (p : Nat) (x : PtpPort) (s : State) : (setPtp p x s).evt = s.evt := rfl
@[simp] theorem setPtp_mrc (p : Nat) (x : PtpPort) (s : State) : (setPtp p x s).mrc = s.mrc := rfl
@[simp] theorem setPtp_flm (p : Nat) (x : PtpPort) (s : State) : (setPtp p x s).flm = s.flm := rfl
@[simp] theorem setPtp_ecc (p : Nat) (x : PtpPort) (s : State) : (setPtp p x s).ecc = s.ecc := rfl
@[simp] theorem setPtp_ref (p : Nat) (x : PtpPort) (s : State) : (setPtp p x s).ref = s.ref := rfl
@[simp] theorem setPtp_sol (p : Nat) (x : PtpPort) (s : State) : (setPtp p x s).sol = s.sol := rfl
@[simp] theorem setPtp_clm (p : Nat) (x : PtpPort) (s : State) : (setPtp p x s).clm = s.clm := rfl
@[simp] theorem setPtp_pro (p : Nat) (x : PtpPort) (s : State) : (setPtp p x s).pro = s.pro := rfl
@[simp] theorem setPtp_air (p : Nat) (x : PtpPort) (s : State) : (setPtp p x s).air = s.air := rfl
@[simp] theorem setPtp_wkr (p : Nat) (x : PtpPort) (s : State) : (setPtp p x s).wkr = s.wkr := rfl
@[simp] theorem setPtp_stp (p : Nat) (x : PtpPort) (s : State) : (setPtp p x s).stp = s.stp := rfl
@[simp] theorem setPtp_eth (p : Nat) (x : PtpPort) (s : State) : (setPtp p x s).eth = s.eth := rfl
@[simp] theorem setPtp_can (p : Nat) (x : PtpPort) (s : State) : (setPtp p x s).can = s.can := rfl
@[simp] theorem setPtp_ser (p : Nat) (x : PtpPort) (s : State) : (setPtp p x s).ser = s.ser := rfl
@[simp] theorem setPtp_axs (p : Nat) (x : PtpPort) (s : State) : (setPtp p x s).axs = s.axs := rfl
@[simp] theorem setPtp_dio (p : Nat) (x : PtpPort) (s : State) : (setPtp p x s).dio = s.dio := rfl
@[simp] theorem setPtp_twn (p : Nat) (x : PtpPort) (s : State) : (setPtp p x s).twn = s.twn := rfl
@[simp] theorem setPtp_cas (p : Nat) (x : PtpPort) (s : State) : (setPtp p x s).cas = s.cas := rfl
@[simp] theorem setPtp_key (p : Nat) (x : PtpPort) (s : State) : (setPtp p x s).key = s.key := rfl
@[simp] theorem setPtp_upd (p : Nat) (x : PtpPort) (s : State) : (setPtp p x s).upd = s.upd := rfl
@[simp] theorem setPtp_otp (p : Nat) (x : PtpPort) (s : State) : (setPtp p x s).otp = s.otp := rfl
@[simp] theorem setPtp_fsh (p : Nat) (x : PtpPort) (s : State) : (setPtp p x s).fsh = s.fsh := rfl
@[simp] theorem setPtp_ccx (p : Nat) (x : PtpPort) (s : State) : (setPtp p x s).ccx = s.ccx := rfl

/-! ### setPwr changes pwr alone -/

@[simp] theorem setPwr_pending (x : Pwr) (s : State) : (setPwr x s).pending = s.pending := rfl
@[simp] theorem setPwr_free (x : Pwr) (s : State) : (setPwr x s).free = s.free := rfl
@[simp] theorem setPwr_clk (x : Pwr) (s : State) : (setPwr x s).clk = s.clk := rfl
@[simp] theorem setPwr_mem (x : Pwr) (s : State) : (setPwr x s).mem = s.mem := rfl
@[simp] theorem setPwr_held (x : Pwr) (s : State) : (setPwr x s).held = s.held := rfl
@[simp] theorem setPwr_notes (x : Pwr) (s : State) : (setPwr x s).notes = s.notes := rfl
@[simp] theorem setPwr_out (x : Pwr) (s : State) : (setPwr x s).out = s.out := rfl
@[simp] theorem setPwr_site (x : Pwr) (s : State) : (setPwr x s).site = s.site := rfl
@[simp] theorem setPwr_nv (x : Pwr) (s : State) : (setPwr x s).nv = s.nv := rfl
@[simp] theorem setPwr_stw (x : Pwr) (s : State) : (setPwr x s).stw = s.stw := rfl
@[simp] theorem setPwr_evt (x : Pwr) (s : State) : (setPwr x s).evt = s.evt := rfl
@[simp] theorem setPwr_mrc (x : Pwr) (s : State) : (setPwr x s).mrc = s.mrc := rfl
@[simp] theorem setPwr_flm (x : Pwr) (s : State) : (setPwr x s).flm = s.flm := rfl
@[simp] theorem setPwr_ecc (x : Pwr) (s : State) : (setPwr x s).ecc = s.ecc := rfl
@[simp] theorem setPwr_ref (x : Pwr) (s : State) : (setPwr x s).ref = s.ref := rfl
@[simp] theorem setPwr_sol (x : Pwr) (s : State) : (setPwr x s).sol = s.sol := rfl
@[simp] theorem setPwr_clm (x : Pwr) (s : State) : (setPwr x s).clm = s.clm := rfl
@[simp] theorem setPwr_pro (x : Pwr) (s : State) : (setPwr x s).pro = s.pro := rfl
@[simp] theorem setPwr_air (x : Pwr) (s : State) : (setPwr x s).air = s.air := rfl
@[simp] theorem setPwr_wkr (x : Pwr) (s : State) : (setPwr x s).wkr = s.wkr := rfl
@[simp] theorem setPwr_stp (x : Pwr) (s : State) : (setPwr x s).stp = s.stp := rfl
@[simp] theorem setPwr_eth (x : Pwr) (s : State) : (setPwr x s).eth = s.eth := rfl
@[simp] theorem setPwr_ptc (x : Pwr) (s : State) : (setPwr x s).ptc = s.ptc := rfl
@[simp] theorem setPwr_can (x : Pwr) (s : State) : (setPwr x s).can = s.can := rfl
@[simp] theorem setPwr_ser (x : Pwr) (s : State) : (setPwr x s).ser = s.ser := rfl
@[simp] theorem setPwr_axs (x : Pwr) (s : State) : (setPwr x s).axs = s.axs := rfl
@[simp] theorem setPwr_dio (x : Pwr) (s : State) : (setPwr x s).dio = s.dio := rfl
@[simp] theorem setPwr_twn (x : Pwr) (s : State) : (setPwr x s).twn = s.twn := rfl
@[simp] theorem setPwr_cas (x : Pwr) (s : State) : (setPwr x s).cas = s.cas := rfl
@[simp] theorem setPwr_key (x : Pwr) (s : State) : (setPwr x s).key = s.key := rfl
@[simp] theorem setPwr_upd (x : Pwr) (s : State) : (setPwr x s).upd = s.upd := rfl
@[simp] theorem setPwr_otp (x : Pwr) (s : State) : (setPwr x s).otp = s.otp := rfl
@[simp] theorem setPwr_fsh (x : Pwr) (s : State) : (setPwr x s).fsh = s.fsh := rfl
@[simp] theorem setPwr_ccx (x : Pwr) (s : State) : (setPwr x s).ccx = s.ccx := rfl

/-! ### setRef changes ref alone -/

@[simp] theorem setRef_pending (r : Ref) (s : State) : (setRef r s).pending = s.pending := rfl
@[simp] theorem setRef_free (r : Ref) (s : State) : (setRef r s).free = s.free := rfl
@[simp] theorem setRef_clk (r : Ref) (s : State) : (setRef r s).clk = s.clk := rfl
@[simp] theorem setRef_mem (r : Ref) (s : State) : (setRef r s).mem = s.mem := rfl
@[simp] theorem setRef_held (r : Ref) (s : State) : (setRef r s).held = s.held := rfl
@[simp] theorem setRef_notes (r : Ref) (s : State) : (setRef r s).notes = s.notes := rfl
@[simp] theorem setRef_out (r : Ref) (s : State) : (setRef r s).out = s.out := rfl
@[simp] theorem setRef_site (r : Ref) (s : State) : (setRef r s).site = s.site := rfl
@[simp] theorem setRef_nv (r : Ref) (s : State) : (setRef r s).nv = s.nv := rfl
@[simp] theorem setRef_stw (r : Ref) (s : State) : (setRef r s).stw = s.stw := rfl
@[simp] theorem setRef_pwr (r : Ref) (s : State) : (setRef r s).pwr = s.pwr := rfl
@[simp] theorem setRef_evt (r : Ref) (s : State) : (setRef r s).evt = s.evt := rfl
@[simp] theorem setRef_mrc (r : Ref) (s : State) : (setRef r s).mrc = s.mrc := rfl
@[simp] theorem setRef_flm (r : Ref) (s : State) : (setRef r s).flm = s.flm := rfl
@[simp] theorem setRef_ecc (r : Ref) (s : State) : (setRef r s).ecc = s.ecc := rfl
@[simp] theorem setRef_sol (r : Ref) (s : State) : (setRef r s).sol = s.sol := rfl
@[simp] theorem setRef_clm (r : Ref) (s : State) : (setRef r s).clm = s.clm := rfl
@[simp] theorem setRef_pro (r : Ref) (s : State) : (setRef r s).pro = s.pro := rfl
@[simp] theorem setRef_air (r : Ref) (s : State) : (setRef r s).air = s.air := rfl
@[simp] theorem setRef_wkr (r : Ref) (s : State) : (setRef r s).wkr = s.wkr := rfl
@[simp] theorem setRef_stp (r : Ref) (s : State) : (setRef r s).stp = s.stp := rfl
@[simp] theorem setRef_eth (r : Ref) (s : State) : (setRef r s).eth = s.eth := rfl
@[simp] theorem setRef_ptc (r : Ref) (s : State) : (setRef r s).ptc = s.ptc := rfl
@[simp] theorem setRef_can (r : Ref) (s : State) : (setRef r s).can = s.can := rfl
@[simp] theorem setRef_ser (r : Ref) (s : State) : (setRef r s).ser = s.ser := rfl
@[simp] theorem setRef_axs (r : Ref) (s : State) : (setRef r s).axs = s.axs := rfl
@[simp] theorem setRef_dio (r : Ref) (s : State) : (setRef r s).dio = s.dio := rfl
@[simp] theorem setRef_twn (r : Ref) (s : State) : (setRef r s).twn = s.twn := rfl
@[simp] theorem setRef_cas (r : Ref) (s : State) : (setRef r s).cas = s.cas := rfl
@[simp] theorem setRef_key (r : Ref) (s : State) : (setRef r s).key = s.key := rfl
@[simp] theorem setRef_upd (r : Ref) (s : State) : (setRef r s).upd = s.upd := rfl
@[simp] theorem setRef_otp (r : Ref) (s : State) : (setRef r s).otp = s.otp := rfl
@[simp] theorem setRef_fsh (r : Ref) (s : State) : (setRef r s).fsh = s.fsh := rfl
@[simp] theorem setRef_ccx (r : Ref) (s : State) : (setRef r s).ccx = s.ccx := rfl

/-! ### setSiteInc changes clk alone -/

@[simp] theorem setSiteInc_pending (d : Int) (s : State) : (setSiteInc d s).pending = s.pending := rfl
@[simp] theorem setSiteInc_free (d : Int) (s : State) : (setSiteInc d s).free = s.free := rfl
@[simp] theorem setSiteInc_mem (d : Int) (s : State) : (setSiteInc d s).mem = s.mem := rfl
@[simp] theorem setSiteInc_held (d : Int) (s : State) : (setSiteInc d s).held = s.held := rfl
@[simp] theorem setSiteInc_notes (d : Int) (s : State) : (setSiteInc d s).notes = s.notes := rfl
@[simp] theorem setSiteInc_out (d : Int) (s : State) : (setSiteInc d s).out = s.out := rfl
@[simp] theorem setSiteInc_site (d : Int) (s : State) : (setSiteInc d s).site = s.site := rfl
@[simp] theorem setSiteInc_nv (d : Int) (s : State) : (setSiteInc d s).nv = s.nv := rfl
@[simp] theorem setSiteInc_stw (d : Int) (s : State) : (setSiteInc d s).stw = s.stw := rfl
@[simp] theorem setSiteInc_pwr (d : Int) (s : State) : (setSiteInc d s).pwr = s.pwr := rfl
@[simp] theorem setSiteInc_evt (d : Int) (s : State) : (setSiteInc d s).evt = s.evt := rfl
@[simp] theorem setSiteInc_mrc (d : Int) (s : State) : (setSiteInc d s).mrc = s.mrc := rfl
@[simp] theorem setSiteInc_flm (d : Int) (s : State) : (setSiteInc d s).flm = s.flm := rfl
@[simp] theorem setSiteInc_ecc (d : Int) (s : State) : (setSiteInc d s).ecc = s.ecc := rfl
@[simp] theorem setSiteInc_ref (d : Int) (s : State) : (setSiteInc d s).ref = s.ref := rfl
@[simp] theorem setSiteInc_sol (d : Int) (s : State) : (setSiteInc d s).sol = s.sol := rfl
@[simp] theorem setSiteInc_clm (d : Int) (s : State) : (setSiteInc d s).clm = s.clm := rfl
@[simp] theorem setSiteInc_pro (d : Int) (s : State) : (setSiteInc d s).pro = s.pro := rfl
@[simp] theorem setSiteInc_air (d : Int) (s : State) : (setSiteInc d s).air = s.air := rfl
@[simp] theorem setSiteInc_wkr (d : Int) (s : State) : (setSiteInc d s).wkr = s.wkr := rfl
@[simp] theorem setSiteInc_stp (d : Int) (s : State) : (setSiteInc d s).stp = s.stp := rfl
@[simp] theorem setSiteInc_eth (d : Int) (s : State) : (setSiteInc d s).eth = s.eth := rfl
@[simp] theorem setSiteInc_ptc (d : Int) (s : State) : (setSiteInc d s).ptc = s.ptc := rfl
@[simp] theorem setSiteInc_can (d : Int) (s : State) : (setSiteInc d s).can = s.can := rfl
@[simp] theorem setSiteInc_ser (d : Int) (s : State) : (setSiteInc d s).ser = s.ser := rfl
@[simp] theorem setSiteInc_axs (d : Int) (s : State) : (setSiteInc d s).axs = s.axs := rfl
@[simp] theorem setSiteInc_dio (d : Int) (s : State) : (setSiteInc d s).dio = s.dio := rfl
@[simp] theorem setSiteInc_twn (d : Int) (s : State) : (setSiteInc d s).twn = s.twn := rfl
@[simp] theorem setSiteInc_cas (d : Int) (s : State) : (setSiteInc d s).cas = s.cas := rfl
@[simp] theorem setSiteInc_key (d : Int) (s : State) : (setSiteInc d s).key = s.key := rfl
@[simp] theorem setSiteInc_upd (d : Int) (s : State) : (setSiteInc d s).upd = s.upd := rfl
@[simp] theorem setSiteInc_otp (d : Int) (s : State) : (setSiteInc d s).otp = s.otp := rfl
@[simp] theorem setSiteInc_fsh (d : Int) (s : State) : (setSiteInc d s).fsh = s.fsh := rfl
@[simp] theorem setSiteInc_ccx (d : Int) (s : State) : (setSiteInc d s).ccx = s.ccx := rfl

/-! ### setStw changes stw alone -/

@[simp] theorem setStw_pending (x : Stw) (s : State) : (setStw x s).pending = s.pending := rfl
@[simp] theorem setStw_free (x : Stw) (s : State) : (setStw x s).free = s.free := rfl
@[simp] theorem setStw_clk (x : Stw) (s : State) : (setStw x s).clk = s.clk := rfl
@[simp] theorem setStw_mem (x : Stw) (s : State) : (setStw x s).mem = s.mem := rfl
@[simp] theorem setStw_held (x : Stw) (s : State) : (setStw x s).held = s.held := rfl
@[simp] theorem setStw_notes (x : Stw) (s : State) : (setStw x s).notes = s.notes := rfl
@[simp] theorem setStw_out (x : Stw) (s : State) : (setStw x s).out = s.out := rfl
@[simp] theorem setStw_site (x : Stw) (s : State) : (setStw x s).site = s.site := rfl
@[simp] theorem setStw_nv (x : Stw) (s : State) : (setStw x s).nv = s.nv := rfl
@[simp] theorem setStw_pwr (x : Stw) (s : State) : (setStw x s).pwr = s.pwr := rfl
@[simp] theorem setStw_evt (x : Stw) (s : State) : (setStw x s).evt = s.evt := rfl
@[simp] theorem setStw_mrc (x : Stw) (s : State) : (setStw x s).mrc = s.mrc := rfl
@[simp] theorem setStw_flm (x : Stw) (s : State) : (setStw x s).flm = s.flm := rfl
@[simp] theorem setStw_ecc (x : Stw) (s : State) : (setStw x s).ecc = s.ecc := rfl
@[simp] theorem setStw_ref (x : Stw) (s : State) : (setStw x s).ref = s.ref := rfl
@[simp] theorem setStw_sol (x : Stw) (s : State) : (setStw x s).sol = s.sol := rfl
@[simp] theorem setStw_clm (x : Stw) (s : State) : (setStw x s).clm = s.clm := rfl
@[simp] theorem setStw_pro (x : Stw) (s : State) : (setStw x s).pro = s.pro := rfl
@[simp] theorem setStw_air (x : Stw) (s : State) : (setStw x s).air = s.air := rfl
@[simp] theorem setStw_wkr (x : Stw) (s : State) : (setStw x s).wkr = s.wkr := rfl
@[simp] theorem setStw_stp (x : Stw) (s : State) : (setStw x s).stp = s.stp := rfl
@[simp] theorem setStw_eth (x : Stw) (s : State) : (setStw x s).eth = s.eth := rfl
@[simp] theorem setStw_ptc (x : Stw) (s : State) : (setStw x s).ptc = s.ptc := rfl
@[simp] theorem setStw_can (x : Stw) (s : State) : (setStw x s).can = s.can := rfl
@[simp] theorem setStw_ser (x : Stw) (s : State) : (setStw x s).ser = s.ser := rfl
@[simp] theorem setStw_axs (x : Stw) (s : State) : (setStw x s).axs = s.axs := rfl
@[simp] theorem setStw_dio (x : Stw) (s : State) : (setStw x s).dio = s.dio := rfl
@[simp] theorem setStw_twn (x : Stw) (s : State) : (setStw x s).twn = s.twn := rfl
@[simp] theorem setStw_cas (x : Stw) (s : State) : (setStw x s).cas = s.cas := rfl
@[simp] theorem setStw_key (x : Stw) (s : State) : (setStw x s).key = s.key := rfl
@[simp] theorem setStw_upd (x : Stw) (s : State) : (setStw x s).upd = s.upd := rfl
@[simp] theorem setStw_otp (x : Stw) (s : State) : (setStw x s).otp = s.otp := rfl
@[simp] theorem setStw_fsh (x : Stw) (s : State) : (setStw x s).fsh = s.fsh := rfl
@[simp] theorem setStw_ccx (x : Stw) (s : State) : (setStw x s).ccx = s.ccx := rfl

/-! ### setSol changes sol alone -/

@[simp] theorem setSol_pending (x : Sol) (s : State) : (setSol x s).pending = s.pending := rfl
@[simp] theorem setSol_free (x : Sol) (s : State) : (setSol x s).free = s.free := rfl
@[simp] theorem setSol_clk (x : Sol) (s : State) : (setSol x s).clk = s.clk := rfl
@[simp] theorem setSol_mem (x : Sol) (s : State) : (setSol x s).mem = s.mem := rfl
@[simp] theorem setSol_held (x : Sol) (s : State) : (setSol x s).held = s.held := rfl
@[simp] theorem setSol_notes (x : Sol) (s : State) : (setSol x s).notes = s.notes := rfl
@[simp] theorem setSol_out (x : Sol) (s : State) : (setSol x s).out = s.out := rfl
@[simp] theorem setSol_site (x : Sol) (s : State) : (setSol x s).site = s.site := rfl
@[simp] theorem setSol_nv (x : Sol) (s : State) : (setSol x s).nv = s.nv := rfl
@[simp] theorem setSol_stw (x : Sol) (s : State) : (setSol x s).stw = s.stw := rfl
@[simp] theorem setSol_pwr (x : Sol) (s : State) : (setSol x s).pwr = s.pwr := rfl
@[simp] theorem setSol_evt (x : Sol) (s : State) : (setSol x s).evt = s.evt := rfl
@[simp] theorem setSol_mrc (x : Sol) (s : State) : (setSol x s).mrc = s.mrc := rfl
@[simp] theorem setSol_flm (x : Sol) (s : State) : (setSol x s).flm = s.flm := rfl
@[simp] theorem setSol_ecc (x : Sol) (s : State) : (setSol x s).ecc = s.ecc := rfl
@[simp] theorem setSol_ref (x : Sol) (s : State) : (setSol x s).ref = s.ref := rfl
@[simp] theorem setSol_clm (x : Sol) (s : State) : (setSol x s).clm = s.clm := rfl
@[simp] theorem setSol_pro (x : Sol) (s : State) : (setSol x s).pro = s.pro := rfl
@[simp] theorem setSol_air (x : Sol) (s : State) : (setSol x s).air = s.air := rfl
@[simp] theorem setSol_wkr (x : Sol) (s : State) : (setSol x s).wkr = s.wkr := rfl
@[simp] theorem setSol_stp (x : Sol) (s : State) : (setSol x s).stp = s.stp := rfl
@[simp] theorem setSol_eth (x : Sol) (s : State) : (setSol x s).eth = s.eth := rfl
@[simp] theorem setSol_ptc (x : Sol) (s : State) : (setSol x s).ptc = s.ptc := rfl
@[simp] theorem setSol_can (x : Sol) (s : State) : (setSol x s).can = s.can := rfl
@[simp] theorem setSol_ser (x : Sol) (s : State) : (setSol x s).ser = s.ser := rfl
@[simp] theorem setSol_axs (x : Sol) (s : State) : (setSol x s).axs = s.axs := rfl
@[simp] theorem setSol_dio (x : Sol) (s : State) : (setSol x s).dio = s.dio := rfl
@[simp] theorem setSol_twn (x : Sol) (s : State) : (setSol x s).twn = s.twn := rfl
@[simp] theorem setSol_cas (x : Sol) (s : State) : (setSol x s).cas = s.cas := rfl
@[simp] theorem setSol_key (x : Sol) (s : State) : (setSol x s).key = s.key := rfl
@[simp] theorem setSol_upd (x : Sol) (s : State) : (setSol x s).upd = s.upd := rfl
@[simp] theorem setSol_otp (x : Sol) (s : State) : (setSol x s).otp = s.otp := rfl
@[simp] theorem setSol_fsh (x : Sol) (s : State) : (setSol x s).fsh = s.fsh := rfl
@[simp] theorem setSol_ccx (x : Sol) (s : State) : (setSol x s).ccx = s.ccx := rfl

/-! ### setStp changes stp alone -/

@[simp] theorem setStp_pending (x : Stp) (s : State) : (setStp x s).pending = s.pending := rfl
@[simp] theorem setStp_free (x : Stp) (s : State) : (setStp x s).free = s.free := rfl
@[simp] theorem setStp_clk (x : Stp) (s : State) : (setStp x s).clk = s.clk := rfl
@[simp] theorem setStp_mem (x : Stp) (s : State) : (setStp x s).mem = s.mem := rfl
@[simp] theorem setStp_held (x : Stp) (s : State) : (setStp x s).held = s.held := rfl
@[simp] theorem setStp_notes (x : Stp) (s : State) : (setStp x s).notes = s.notes := rfl
@[simp] theorem setStp_out (x : Stp) (s : State) : (setStp x s).out = s.out := rfl
@[simp] theorem setStp_site (x : Stp) (s : State) : (setStp x s).site = s.site := rfl
@[simp] theorem setStp_nv (x : Stp) (s : State) : (setStp x s).nv = s.nv := rfl
@[simp] theorem setStp_stw (x : Stp) (s : State) : (setStp x s).stw = s.stw := rfl
@[simp] theorem setStp_pwr (x : Stp) (s : State) : (setStp x s).pwr = s.pwr := rfl
@[simp] theorem setStp_evt (x : Stp) (s : State) : (setStp x s).evt = s.evt := rfl
@[simp] theorem setStp_mrc (x : Stp) (s : State) : (setStp x s).mrc = s.mrc := rfl
@[simp] theorem setStp_flm (x : Stp) (s : State) : (setStp x s).flm = s.flm := rfl
@[simp] theorem setStp_ecc (x : Stp) (s : State) : (setStp x s).ecc = s.ecc := rfl
@[simp] theorem setStp_ref (x : Stp) (s : State) : (setStp x s).ref = s.ref := rfl
@[simp] theorem setStp_sol (x : Stp) (s : State) : (setStp x s).sol = s.sol := rfl
@[simp] theorem setStp_clm (x : Stp) (s : State) : (setStp x s).clm = s.clm := rfl
@[simp] theorem setStp_pro (x : Stp) (s : State) : (setStp x s).pro = s.pro := rfl
@[simp] theorem setStp_air (x : Stp) (s : State) : (setStp x s).air = s.air := rfl
@[simp] theorem setStp_wkr (x : Stp) (s : State) : (setStp x s).wkr = s.wkr := rfl
@[simp] theorem setStp_eth (x : Stp) (s : State) : (setStp x s).eth = s.eth := rfl
@[simp] theorem setStp_ptc (x : Stp) (s : State) : (setStp x s).ptc = s.ptc := rfl
@[simp] theorem setStp_can (x : Stp) (s : State) : (setStp x s).can = s.can := rfl
@[simp] theorem setStp_ser (x : Stp) (s : State) : (setStp x s).ser = s.ser := rfl
@[simp] theorem setStp_axs (x : Stp) (s : State) : (setStp x s).axs = s.axs := rfl
@[simp] theorem setStp_dio (x : Stp) (s : State) : (setStp x s).dio = s.dio := rfl
@[simp] theorem setStp_twn (x : Stp) (s : State) : (setStp x s).twn = s.twn := rfl
@[simp] theorem setStp_cas (x : Stp) (s : State) : (setStp x s).cas = s.cas := rfl
@[simp] theorem setStp_key (x : Stp) (s : State) : (setStp x s).key = s.key := rfl
@[simp] theorem setStp_upd (x : Stp) (s : State) : (setStp x s).upd = s.upd := rfl
@[simp] theorem setStp_otp (x : Stp) (s : State) : (setStp x s).otp = s.otp := rfl
@[simp] theorem setStp_fsh (x : Stp) (s : State) : (setStp x s).fsh = s.fsh := rfl
@[simp] theorem setStp_ccx (x : Stp) (s : State) : (setStp x s).ccx = s.ccx := rfl

/-! ### setTwn changes twn alone -/

@[simp] theorem setTwn_pending (x : Twn) (s : State) : (setTwn x s).pending = s.pending := rfl
@[simp] theorem setTwn_free (x : Twn) (s : State) : (setTwn x s).free = s.free := rfl
@[simp] theorem setTwn_clk (x : Twn) (s : State) : (setTwn x s).clk = s.clk := rfl
@[simp] theorem setTwn_mem (x : Twn) (s : State) : (setTwn x s).mem = s.mem := rfl
@[simp] theorem setTwn_held (x : Twn) (s : State) : (setTwn x s).held = s.held := rfl
@[simp] theorem setTwn_notes (x : Twn) (s : State) : (setTwn x s).notes = s.notes := rfl
@[simp] theorem setTwn_out (x : Twn) (s : State) : (setTwn x s).out = s.out := rfl
@[simp] theorem setTwn_site (x : Twn) (s : State) : (setTwn x s).site = s.site := rfl
@[simp] theorem setTwn_nv (x : Twn) (s : State) : (setTwn x s).nv = s.nv := rfl
@[simp] theorem setTwn_stw (x : Twn) (s : State) : (setTwn x s).stw = s.stw := rfl
@[simp] theorem setTwn_pwr (x : Twn) (s : State) : (setTwn x s).pwr = s.pwr := rfl
@[simp] theorem setTwn_evt (x : Twn) (s : State) : (setTwn x s).evt = s.evt := rfl
@[simp] theorem setTwn_mrc (x : Twn) (s : State) : (setTwn x s).mrc = s.mrc := rfl
@[simp] theorem setTwn_flm (x : Twn) (s : State) : (setTwn x s).flm = s.flm := rfl
@[simp] theorem setTwn_ecc (x : Twn) (s : State) : (setTwn x s).ecc = s.ecc := rfl
@[simp] theorem setTwn_ref (x : Twn) (s : State) : (setTwn x s).ref = s.ref := rfl
@[simp] theorem setTwn_sol (x : Twn) (s : State) : (setTwn x s).sol = s.sol := rfl
@[simp] theorem setTwn_clm (x : Twn) (s : State) : (setTwn x s).clm = s.clm := rfl
@[simp] theorem setTwn_pro (x : Twn) (s : State) : (setTwn x s).pro = s.pro := rfl
@[simp] theorem setTwn_air (x : Twn) (s : State) : (setTwn x s).air = s.air := rfl
@[simp] theorem setTwn_wkr (x : Twn) (s : State) : (setTwn x s).wkr = s.wkr := rfl
@[simp] theorem setTwn_stp (x : Twn) (s : State) : (setTwn x s).stp = s.stp := rfl
@[simp] theorem setTwn_eth (x : Twn) (s : State) : (setTwn x s).eth = s.eth := rfl
@[simp] theorem setTwn_ptc (x : Twn) (s : State) : (setTwn x s).ptc = s.ptc := rfl
@[simp] theorem setTwn_can (x : Twn) (s : State) : (setTwn x s).can = s.can := rfl
@[simp] theorem setTwn_ser (x : Twn) (s : State) : (setTwn x s).ser = s.ser := rfl
@[simp] theorem setTwn_axs (x : Twn) (s : State) : (setTwn x s).axs = s.axs := rfl
@[simp] theorem setTwn_dio (x : Twn) (s : State) : (setTwn x s).dio = s.dio := rfl
@[simp] theorem setTwn_cas (x : Twn) (s : State) : (setTwn x s).cas = s.cas := rfl
@[simp] theorem setTwn_key (x : Twn) (s : State) : (setTwn x s).key = s.key := rfl
@[simp] theorem setTwn_upd (x : Twn) (s : State) : (setTwn x s).upd = s.upd := rfl
@[simp] theorem setTwn_otp (x : Twn) (s : State) : (setTwn x s).otp = s.otp := rfl
@[simp] theorem setTwn_fsh (x : Twn) (s : State) : (setTwn x s).fsh = s.fsh := rfl
@[simp] theorem setTwn_ccx (x : Twn) (s : State) : (setTwn x s).ccx = s.ccx := rfl

/-! ### setUpd changes upd alone -/

@[simp] theorem setUpd_pending (u : Upd) (s : State) : (setUpd u s).pending = s.pending := rfl
@[simp] theorem setUpd_free (u : Upd) (s : State) : (setUpd u s).free = s.free := rfl
@[simp] theorem setUpd_clk (u : Upd) (s : State) : (setUpd u s).clk = s.clk := rfl
@[simp] theorem setUpd_mem (u : Upd) (s : State) : (setUpd u s).mem = s.mem := rfl
@[simp] theorem setUpd_held (u : Upd) (s : State) : (setUpd u s).held = s.held := rfl
@[simp] theorem setUpd_notes (u : Upd) (s : State) : (setUpd u s).notes = s.notes := rfl
@[simp] theorem setUpd_out (u : Upd) (s : State) : (setUpd u s).out = s.out := rfl
@[simp] theorem setUpd_site (u : Upd) (s : State) : (setUpd u s).site = s.site := rfl
@[simp] theorem setUpd_nv (u : Upd) (s : State) : (setUpd u s).nv = s.nv := rfl
@[simp] theorem setUpd_stw (u : Upd) (s : State) : (setUpd u s).stw = s.stw := rfl
@[simp] theorem setUpd_pwr (u : Upd) (s : State) : (setUpd u s).pwr = s.pwr := rfl
@[simp] theorem setUpd_evt (u : Upd) (s : State) : (setUpd u s).evt = s.evt := rfl
@[simp] theorem setUpd_mrc (u : Upd) (s : State) : (setUpd u s).mrc = s.mrc := rfl
@[simp] theorem setUpd_flm (u : Upd) (s : State) : (setUpd u s).flm = s.flm := rfl
@[simp] theorem setUpd_ecc (u : Upd) (s : State) : (setUpd u s).ecc = s.ecc := rfl
@[simp] theorem setUpd_ref (u : Upd) (s : State) : (setUpd u s).ref = s.ref := rfl
@[simp] theorem setUpd_sol (u : Upd) (s : State) : (setUpd u s).sol = s.sol := rfl
@[simp] theorem setUpd_clm (u : Upd) (s : State) : (setUpd u s).clm = s.clm := rfl
@[simp] theorem setUpd_pro (u : Upd) (s : State) : (setUpd u s).pro = s.pro := rfl
@[simp] theorem setUpd_air (u : Upd) (s : State) : (setUpd u s).air = s.air := rfl
@[simp] theorem setUpd_wkr (u : Upd) (s : State) : (setUpd u s).wkr = s.wkr := rfl
@[simp] theorem setUpd_stp (u : Upd) (s : State) : (setUpd u s).stp = s.stp := rfl
@[simp] theorem setUpd_eth (u : Upd) (s : State) : (setUpd u s).eth = s.eth := rfl
@[simp] theorem setUpd_ptc (u : Upd) (s : State) : (setUpd u s).ptc = s.ptc := rfl
@[simp] theorem setUpd_can (u : Upd) (s : State) : (setUpd u s).can = s.can := rfl
@[simp] theorem setUpd_ser (u : Upd) (s : State) : (setUpd u s).ser = s.ser := rfl
@[simp] theorem setUpd_axs (u : Upd) (s : State) : (setUpd u s).axs = s.axs := rfl
@[simp] theorem setUpd_dio (u : Upd) (s : State) : (setUpd u s).dio = s.dio := rfl
@[simp] theorem setUpd_twn (u : Upd) (s : State) : (setUpd u s).twn = s.twn := rfl
@[simp] theorem setUpd_cas (u : Upd) (s : State) : (setUpd u s).cas = s.cas := rfl
@[simp] theorem setUpd_key (u : Upd) (s : State) : (setUpd u s).key = s.key := rfl
@[simp] theorem setUpd_otp (u : Upd) (s : State) : (setUpd u s).otp = s.otp := rfl
@[simp] theorem setUpd_fsh (u : Upd) (s : State) : (setUpd u s).fsh = s.fsh := rfl
@[simp] theorem setUpd_ccx (u : Upd) (s : State) : (setUpd u s).ccx = s.ccx := rfl

/-! ### setWkr changes wkr alone -/

@[simp] theorem setWkr_pending (w : Wkr) (s : State) : (setWkr w s).pending = s.pending := rfl
@[simp] theorem setWkr_free (w : Wkr) (s : State) : (setWkr w s).free = s.free := rfl
@[simp] theorem setWkr_clk (w : Wkr) (s : State) : (setWkr w s).clk = s.clk := rfl
@[simp] theorem setWkr_mem (w : Wkr) (s : State) : (setWkr w s).mem = s.mem := rfl
@[simp] theorem setWkr_held (w : Wkr) (s : State) : (setWkr w s).held = s.held := rfl
@[simp] theorem setWkr_notes (w : Wkr) (s : State) : (setWkr w s).notes = s.notes := rfl
@[simp] theorem setWkr_out (w : Wkr) (s : State) : (setWkr w s).out = s.out := rfl
@[simp] theorem setWkr_site (w : Wkr) (s : State) : (setWkr w s).site = s.site := rfl
@[simp] theorem setWkr_nv (w : Wkr) (s : State) : (setWkr w s).nv = s.nv := rfl
@[simp] theorem setWkr_stw (w : Wkr) (s : State) : (setWkr w s).stw = s.stw := rfl
@[simp] theorem setWkr_pwr (w : Wkr) (s : State) : (setWkr w s).pwr = s.pwr := rfl
@[simp] theorem setWkr_evt (w : Wkr) (s : State) : (setWkr w s).evt = s.evt := rfl
@[simp] theorem setWkr_mrc (w : Wkr) (s : State) : (setWkr w s).mrc = s.mrc := rfl
@[simp] theorem setWkr_flm (w : Wkr) (s : State) : (setWkr w s).flm = s.flm := rfl
@[simp] theorem setWkr_ecc (w : Wkr) (s : State) : (setWkr w s).ecc = s.ecc := rfl
@[simp] theorem setWkr_ref (w : Wkr) (s : State) : (setWkr w s).ref = s.ref := rfl
@[simp] theorem setWkr_sol (w : Wkr) (s : State) : (setWkr w s).sol = s.sol := rfl
@[simp] theorem setWkr_clm (w : Wkr) (s : State) : (setWkr w s).clm = s.clm := rfl
@[simp] theorem setWkr_pro (w : Wkr) (s : State) : (setWkr w s).pro = s.pro := rfl
@[simp] theorem setWkr_air (w : Wkr) (s : State) : (setWkr w s).air = s.air := rfl
@[simp] theorem setWkr_stp (w : Wkr) (s : State) : (setWkr w s).stp = s.stp := rfl
@[simp] theorem setWkr_eth (w : Wkr) (s : State) : (setWkr w s).eth = s.eth := rfl
@[simp] theorem setWkr_ptc (w : Wkr) (s : State) : (setWkr w s).ptc = s.ptc := rfl
@[simp] theorem setWkr_can (w : Wkr) (s : State) : (setWkr w s).can = s.can := rfl
@[simp] theorem setWkr_ser (w : Wkr) (s : State) : (setWkr w s).ser = s.ser := rfl
@[simp] theorem setWkr_axs (w : Wkr) (s : State) : (setWkr w s).axs = s.axs := rfl
@[simp] theorem setWkr_dio (w : Wkr) (s : State) : (setWkr w s).dio = s.dio := rfl
@[simp] theorem setWkr_twn (w : Wkr) (s : State) : (setWkr w s).twn = s.twn := rfl
@[simp] theorem setWkr_cas (w : Wkr) (s : State) : (setWkr w s).cas = s.cas := rfl
@[simp] theorem setWkr_key (w : Wkr) (s : State) : (setWkr w s).key = s.key := rfl
@[simp] theorem setWkr_upd (w : Wkr) (s : State) : (setWkr w s).upd = s.upd := rfl
@[simp] theorem setWkr_otp (w : Wkr) (s : State) : (setWkr w s).otp = s.otp := rfl
@[simp] theorem setWkr_fsh (w : Wkr) (s : State) : (setWkr w s).fsh = s.fsh := rfl
@[simp] theorem setWkr_ccx (w : Wkr) (s : State) : (setWkr w s).ccx = s.ccx := rfl
@[simp] theorem State.setMem_mem (s : State) (m : List Host.Cell) : (s.setMem m).mem = m := rfl
@[simp] theorem State.setMem_pending (s : State) (m : List Host.Cell) : (s.setMem m).pending = s.pending := rfl
@[simp] theorem State.setMem_free (s : State) (m : List Host.Cell) : (s.setMem m).free = s.free := rfl
@[simp] theorem State.setMem_clk (s : State) (m : List Host.Cell) : (s.setMem m).clk = s.clk := rfl
@[simp] theorem State.setMem_held (s : State) (m : List Host.Cell) : (s.setMem m).held = s.held := rfl
@[simp] theorem State.setMem_notes (s : State) (m : List Host.Cell) : (s.setMem m).notes = s.notes := rfl
@[simp] theorem State.setMem_out (s : State) (m : List Host.Cell) : (s.setMem m).out = s.out := rfl
@[simp] theorem State.setMem_site (s : State) (m : List Host.Cell) : (s.setMem m).site = s.site := rfl
@[simp] theorem State.setMem_nv (s : State) (m : List Host.Cell) : (s.setMem m).nv = s.nv := rfl
@[simp] theorem State.setMem_stw (s : State) (m : List Host.Cell) : (s.setMem m).stw = s.stw := rfl
@[simp] theorem State.setMem_pwr (s : State) (m : List Host.Cell) : (s.setMem m).pwr = s.pwr := rfl
@[simp] theorem State.setMem_evt (s : State) (m : List Host.Cell) : (s.setMem m).evt = s.evt := rfl
@[simp] theorem State.setMem_mrc (s : State) (m : List Host.Cell) : (s.setMem m).mrc = s.mrc := rfl
@[simp] theorem State.setMem_flm (s : State) (m : List Host.Cell) : (s.setMem m).flm = s.flm := rfl
@[simp] theorem State.setMem_ecc (s : State) (m : List Host.Cell) : (s.setMem m).ecc = s.ecc := rfl
@[simp] theorem State.setMem_ref (s : State) (m : List Host.Cell) : (s.setMem m).ref = s.ref := rfl
@[simp] theorem State.setMem_sol (s : State) (m : List Host.Cell) : (s.setMem m).sol = s.sol := rfl
@[simp] theorem State.setMem_clm (s : State) (m : List Host.Cell) : (s.setMem m).clm = s.clm := rfl
@[simp] theorem State.setMem_pro (s : State) (m : List Host.Cell) : (s.setMem m).pro = s.pro := rfl
@[simp] theorem State.setMem_air (s : State) (m : List Host.Cell) : (s.setMem m).air = s.air := rfl
@[simp] theorem State.setMem_wkr (s : State) (m : List Host.Cell) : (s.setMem m).wkr = s.wkr := rfl
@[simp] theorem State.setMem_stp (s : State) (m : List Host.Cell) : (s.setMem m).stp = s.stp := rfl
@[simp] theorem State.setMem_eth (s : State) (m : List Host.Cell) : (s.setMem m).eth = s.eth := rfl
@[simp] theorem State.setMem_ptc (s : State) (m : List Host.Cell) : (s.setMem m).ptc = s.ptc := rfl
@[simp] theorem State.setMem_can (s : State) (m : List Host.Cell) : (s.setMem m).can = s.can := rfl
@[simp] theorem State.setMem_ser (s : State) (m : List Host.Cell) : (s.setMem m).ser = s.ser := rfl
@[simp] theorem State.setMem_axs (s : State) (m : List Host.Cell) : (s.setMem m).axs = s.axs := rfl
@[simp] theorem State.setMem_dio (s : State) (m : List Host.Cell) : (s.setMem m).dio = s.dio := rfl
@[simp] theorem State.setMem_twn (s : State) (m : List Host.Cell) : (s.setMem m).twn = s.twn := rfl
@[simp] theorem State.setMem_cas (s : State) (m : List Host.Cell) : (s.setMem m).cas = s.cas := rfl
@[simp] theorem State.setMem_key (s : State) (m : List Host.Cell) : (s.setMem m).key = s.key := rfl
@[simp] theorem State.setMem_upd (s : State) (m : List Host.Cell) : (s.setMem m).upd = s.upd := rfl
@[simp] theorem State.setMem_otp (s : State) (m : List Host.Cell) : (s.setMem m).otp = s.otp := rfl
@[simp] theorem State.setMem_fsh (s : State) (m : List Host.Cell) : (s.setMem m).fsh = s.fsh := rfl
@[simp] theorem State.setMem_ccx (s : State) (m : List Host.Cell) : (s.setMem m).ccx = s.ccx := rfl

/-! ### A control-register write changes the component of its block alone -/

@[simp] theorem setRegs_pending (b : Nat) (t : Tbl Nat) (s : State) : (setRegs b t s).pending = s.pending := by unfold setRegs; split <;> rfl
@[simp] theorem wr_pending (f : Fld) (v : Nat) (s : State) : (wr f v s).pending = s.pending := setRegs_pending _ _ _
@[simp] theorem setRegs_free (b : Nat) (t : Tbl Nat) (s : State) : (setRegs b t s).free = s.free := by unfold setRegs; split <;> rfl
@[simp] theorem wr_free (f : Fld) (v : Nat) (s : State) : (wr f v s).free = s.free := setRegs_free _ _ _
@[simp] theorem setRegs_clk (b : Nat) (t : Tbl Nat) (s : State) : (setRegs b t s).clk = s.clk := by unfold setRegs; split <;> rfl
@[simp] theorem wr_clk (f : Fld) (v : Nat) (s : State) : (wr f v s).clk = s.clk := setRegs_clk _ _ _
@[simp] theorem setRegs_mem (b : Nat) (t : Tbl Nat) (s : State) : (setRegs b t s).mem = s.mem := by unfold setRegs; split <;> rfl
@[simp] theorem wr_mem (f : Fld) (v : Nat) (s : State) : (wr f v s).mem = s.mem := setRegs_mem _ _ _
@[simp] theorem setRegs_held (b : Nat) (t : Tbl Nat) (s : State) : (setRegs b t s).held = s.held := by unfold setRegs; split <;> rfl
@[simp] theorem wr_held (f : Fld) (v : Nat) (s : State) : (wr f v s).held = s.held := setRegs_held _ _ _
@[simp] theorem setRegs_notes (b : Nat) (t : Tbl Nat) (s : State) : (setRegs b t s).notes = s.notes := by unfold setRegs; split <;> rfl
@[simp] theorem wr_notes (f : Fld) (v : Nat) (s : State) : (wr f v s).notes = s.notes := setRegs_notes _ _ _
@[simp] theorem setRegs_out (b : Nat) (t : Tbl Nat) (s : State) : (setRegs b t s).out = s.out := by unfold setRegs; split <;> rfl
@[simp] theorem wr_out (f : Fld) (v : Nat) (s : State) : (wr f v s).out = s.out := setRegs_out _ _ _
@[simp] theorem setRegs_site (b : Nat) (t : Tbl Nat) (s : State) : (setRegs b t s).site = s.site := by unfold setRegs; split <;> rfl
@[simp] theorem wr_site (f : Fld) (v : Nat) (s : State) : (wr f v s).site = s.site := setRegs_site _ _ _
@[simp] theorem setRegs_nv (b : Nat) (t : Tbl Nat) (s : State) : (setRegs b t s).nv = s.nv := by unfold setRegs; split <;> rfl
@[simp] theorem wr_nv (f : Fld) (v : Nat) (s : State) : (wr f v s).nv = s.nv := setRegs_nv _ _ _
theorem setRegs_stw (b : Nat) (t : Tbl Nat) (s : State) (h : b ≠ 0) : (setRegs b t s).stw = s.stw := by
  unfold setRegs; split <;> first | rfl | exact absurd rfl h
theorem wr_stw (f : Fld) (v : Nat) (s : State) (h : f.blk ≠ 0) : (wr f v s).stw = s.stw := setRegs_stw _ _ _ h
theorem setRegs_pwr (b : Nat) (t : Tbl Nat) (s : State) (h : b ≠ 1) : (setRegs b t s).pwr = s.pwr := by
  unfold setRegs; split <;> first | rfl | exact absurd rfl h
theorem wr_pwr (f : Fld) (v : Nat) (s : State) (h : f.blk ≠ 1) : (wr f v s).pwr = s.pwr := setRegs_pwr _ _ _ h
theorem setRegs_evt (b : Nat) (t : Tbl Nat) (s : State) (h : b ≠ 2) : (setRegs b t s).evt = s.evt := by
  unfold setRegs; split <;> first | rfl | exact absurd rfl h
theorem wr_evt (f : Fld) (v : Nat) (s : State) (h : f.blk ≠ 2) : (wr f v s).evt = s.evt := setRegs_evt _ _ _ h
theorem setRegs_mrc (b : Nat) (t : Tbl Nat) (s : State) (h : b ≠ 3) : (setRegs b t s).mrc = s.mrc := by
  unfold setRegs; split <;> first | rfl | exact absurd rfl h
theorem wr_mrc (f : Fld) (v : Nat) (s : State) (h : f.blk ≠ 3) : (wr f v s).mrc = s.mrc := setRegs_mrc _ _ _ h
theorem setRegs_flm (b : Nat) (t : Tbl Nat) (s : State) (h : b ≠ 4) : (setRegs b t s).flm = s.flm := by
  unfold setRegs; split <;> first | rfl | exact absurd rfl h
theorem wr_flm (f : Fld) (v : Nat) (s : State) (h : f.blk ≠ 4) : (wr f v s).flm = s.flm := setRegs_flm _ _ _ h
theorem setRegs_ecc (b : Nat) (t : Tbl Nat) (s : State) (h : b ≠ 5) : (setRegs b t s).ecc = s.ecc := by
  unfold setRegs; split <;> first | rfl | exact absurd rfl h
theorem wr_ecc (f : Fld) (v : Nat) (s : State) (h : f.blk ≠ 5) : (wr f v s).ecc = s.ecc := setRegs_ecc _ _ _ h
theorem setRegs_ref (b : Nat) (t : Tbl Nat) (s : State) (h : b ≠ 6) : (setRegs b t s).ref = s.ref := by
  unfold setRegs; split <;> first | rfl | exact absurd rfl h
theorem wr_ref (f : Fld) (v : Nat) (s : State) (h : f.blk ≠ 6) : (wr f v s).ref = s.ref := setRegs_ref _ _ _ h
theorem setRegs_sol (b : Nat) (t : Tbl Nat) (s : State) (h : b ≠ 7) : (setRegs b t s).sol = s.sol := by
  unfold setRegs; split <;> first | rfl | exact absurd rfl h
theorem wr_sol (f : Fld) (v : Nat) (s : State) (h : f.blk ≠ 7) : (wr f v s).sol = s.sol := setRegs_sol _ _ _ h
theorem setRegs_clm (b : Nat) (t : Tbl Nat) (s : State) (h : b ≠ 8) : (setRegs b t s).clm = s.clm := by
  unfold setRegs; split <;> first | rfl | exact absurd rfl h
theorem wr_clm (f : Fld) (v : Nat) (s : State) (h : f.blk ≠ 8) : (wr f v s).clm = s.clm := setRegs_clm _ _ _ h
theorem setRegs_pro (b : Nat) (t : Tbl Nat) (s : State) (h : b ≠ 9) : (setRegs b t s).pro = s.pro := by
  unfold setRegs; split <;> first | rfl | exact absurd rfl h
theorem wr_pro (f : Fld) (v : Nat) (s : State) (h : f.blk ≠ 9) : (wr f v s).pro = s.pro := setRegs_pro _ _ _ h
theorem setRegs_air (b : Nat) (t : Tbl Nat) (s : State) (h : b ≠ 10) : (setRegs b t s).air = s.air := by
  unfold setRegs; split <;> first | rfl | exact absurd rfl h
theorem wr_air (f : Fld) (v : Nat) (s : State) (h : f.blk ≠ 10) : (wr f v s).air = s.air := setRegs_air _ _ _ h
theorem setRegs_wkr (b : Nat) (t : Tbl Nat) (s : State) (h : b ≠ 11) : (setRegs b t s).wkr = s.wkr := by
  unfold setRegs; split <;> first | rfl | exact absurd rfl h
theorem wr_wkr (f : Fld) (v : Nat) (s : State) (h : f.blk ≠ 11) : (wr f v s).wkr = s.wkr := setRegs_wkr _ _ _ h
theorem setRegs_stp (b : Nat) (t : Tbl Nat) (s : State) (h : b ≠ 12) : (setRegs b t s).stp = s.stp := by
  unfold setRegs; split <;> first | rfl | exact absurd rfl h
theorem wr_stp (f : Fld) (v : Nat) (s : State) (h : f.blk ≠ 12) : (wr f v s).stp = s.stp := setRegs_stp _ _ _ h
theorem setRegs_eth (b : Nat) (t : Tbl Nat) (s : State) (h : b ≠ 13) : (setRegs b t s).eth = s.eth := by
  unfold setRegs; split <;> first | rfl | exact absurd rfl h
theorem wr_eth (f : Fld) (v : Nat) (s : State) (h : f.blk ≠ 13) : (wr f v s).eth = s.eth := setRegs_eth _ _ _ h
theorem setRegs_ptc (b : Nat) (t : Tbl Nat) (s : State) (h : b ≠ 17) : (setRegs b t s).ptc = s.ptc := by
  unfold setRegs; split <;> first | rfl | exact absurd rfl h
theorem wr_ptc (f : Fld) (v : Nat) (s : State) (h : f.blk ≠ 17) : (wr f v s).ptc = s.ptc := setRegs_ptc _ _ _ h
theorem setRegs_can (b : Nat) (t : Tbl Nat) (s : State) (h : b ≠ 18) : (setRegs b t s).can = s.can := by
  unfold setRegs; split <;> first | rfl | exact absurd rfl h
theorem wr_can (f : Fld) (v : Nat) (s : State) (h : f.blk ≠ 18) : (wr f v s).can = s.can := setRegs_can _ _ _ h
theorem setRegs_ser (b : Nat) (t : Tbl Nat) (s : State) (h : b ≠ 20) : (setRegs b t s).ser = s.ser := by
  unfold setRegs; split <;> first | rfl | exact absurd rfl h
theorem wr_ser (f : Fld) (v : Nat) (s : State) (h : f.blk ≠ 20) : (wr f v s).ser = s.ser := setRegs_ser _ _ _ h
theorem setRegs_axs (b : Nat) (t : Tbl Nat) (s : State) (h : b ≠ 22) : (setRegs b t s).axs = s.axs := by
  unfold setRegs; split <;> first | rfl | exact absurd rfl h
theorem wr_axs (f : Fld) (v : Nat) (s : State) (h : f.blk ≠ 22) : (wr f v s).axs = s.axs := setRegs_axs _ _ _ h
theorem setRegs_dio (b : Nat) (t : Tbl Nat) (s : State) (h : b ≠ 23) : (setRegs b t s).dio = s.dio := by
  unfold setRegs; split <;> first | rfl | exact absurd rfl h
theorem wr_dio (f : Fld) (v : Nat) (s : State) (h : f.blk ≠ 23) : (wr f v s).dio = s.dio := setRegs_dio _ _ _ h
theorem setRegs_twn (b : Nat) (t : Tbl Nat) (s : State) (h : b ≠ 24) : (setRegs b t s).twn = s.twn := by
  unfold setRegs; split <;> first | rfl | exact absurd rfl h
theorem wr_twn (f : Fld) (v : Nat) (s : State) (h : f.blk ≠ 24) : (wr f v s).twn = s.twn := setRegs_twn _ _ _ h
theorem setRegs_cas (b : Nat) (t : Tbl Nat) (s : State) (h : b ≠ 25) : (setRegs b t s).cas = s.cas := by
  unfold setRegs; split <;> first | rfl | exact absurd rfl h
theorem wr_cas (f : Fld) (v : Nat) (s : State) (h : f.blk ≠ 25) : (wr f v s).cas = s.cas := setRegs_cas _ _ _ h
theorem setRegs_key (b : Nat) (t : Tbl Nat) (s : State) (h : b ≠ 26) : (setRegs b t s).key = s.key := by
  unfold setRegs; split <;> first | rfl | exact absurd rfl h
theorem wr_key (f : Fld) (v : Nat) (s : State) (h : f.blk ≠ 26) : (wr f v s).key = s.key := setRegs_key _ _ _ h
theorem setRegs_upd (b : Nat) (t : Tbl Nat) (s : State) (h : b ≠ 27) : (setRegs b t s).upd = s.upd := by
  unfold setRegs; split <;> first | rfl | exact absurd rfl h
theorem wr_upd (f : Fld) (v : Nat) (s : State) (h : f.blk ≠ 27) : (wr f v s).upd = s.upd := setRegs_upd _ _ _ h
theorem setRegs_otp (b : Nat) (t : Tbl Nat) (s : State) (h : b ≠ 28) : (setRegs b t s).otp = s.otp := by
  unfold setRegs; split <;> first | rfl | exact absurd rfl h
theorem wr_otp (f : Fld) (v : Nat) (s : State) (h : f.blk ≠ 28) : (wr f v s).otp = s.otp := setRegs_otp _ _ _ h
theorem setRegs_fsh (b : Nat) (t : Tbl Nat) (s : State) (h : b ≠ 29) : (setRegs b t s).fsh = s.fsh := by
  unfold setRegs; split <;> first | rfl | exact absurd rfl h
theorem wr_fsh (f : Fld) (v : Nat) (s : State) (h : f.blk ≠ 29) : (wr f v s).fsh = s.fsh := setRegs_fsh _ _ _ h
theorem setRegs_ccx (b : Nat) (t : Tbl Nat) (s : State) (h : b ≠ 30) : (setRegs b t s).ccx = s.ccx := by
  unfold setRegs; split <;> first | rfl | exact absurd rfl h
theorem wr_ccx (f : Fld) (v : Nat) (s : State) (h : f.blk ≠ 30) : (wr f v s).ccx = s.ccx := setRegs_ccx _ _ _ h

end Sys2Proof.Machine
end

