-- ==== Sys2Proof/Laws/Tables.lean ====
section
/-!
SUPPORT. Sys2Proof/Laws/Tables.lean: sparse tables, control-register fields and addressed memory: what is read back after a write, and the canonical form.
-/
namespace Sys2Proof.Machine
set_option Elab.async false -- as in Laws/State.lean

/-! ### Tables -/

@[simp] theorem tfind_tins_same {α : Type} (k : Nat) (v : α) (t : Tbl α) : tfind k (tins k v t) = some v := by
  induction t with
  | nil => simp [tins, tfind]
  | cons p t ih =>
    obtain ⟨a, w⟩ := p
    by_cases h1 : k < a
    · simp [tins, h1, tfind]
    · by_cases h2 : a = k
      · simp [tins, h2, tfind]
      · simp [tins, h1, h2, tfind, ih]

theorem tfind_tins_other {α : Type} {j k : Nat} (h : j ≠ k) (v : α) (t : Tbl α) : tfind j (tins k v t) = tfind j t := by
  have h' : ¬ k = j := fun e => h e.symm
  induction t with
  | nil => simp [tins, tfind, h']
  | cons p t ih =>
    obtain ⟨a, w⟩ := p
    by_cases h1 : k < a
    · simp [tins, h1, tfind, h']
    · by_cases h2 : a = k
      · subst h2; simp [tins, tfind, h']
      · simp [tins, h1, h2, tfind, ih]

@[simp] theorem tfind_tdel_same {α : Type} (k : Nat) (t : Tbl α) : tfind k (tdel k t) = none := by
  induction t with
  | nil => rfl
  | cons p t ih =>
    obtain ⟨a, w⟩ := p
    by_cases h : a = k
    · simpa [tdel, h] using ih
    · simpa [tdel, h, tfind] using ih

theorem tfind_tdel_other {α : Type} {j k : Nat} (h : j ≠ k) (t : Tbl α) : tfind j (tdel k t) = tfind j t := by
  induction t with
  | nil => rfl
  | cons p t ih =>
    obtain ⟨a, w⟩ := p
    by_cases h1 : a = k
    · have : ¬ k = j := fun e => h e.symm
      simpa [tdel, h1, tfind, this] using ih
    · simp only [tdel] at ih
      simp [tdel, h1, tfind, ih]

@[simp] theorem tget_tset_same {α : Type} [DecidableEq α] (d : α) (k : Nat) (v : α) (t : Tbl α) : tget d k (tset d k v t) = v := by
  unfold tget tset; split <;> simp_all

theorem tget_tset_other {α : Type} [DecidableEq α] {j k : Nat} (h : j ≠ k) (d v : α) (t : Tbl α) : tget d j (tset d k v t) = tget d j t := by
  unfold tget tset; split <;> simp [tfind_tdel_other h, tfind_tins_other h]

/-! ### Canonical form -/

theorem rising_tail {α : Type} {p : Nat × α} {t : Tbl α} (h : rising (p :: t) = true) : rising t = true := by
  cases t with
  | nil => rfl
  | cons q t => simp [rising] at h; exact h.2

theorem rising_cons {α : Type} (p : Nat × α) (t : Tbl α) :
    rising (p :: t) = true ↔ rising t = true ∧ ∀ q, t.head? = some q → p.1 < q.1 := by
  cases t with
  | nil => simp [rising]
  | cons q t => simp [rising]; exact And.comm

theorem tins_head {α : Type} (k : Nat) (v : α) (t : Tbl α) (q : Nat × α) (h : (tins k v t).head? = some q) :
    q.1 = k ∨ ∃ p, t.head? = some p ∧ p.1 = q.1 := by
  cases t with
  | nil => simp [tins] at h; left; rw [← h]
  | cons p t =>
    obtain ⟨a, w⟩ := p
    by_cases h1 : k < a
    · simp [tins, h1] at h; left; rw [← h]
    · by_cases h2 : a = k
      · simp [tins, h2] at h; left; rw [← h]
      · simp [tins, h1, h2] at h; right; exact ⟨(a, w), rfl, by rw [← h]⟩

theorem rising_tins {α : Type} (k : Nat) (v : α) (t : Tbl α) (h : rising t = true) : rising (tins k v t) = true := by
  induction t with
  | nil => rfl
  | cons p t ih =>
    obtain ⟨a, w⟩ := p
    by_cases h1 : k < a
    · simp only [tins, h1, if_true]
      exact (rising_cons _ _).2 ⟨h, fun q hq => by simp at hq; rw [← hq]; exact h1⟩
    · by_cases h2 : a = k
      · have e : tins k v ((a, w) :: t) = (k, v) :: t := by simp [tins, h2]
        rw [e]
        refine (rising_cons _ _).2 ⟨rising_tail h, fun q hq => ?_⟩
        have := ((rising_cons _ _).1 h).2 q hq
        simpa [← h2] using this
      · simp only [tins, h1, h2, if_false]
        refine (rising_cons _ _).2 ⟨ih (rising_tail h), fun q hq => ?_⟩
        rcases tins_head k v t q hq with e | ⟨p, hp, e⟩
        · show a < q.1; omega
        · rw [← e]; exact ((rising_cons _ _).1 h).2 p hp

theorem rising_lt {α : Type} {p : Nat × α} {t : Tbl α} (h : rising (p :: t) = true) : ∀ q ∈ t, p.1 < q.1 := by
  induction t generalizing p with
  | nil => intro q hq; simp at hq
  | cons r t ih =>
    intro q hq
    have hr := ((rising_cons _ _).1 h).2 r rfl
    rcases List.mem_cons.1 hq with e | e
    · rw [e]; exact hr
    · exact Nat.lt_trans hr (ih (rising_tail h) q e)

theorem rising_filter {α : Type} (f : Nat × α → Bool) (t : Tbl α) (h : rising t = true) : rising (t.filter f) = true := by
  induction t with
  | nil => rfl
  | cons p t ih =>
    have ht := ih (rising_tail h)
    by_cases hp : f p = true
    · rw [List.filter_cons_of_pos hp]
      refine (rising_cons _ _).2 ⟨ht, fun q hq => rising_lt h q ?_⟩
      exact (List.mem_filter.1 (List.mem_of_mem_head? hq)).1
    · rw [List.filter_cons_of_neg hp]; exact ht

theorem all_tins {α : Type} (f : Nat × α → Bool) (k : Nat) (v : α) (t : Tbl α) (hv : f (k, v) = true) (h : t.all f = true) :
    (tins k v t).all f = true := by
  induction t with
  | nil => simp [tins, hv]
  | cons p t ih =>
    obtain ⟨a, w⟩ := p
    rw [List.all_cons, Bool.and_eq_true] at h
    by_cases h1 : k < a
    · simp only [tins, h1, if_true, List.all_cons, hv, h.1, h.2, Bool.and_self]
    · by_cases h2 : a = k
      · have e : tins k v ((a, w) :: t) = (k, v) :: t := by simp [tins, h2]
        simp [e, hv, h.2]
      · simp only [tins, h1, h2, if_false, List.all_cons, h.1, ih h.2, Bool.and_self]

/-! ### Memory (R9): one byte, a string, the canonical form -/

@[simp] theorem byteAt_setByte_same (m : List Host.Cell) (a : Nat) (b : Byte) : byteAt (setByte m a b) a = b := tget_tset_same 0 a b m

theorem byteAt_setByte_other {a c : Nat} (h : c ≠ a) (m : List Host.Cell) (b : Byte) : byteAt (setByte m a b) c = byteAt m c :=
  tget_tset_other h 0 b m

theorem setByte_wf (m : List Host.Cell) (a : Nat) (b : Byte) (h : Memory.wf m = true) : Memory.wf (setByte m a b) = true := by
  rw [Bool.and_eq_true] at h
  unfold setByte tset
  split
  · rw [Bool.and_eq_true]
    refine ⟨rising_filter _ _ h.1, ?_⟩
    rw [List.all_eq_true] at h ⊢
    exact fun x hx => h.2 x (List.mem_filter.1 hx).1
  · rename_i hb
    rw [Bool.and_eq_true]
    exact ⟨rising_tins _ _ _ h.1, all_tins _ _ _ _ (by simpa using hb) h.2⟩

/-- Everything a write of a byte string does to memory: it keeps the canonical form, and outside its span nothing changes. -/
theorem setBytes_wf (l : List Byte) (m : List Host.Cell) (a : Nat) (h : Memory.wf m = true) : Memory.wf (setBytes m a l) = true := by
  induction l generalizing m a with
  | nil => exact h
  | cons b t ih => exact ih _ _ (setByte_wf m a b h)

theorem byteAt_setBytes_out (l : List Byte) (m : List Host.Cell) (a c : Nat) (h : c < a ∨ a + l.length ≤ c) :
    byteAt (setBytes m a l) c = byteAt m c := by
  induction l generalizing m a with
  | nil => rfl
  | cons b t ih =>
    simp only [List.length_cons] at h
    have : c ≠ a := by omega
    rw [setBytes, ih _ _ (by omega), byteAt_setByte_other this]

theorem byteAt_setBytes_in (l : List Byte) (m : List Host.Cell) (a i : Nat) (h : i < l.length) :
    byteAt (setBytes m a l) (a + i) = l.getD i 0 := by
  induction l generalizing m a i with
  | nil => simp at h
  | cons b t ih =>
    rw [setBytes]
    cases i with
    | zero => rw [Nat.add_zero, byteAt_setBytes_out _ _ _ _ (by omega)]; simp
    | succ i =>
      have : a + (i + 1) = a + 1 + i := by omega
      rw [this, ih _ _ _ (by simpa using h)]; simp

theorem bytesAt_length (n a : Nat) (m : List Host.Cell) : (bytesAt m a n).length = n := by
  induction n generalizing a with
  | zero => rfl
  | succ n ih => simp [bytesAt, ih]

@[simp] theorem leBytes_length (n v : Nat) : (leBytes n v).length = n := by
  induction n generalizing v with
  | zero => rfl
  | succ n ih => simp [leBytes, ih]

theorem bytesAt_setBytes (l : List Byte) (m : List Host.Cell) (a : Nat) : bytesAt (setBytes m a l) a l.length = l := by
  induction l generalizing m a with
  | nil => rfl
  | cons b t ih =>
    rw [List.length_cons, bytesAt, setBytes, ih, byteAt_setBytes_out _ _ _ _ (by omega), byteAt_setByte_same]

theorem ofLe_leBytes (n v : Nat) : ofLe (leBytes n v) = v % 256 ^ n := by
  induction n generalizing v with
  | zero => simp [leBytes, ofLe, Nat.mod_one]
  | succ n ih =>
    have e : 256 ^ (n + 1) = 256 * 256 ^ n := by rw [Nat.pow_succ, Nat.mul_comm]
    rw [leBytes, ofLe, ih, BitVec.toNat_ofNat, e, Nat.mod_mul]

/-- A number stored is the number loaded, cut to its bytes. -/
theorem loadLe_setBytes (m : List Host.Cell) (a n v : Nat) : loadLe (setBytes m a (leBytes n v)) a n = v % 256 ^ n := by
  have := bytesAt_setBytes (leBytes n v) m a
  rw [leBytes_length] at this
  rw [loadLe, this, ofLe_leBytes]

theorem storeLe_wf (m : List Host.Cell) (a n v : Nat) (h : Memory.wf m = true) : Memory.wf (storeLe m a n v) = true := setBytes_wf _ _ _ h

/-! ### Control registers -/

theorem regsAt_setRegs (b : Nat) (t : Tbl Nat) (s : State)
    (h : b ∈ [0, 1, 2, 3, 4, 5, 6, 7, 8, 9, 10, 11, 12, 13, 17, 18, 20, 22, 23, 24, 25, 26, 27, 28, 29, 30]) : regsAt b (setRegs b t s) = t := by
  simp only [List.mem_cons, List.not_mem_nil, or_false] at h
  rcases h with h | h | h | h | h | h | h | h | h | h | h | h | h | h | h | h | h | h | h | h | h | h | h | h | h | h <;> subst h <;> rfl

theorem regsAt_setRegs_other (b c : Nat) (t : Tbl Nat) (s : State) (h : b ≠ c) : regsAt c (setRegs b t s) = regsAt c s := by
  unfold setRegs
  split <;> first | rfl | (unfold regsAt; split <;> first | rfl | exact absurd rfl h)

/-- The block groups of Table IDX-2 that have registers. -/
abbrev isBlk (b : Nat) : Prop := b ∈ [0, 1, 2, 3, 4, 5, 6, 7, 8, 9, 10, 11, 12, 13, 17, 18, 20, 22, 23, 24, 25, 26, 27, 28, 29, 30]

/-- A field reads what was put into it, cut to its width. -/
theorem rd_wr_same (f : Fld) (v : Nat) (s : State) (h : isBlk f.blk) : rd f (wr f v s) = v % 2 ^ f.width := by
  unfold rd wr; rw [regsAt_setRegs _ _ _ h]; simp

/-- A field keeps its value when another is written. -/
theorem rd_wr_other (f g : Fld) (v : Nat) (s : State) (hb : isBlk f.blk) (h : f.blk ≠ g.blk ∨ f.key ≠ g.key) : rd g (wr f v s) = rd g s := by
  unfold rd wr
  by_cases e : f.blk = g.blk
  · have hk : f.key ≠ g.key := by rcases h with h | h; exact absurd e h; exact h
    rw [← e, regsAt_setRegs _ _ _ hb, tfind_tins_other (Ne.symm hk)]
  · rw [regsAt_setRegs_other _ _ _ _ e]

/-- A field after a write to a field of a named block: the new value if it is the one written, else its own. -/
theorem rd_wr (f g : Fld) (v : Nat) (s : State) (hb : isBlk f.blk) : rd g (wr f v s) = if f.blk = g.blk ∧ f.key = g.key then v % 2 ^ f.width else rd g s := by
  by_cases h : f.blk = g.blk ∧ f.key = g.key
  · rw [if_pos h]
    unfold rd wr
    rw [← h.1, ← h.2, regsAt_setRegs _ _ _ hb]; simp
  · rw [if_neg h, rd_wr_other f g v s hb (by omega)]

@[simp] theorem rd_note (f : Fld) (n : Note) (s : State) : rd f (note n s) = rd f s := rfl
@[simp] theorem rd_raise (f : Fld) (e : Nat) (s : State) : rd f (raise e s) = rd f s := rfl
@[simp] theorem rd_raiseAlarm (f : Fld) (e : Nat) (s : State) : rd f (raiseAlarm e s) = rd f s := rfl
@[simp] theorem rd_report (f : Fld) (c d : Nat) (s : State) : rd f (report c d s) = rd f s := rfl
@[simp] theorem rd_reportAlarm (f : Fld) (c d : Nat) (s : State) : rd f (reportAlarm c d s) = rd f s := rfl
@[simp] theorem rd_emit (f : Fld) (e : Emit) (s : State) : rd f (emit e s) = rd f s := rfl
@[simp] theorem rd_out (f : Fld) (o : List Emit) (s : State) : rd f { s with out := o } = rd f s := rfl

/-! ### Cores (R239) -/

@[simp] theorem coreOf_setCore_same (n : Nat) (c : Core) (s : State) : coreOf n (setCore n c s) = c := by
  simp [coreOf, setCore]

theorem coreOf_setCore_other {n m : Nat} (h : m ≠ n) (c : Core) (s : State) : coreOf m (setCore n c s) = coreOf m s := by
  simp [coreOf, setCore, tget_tset_other h]

@[simp] theorem gr_zero (c : Core) : c.gr 0 = 0 := rfl

@[simp] theorem setGr_zero (c : Core) (v : Word) : c.setGr 0 v = c := rfl

theorem gr_setGr_same (c : Core) (r : Nat) (v : Word) (h : r ≠ 0) : (c.setGr r v).gr r = v := by simp [Core.gr, Core.setGr, h]

theorem gr_setGr_other (c : Core) {r q : Nat} (v : Word) (h : q ≠ r) : (c.setGr r v).gr q = c.gr q := by
  by_cases h0 : r = 0
  · simp [Core.setGr, h0]
  · by_cases h1 : q = 0
    · simp [Core.gr, h1]
    · simp [Core.gr, Core.setGr, h0, h1, tget_tset_other h]

@[simp] theorem vr_setVr_same (c : Core) (r : Nat) (x : Vec) : (c.setVr r x).vr r = x := by simp [Core.vr, Core.setVr]

theorem vr_setVr_other (c : Core) {r q : Nat} (x : Vec) (h : q ≠ r) : (c.setVr r x).vr q = c.vr q := by simp [Core.vr, Core.setVr, tget_tset_other h]

end Sys2Proof.Machine
end

