-- ==== Sys2Proof/Laws/Run.lean ====
section
/-!
SUPPORT. Sys2Proof/Laws/Run.lean: what the end of a command does after the command's own effect: EVT takes the reports (settle), a cascade and a pair send what has changed. Apart says of two states that they differ
at most in EVT (but not in the time of its watchdog's last service), in Millrace's items, flows and counters, in the steward's counters, in the reports, in the free-value counter and in the writes held for EVT.
-/
namespace Sys2Proof.Machine
set_option Elab.async false -- as in Laws/State.lean

structure Apart (a b : State) : Prop where
  pending : a.pending = b.pending
  clk : a.clk = b.clk
  mem : a.mem = b.mem
  out : a.out = b.out
  site : a.site = b.site
  nv : a.nv = b.nv
  pwr : a.pwr = b.pwr
  flm : a.flm = b.flm
  ecc : a.ecc = b.ecc
  ref : a.ref = b.ref
  sol : a.sol = b.sol
  clm : a.clm = b.clm
  pro : a.pro = b.pro
  air : a.air = b.air
  wkr : a.wkr = b.wkr
  stp : a.stp = b.stp
  eth : a.eth = b.eth
  ptc : a.ptc = b.ptc
  can : a.can = b.can
  ser : a.ser = b.ser
  axs : a.axs = b.axs
  dio : a.dio = b.dio
  twn : a.twn = b.twn
  cas : a.cas = b.cas
  key : a.key = b.key
  upd : a.upd = b.upd
  otp : a.otp = b.otp
  fsh : a.fsh = b.fsh
  ccx : a.ccx = b.ccx
  done : a.mrc.done = b.mrc.done
  sess : a.stw.sessions = b.stw.sessions
  ident : a.stw.regs = b.stw.regs
  kick : a.evt.kickAt = b.evt.kickAt
  mreg : ∀ k, (k < 0x1000 ∨ 0x2000 ≤ k) → tfind k a.mrc.regs = tfind k b.mrc.regs
  ereg : ∀ k, (0x200 ≤ k ∧ k < 0x800) → tfind k a.evt.regs = tfind k b.evt.regs
  held : ∀ k, k / 2 ^ 32 ≠ 2 → tfind k a.held = tfind k b.held

theorem Apart.rfl' (a : State) : Apart a a := by constructor <;> first | rfl | exact fun _ _ => rfl

theorem Apart.trans' {a b c : State} (h : Apart a b) (g : Apart b c) : Apart a c := by
  constructor
  · exact h.pending.trans g.pending
  · exact h.clk.trans g.clk
  · exact h.mem.trans g.mem
  · exact h.out.trans g.out
  · exact h.site.trans g.site
  · exact h.nv.trans g.nv
  · exact h.pwr.trans g.pwr
  · exact h.flm.trans g.flm
  · exact h.ecc.trans g.ecc
  · exact h.ref.trans g.ref
  · exact h.sol.trans g.sol
  · exact h.clm.trans g.clm
  · exact h.pro.trans g.pro
  · exact h.air.trans g.air
  · exact h.wkr.trans g.wkr
  · exact h.stp.trans g.stp
  · exact h.eth.trans g.eth
  · exact h.ptc.trans g.ptc
  · exact h.can.trans g.can
  · exact h.ser.trans g.ser
  · exact h.axs.trans g.axs
  · exact h.dio.trans g.dio
  · exact h.twn.trans g.twn
  · exact h.cas.trans g.cas
  · exact h.key.trans g.key
  · exact h.upd.trans g.upd
  · exact h.otp.trans g.otp
  · exact h.fsh.trans g.fsh
  · exact h.ccx.trans g.ccx
  · exact h.done.trans g.done
  · exact h.sess.trans g.sess
  · exact h.ident.trans g.ident
  · exact h.kick.trans g.kick
  · exact fun k hk => (h.mreg k hk).trans (g.mreg k hk)
  · exact fun k hk => (h.ereg k hk).trans (g.ereg k hk)
  · exact fun k hk => (h.held k hk).trans (g.held k hk)

theorem apart_wr (f : Fld) (v : Nat) (s : State) (h : (f.blk = 2 ∧ (f.key < 0x200 ∨ 0x800 ≤ f.key)) ∨ (f.blk = 3 ∧ 0x1000 ≤ f.key ∧ f.key < 0x2000)) : Apart (wr f v s) s := by
  constructor
  · exact wr_pending f v s
  · exact wr_clk f v s
  · exact wr_mem f v s
  · exact wr_out f v s
  · exact wr_site f v s
  · exact wr_nv f v s
  · exact wr_pwr f v s (by omega)
  · exact wr_flm f v s (by omega)
  · exact wr_ecc f v s (by omega)
  · exact wr_ref f v s (by omega)
  · exact wr_sol f v s (by omega)
  · exact wr_clm f v s (by omega)
  · exact wr_pro f v s (by omega)
  · exact wr_air f v s (by omega)
  · exact wr_wkr f v s (by omega)
  · exact wr_stp f v s (by omega)
  · exact wr_eth f v s (by omega)
  · exact wr_ptc f v s (by omega)
  · exact wr_can f v s (by omega)
  · exact wr_ser f v s (by omega)
  · exact wr_axs f v s (by omega)
  · exact wr_dio f v s (by omega)
  · exact wr_twn f v s (by omega)
  · exact wr_cas f v s (by omega)
  · exact wr_key f v s (by omega)
  · exact wr_upd f v s (by omega)
  · exact wr_otp f v s (by omega)
  · exact wr_fsh f v s (by omega)
  · exact wr_ccx f v s (by omega)
  · unfold wr setRegs; split <;> rfl
  · unfold wr setRegs; split <;> rfl
  · rw [wr_stw f v s (by omega)]
  · unfold wr setRegs; split <;> rfl
  · intro k hk
    rcases h with ⟨h, h1⟩ | ⟨h, h1, h2⟩
    · have e : (wr f v s).mrc = s.mrc := wr_mrc f v s (by omega)
      rw [e]
    · unfold wr setRegs; rw [h]; exact tfind_tins_other (by omega) _ _
  · intro k hk
    rcases h with ⟨h, h1⟩ | ⟨h, h1, h2⟩
    · unfold wr setRegs; rw [h]; exact tfind_tins_other (by omega) _ _
    · have e : (wr f v s).evt = s.evt := wr_evt f v s (by omega)
      rw [e]
  · intro k _; rw [wr_held]

theorem apart_count (f : Fld) (n : Nat) (s : State) (h : (f.blk = 2 ∧ (f.key < 0x200 ∨ 0x800 ≤ f.key)) ∨ (f.blk = 3 ∧ 0x1000 ≤ f.key ∧ f.key < 0x2000)) : Apart (count f n s) s := apart_wr _ _ _ h

theorem apart_raise (e : Nat) (s : State) : Apart (raise e s) s := by constructor <;> first | rfl | exact fun _ _ => rfl

theorem apart_evt (x : Evt) (s : State) (h : x.kickAt = s.evt.kickAt := by rfl) (g : x.regs = s.evt.regs := by rfl) : Apart { s with evt := x } s := by
  constructor
  all_goals first | rfl | exact fun _ _ => rfl | exact h | exact fun k _ => by rw [show ({ s with evt := x } : State).evt.regs = s.evt.regs from g]

theorem apart_mrc (x : Mrc) (s : State) (h : x.done = s.mrc.done := by rfl) (g : x.regs = s.mrc.regs := by rfl) : Apart { s with mrc := x } s := by
  constructor
  all_goals first | rfl | exact fun _ _ => rfl | exact h | exact fun k _ => by rw [show ({ s with mrc := x } : State).mrc.regs = s.mrc.regs from g]

theorem apart_stw (x : Stw) (s : State) (h : x.sessions = s.stw.sessions := by rfl) (g : x.regs = s.stw.regs := by rfl) : Apart { s with stw := x } s := by
  constructor
  all_goals first | rfl | exact fun _ _ => rfl | exact h | exact g

theorem apart_notes (x : List Note) (s : State) : Apart { s with notes := x } s := by constructor <;> first | rfl | exact fun _ _ => rfl

/-- A fold of steps that each stay apart stays apart. -/
theorem apart_foldl {α : Type} (g : State → α → State) (l : List α) (s : State) (h : ∀ x ∈ l, ∀ s, Apart (g s x) s) : Apart (l.foldl g s) s := by
  induction l generalizing s with
  | nil => exact Apart.rfl' s
  | cons x t ih =>
    exact (ih (g s x) (fun y hy => h y (List.mem_cons_of_mem _ hy))).trans' (h x (List.mem_cons_self ..) s)

theorem apart_commitFld (f : Fld) (s : State) (h : f.blk = 2 ∧ (f.key < 0x200 ∨ 0x800 ≤ f.key) ∧ f.key < 2 ^ 32) : Apart (commitFld f s) s := by
  unfold commitFld
  dsimp only
  split
  · exact Apart.rfl' s
  · refine (apart_wr _ _ _ (Or.inl ⟨h.1, h.2.1⟩)).trans' ?_
    constructor
    all_goals first | rfl | exact fun _ _ => rfl | exact fun k hk => tfind_tdel_other (by omega) _

/-! ### Staging -/

theorem apart_lossBegins (s : State) : Apart (lossBegins s) s := by
  unfold lossBegins
  split
  · exact Apart.rfl' s
  · exact (apart_raise _ _).trans' (apart_evt _ _)

theorem apart_coalesceLog (a b c : Nat) (s : State) : Apart (coalesceLog a b c s) s :=
  (apart_lossBegins _).trans' ((apart_count EVT_CNT_LOG_COALESCED 1 _ (Or.inl ⟨rfl, by decide⟩)).trans' (apart_evt _ _))

theorem apart_dropTrace (a b : Nat) (s : State) : Apart (dropTrace a b s) s :=
  (apart_lossBegins _).trans' ((apart_count EVT_CNT_TRACE_DROP 1 _ (Or.inl ⟨rfl, by decide⟩)).trans' (apart_evt _ _))

theorem apart_evictTrace (s : State) : Apart (evictTrace s) s := by
  unfold evictTrace
  split
  · exact (apart_dropTrace _ _ _).trans' (apart_evt _ _)
  · exact Apart.rfl' s

theorem classCount_blk (c : Nat) : (classCount c).blk = 2 ∧ ((classCount c).key < 0x200 ∨ 0x800 ≤ (classCount c).key) := by unfold classCount; split <;> decide

theorem apart_putStaged (a b c d : Nat) (l : List Byte) (s : State) : Apart (putStaged a b c d l s) s := by
  unfold putStaged
  dsimp only
  split
  · refine (apart_raise _ _).trans' ((apart_count _ _ _ (Or.inl (classCount_blk a))).trans' ((apart_foldl _ _ _ ?_).trans' (apart_evt _ _)))
    intro x hx s
    simp only [List.mem_cons, List.not_mem_nil, or_false] at hx
    exact apart_commitFld x s (by rcases hx with h | h | h | h <;> subst h <;> exact ⟨rfl, by decide, by decide⟩)
  · refine (apart_count _ _ _ (Or.inl (classCount_blk a))).trans' ((apart_foldl _ _ _ ?_).trans' (apart_evt _ _))
    intro x hx s
    simp only [List.mem_cons, List.not_mem_nil, or_false] at hx
    exact apart_commitFld x s (by rcases hx with h | h | h | h <;> subst h <;> exact ⟨rfl, by decide, by decide⟩)

theorem apart_drainLogs (n : Nat) (s : State) : Apart (drainLogs n s) s := by
  induction n generalizing s with
  | zero => exact Apart.rfl' s
  | succ n ih =>
    unfold drainLogs
    split
    · exact Apart.rfl' s
    · split
      · dsimp only
        refine (ih _).trans' ((apart_putStaged _ _ _ _ _ _).trans' ?_)
        split
        · exact apart_evt _ _
        · exact (apart_evictTrace _).trans' (apart_evt _ _)
      · exact Apart.rfl' s

theorem apart_drainTraces (s : State) : Apart (drainTraces s) s := by
  unfold drainTraces
  split
  · exact Apart.rfl' s
  · split
    · exact (apart_putStaged _ _ _ _ _ _).trans' (apart_evt _ _)
    · exact Apart.rfl' s

theorem apart_stageAlarm (a b c : Nat) (l : List Byte) (s : State) : Apart (stageAlarm a b c l s) s := by
  unfold stageAlarm
  dsimp only
  split
  · exact (apart_putStaged _ _ _ _ _ _).trans' (apart_stw _ _)
  · split
    · exact (apart_putStaged _ _ _ _ _ _).trans' ((apart_evictTrace _).trans' (apart_stw _ _))
    · split
      · exact (apart_putStaged _ _ _ _ _ _).trans' ((apart_coalesceLog _ _ _ _).trans' (by constructor <;> first | rfl | exact fun _ _ => rfl))
      · exact (apart_count _ _ _ (Or.inl ⟨rfl, by decide⟩)).trans' (by constructor <;> first | rfl | exact fun _ _ => rfl)

theorem apart_stageLog (a b c : Nat) (l : List Byte) (s : State) : Apart (stageLog a b c l s) s := by
  unfold stageLog
  dsimp only
  split
  · refine (apart_putStaged _ _ _ _ _ _).trans' ?_
    split
    · exact apart_drainLogs _ _
    · exact (apart_evictTrace _).trans' (apart_drainLogs _ _)
  · exact (apart_coalesceLog _ _ _ _).trans' (apart_drainLogs _ _)

theorem apart_stageTrace (a b c : Nat) (l : List Byte) (s : State) : Apart (stageTrace a b c l s) s := by
  unfold stageTrace
  dsimp only
  split
  · exact (apart_putStaged _ _ _ _ _ _).trans' (apart_drainTraces _)
  · exact (apart_dropTrace _ _ _).trans' (apart_drainTraces _)

theorem apart_tidy (s : State) :
    Apart (if s.evt.tallies.isEmpty && s.evt.traceTally.isNone then { s with evt := { s.evt with lossy := false } } else s) s := by
  split
  · exact apart_evt _ _
  · exact Apart.rfl' s

theorem apart_stage (k a b c : Nat) (l : List Byte) (s : State) : Apart (stage k a b c l s) s := by
  unfold stage
  refine (apart_tidy _).trans' ?_
  split
  · exact apart_stageAlarm _ _ _ _ _
  · exact apart_stageLog _ _ _ _ _
  · exact apart_stageTrace _ _ _ _ _
  · exact Apart.rfl' s

/-! ### Offering an event to Millrace -/

theorem apart_makeReady (q : Nat) (s : State) : Apart (makeReady q s) s := by
  unfold makeReady
  split
  · exact Apart.rfl' s
  · dsimp only
    refine (apart_mrc _ _).trans' ?_
    split
    · exact (apart_count _ _ _ (Or.inr (by decide))).trans' (apart_mrc _ _)
    · exact apart_mrc _ _

theorem apart_promote (f : Nat) (s : State) : Apart (promote f s) s := by
  unfold promote
  split
  · split
    · exact apart_makeReady _ _
    · exact Apart.rfl' s
  · exact Apart.rfl' s

theorem apart_postItem (op f : Nat) (arg : Word) (src : ItemSrc) (ib : Option Inbox) (s : State) : Apart (postItem op f arg src ib s).2 s := by
  unfold postItem
  dsimp only
  refine (apart_promote _ _).trans' ?_
  split
  · exact (apart_raise _ _).trans' ((apart_count _ _ _ (Or.inr (by decide))).trans' (by constructor <;> first | rfl | exact fun _ _ => rfl))
  · exact (apart_count _ _ _ (Or.inr (by decide))).trans' (by constructor <;> first | rfl | exact fun _ _ => rfl)

theorem apart_postRoute (src : ItemSrc) (n op f times site ovr : Nat) (s : State) : Apart (postRoute src n op f times site ovr s) s := by
  unfold postRoute
  split
  · exact (apart_raise _ _).trans' ((apart_count _ _ _ (Or.inr (by decide))).trans' (apart_mrc _ _))
  · split
    · exact (apart_raise _ _).trans' (apart_count _ _ _ (Or.inr (by decide)))
    · exact apart_postItem _ _ _ _ _ _

theorem apart_offerEvent (e times site : Nat) (s : State) : Apart (offerEvent e times site s) s := by
  unfold offerEvent
  split
  · exact apart_postRoute _ _ _ _ _ _ _ _
  · exact Apart.rfl' s

/-! ### Occurrences, errors, and the settling of a command -/

theorem apart_occur (e : Nat) (al : Bool) (s : State) : Apart (occur e al s) s := by
  unfold occur
  split
  · exact Apart.rfl' s
  · dsimp only
    refine (apart_stage _ _ _ _ _ _).trans' ?_
    have h : Apart (count (EVT_COUNT e) 1 (setRunBit EVT_PEND e true s)) s :=
      (apart_count _ _ _ (Or.inl ⟨rfl, Or.inr (by dsimp only [EVT_COUNT, EVT_PEND, EVT_ERR]; omega)⟩)).trans' (apart_wr _ _ _ (Or.inl ⟨rfl, Or.inr (by dsimp only [EVT_COUNT, EVT_PEND, EVT_ERR]; omega)⟩))
    split
    · exact (apart_evt _ _).trans' h
    · exact (apart_offerEvent _ _ _ _).trans' h

theorem apart_fillErr (n c d : Nat) (s : State) : Apart (fillErr n c d s) s := by
  unfold fillErr
  dsimp only
  have put : ∀ w, Apart (List.foldl (fun s p => wr (EVT_ERR n (w + p.2)) p.1 s) s (errWords c d s).zipIdx) s :=
    fun w => apart_foldl _ _ _ (fun x _ s => apart_wr _ _ _ (Or.inl ⟨rfl, Or.inr (by dsimp only [EVT_COUNT, EVT_PEND, EVT_ERR]; omega)⟩))
  split
  · exact put 0
  · split
    · exact put 3
    · split
      · exact (apart_raise _ _).trans' (apart_count _ _ _ (Or.inl ⟨rfl, Or.inr (by dsimp only [EVT_COUNT, EVT_PEND, EVT_ERR]; omega)⟩))
      · exact apart_count _ _ _ (Or.inl ⟨rfl, Or.inr (by dsimp only [EVT_COUNT, EVT_PEND, EVT_ERR]; omega)⟩)

theorem apart_takeNote (x : Note) (s : State) : Apart (takeNote x s) s := by
  unfold takeNote
  split
  · exact apart_occur _ _ _
  · exact (apart_stage _ _ _ _ _ _).trans' (apart_fillErr _ _ _ _)
  · exact apart_stage _ _ _ _ _ _

theorem apart_settleN (n : Nat) (s : State) : Apart (settleN n s) s := by
  induction n generalizing s with
  | zero => exact apart_notes _ _
  | succ n ih =>
    unfold settleN
    split
    · exact Apart.rfl' s
    · exact (ih _).trans' ((apart_foldl _ _ _ (fun x _ s => apart_takeNote x s)).trans' (apart_notes _ _))

/-- EVT takes every report: afterwards none is left. -/
theorem settleN_notes (n : Nat) (s : State) : (settleN n s).notes = [] := by
  induction n generalizing s with
  | zero => rfl
  | succ n ih =>
    unfold settleN
    split
    · assumption
    · exact ih _

theorem apart_settle (s : State) : Apart (settle s) s := apart_settleN 3 s

theorem settle_notes (s : State) : (settle s).notes = [] := settleN_notes 3 s

/-- A command that reports nothing is not touched by the settling. -/
theorem settle_quiet (s : State) (h : s.notes = []) : settle s = s := by
  unfold settle settleN
  split
  · rfl
  · rename_i h' ; rw [h] at h'; exact absurd rfl h'

/-! ### The outcome of a command -/

/-- What sending mirror records changes: TWN's sequence and count, and what is on a medium, behind what is there. -/
theorem issue_frame (r : MirRec) (s : State) : ∃ x o, issue r s = { s with twn := x, out := s.out ++ o } :=
  ⟨(issue r s).twn, [.mirror ((twnSeq s + 1) % 2 ^ 32) r], by simp [issue, emit, wr, setRegs, TWN_SEQ]⟩

theorem issues_frame (l : List MirRec) (s : State) : ∃ x o, l.foldl (fun s r => issue r s) s = { s with twn := x, out := s.out ++ o } := by
  induction l generalizing s with
  | nil => exact ⟨s.twn, [], by simp⟩
  | cons r t ih =>
    obtain ⟨x, o, h⟩ := issue_frame r s
    obtain ⟨y, p, g⟩ := ih (issue r s)
    exact ⟨y, o ++ p, by rw [List.foldl_cons, g, h]; simp⟩

theorem mirrorSend_frame (a s : State) : ∃ x o, mirrorSend a s = { s with twn := x, out := s.out ++ o } := by
  unfold mirrorSend
  split
  · exact issues_frame _ _
  · exact ⟨s.twn, [], by simp⟩

/-- A fold of steps that each only add to what is on a medium does no more. -/
theorem out_fold {α : Type} (g : State → α → State) (h : ∀ s x, ∃ o, g s x = { s with out := s.out ++ o }) (l : List α) (s : State) :
    ∃ o, l.foldl g s = { s with out := s.out ++ o } := by
  induction l generalizing s with
  | nil => exact ⟨[], by simp⟩
  | cons x t ih =>
    obtain ⟨o, e⟩ := h s x
    obtain ⟨p, f⟩ := ih (g s x)
    exact ⟨o ++ p, by rw [List.foldl_cons, f, e]; simp⟩

theorem cascadeSend_frame (a s : State) : ∃ x o, cascadeSend a s = { s with cas := x, out := s.out ++ o } := by
  unfold cascadeSend
  split
  · exact ⟨s.cas, [], by simp⟩
  · split
    · dsimp only
      obtain ⟨p, g⟩ := out_fold (fun (t : State) (x : Nat × Option Claim) =>
          ((List.range 8).filter (fun m => m != rd CAS_CTRL_MEMBER s && bit (rd CAS_STATUS_PRESENT s) m)).foldl (fun s m => emit (.cas (some m) (.replica x.1 x.2)) s) t)
        (fun s x => out_fold _ (fun s m => ⟨_, rfl⟩) _ s) (tdiff (fun k c => (k, c)) a.clm.claims s.clm.claims) s
      exact ⟨s.cas, p, g⟩
    · split
      · exact ⟨_, [], by simp; rfl⟩
      · exact ⟨s.cas, [], by simp⟩

/-- Everything the outcome of a command with effect f can be: a next state, apart from f's own by what EVT takes, by what a cascade and a pair send behind what the effect has sent, and with no report left. -/
theorem run_next (f : State → State) (s : State) :
    ∃ t, run f s = .next t ∧ t.notes = [] ∧
      ∃ u, Apart u (f { s with out := [] }) ∧ ∃ x y o, t = { u with twn := x, cas := y, out := u.out ++ o } := by
  obtain ⟨y, o, h⟩ := cascadeSend_frame s (settle (f { s with out := [] }))
  obtain ⟨x, p, g⟩ := mirrorSend_frame s (cascadeSend s (settle (f { s with out := [] })))
  refine ⟨_, rfl, ?_, settle (f { s with out := [] }), apart_settle _, x, y, o ++ p, ?_⟩
  · rw [g, h]; exact settle_notes _
  · rw [g, h]; simp

/-- Nothing a pair mirrors has changed. -/
theorem mirrorOf_same (a b : State) (hc : b.clm = a.clm) (hp : b.pro = a.pro) (ha : b.air = a.air) (hw : b.wkr = a.wkr) (hs : b.stp = a.stp) (hk : b.key = a.key)
    (hm : b.mrc = a.mrc) : mirrorOf a b = [] := by
  have hl : laneRec b = laneRec a := by simp [laneRec, rd, rd64, regsAt, STP_STATUS_STATE, STP_STATUS_FAULT, STP_STATUS_ACTIVE, STP_STATUS_LATCHED, STP_SERIAL_SERIAL, STP_SERIAL_FIRST, STP_EPOCH_LO, STP_EPOCH_HI, STP_EPOCH_CYC, hs]
  simp [mirrorOf, laneDiff, tdiff, hl, hc, hp, ha, hw, hk, hm]

/-- A command that reports nothing and leaves everything a pair mirrors as it was ends in its own effect. -/
theorem run_quiet (f : State → State) (s : State) (hn : (f { s with out := [] }).notes = []) (hc : (f { s with out := [] }).clm = s.clm)
    (hp : (f { s with out := [] }).pro = s.pro) (ha : (f { s with out := [] }).air = s.air) (hw : (f { s with out := [] }).wkr = s.wkr)
    (hs : (f { s with out := [] }).stp = s.stp) (hk : (f { s with out := [] }).key = s.key) (hm : (f { s with out := [] }).mrc = s.mrc) :
    run f s = .next (f { s with out := [] }) := by
  unfold run
  rw [settle_quiet _ hn]
  have h1 : cascadeSend s (f { s with out := [] }) = f { s with out := [] } := by
    unfold cascadeSend; rw [hc, if_pos rfl]
  rw [h1]
  unfold mirrorSend
  split
  · rw [mirrorOf_same _ _ hc hp ha hw hs hk hm]; rfl
  · rfl

/-- As run_quiet, for an effect already worked out. -/
theorem run_to (f : State → State) (s u : State) (e : f { s with out := [] } = u) (hn : u.notes = []) (hc : u.clm = s.clm) (hp : u.pro = s.pro) (ha : u.air = s.air)
    (hw : u.wkr = s.wkr) (hs : u.stp = s.stp) (hk : u.key = s.key) (hm : u.mrc = s.mrc) : run f s = .next u := by
  subst e; exact run_quiet f s hn hc hp ha hw hs hk hm

/-- What every outcome of a command rests on: a property that holds of each state apart from the effect's own, whatever a pair and a cascade send, holds of the next state. -/
theorem run_answers (f : State → State) (s : State) (P : State → Prop)
    (h : ∀ u x y o, Apart u (f { s with out := [] }) → u.notes = [] → P { u with twn := x, cas := y, out := u.out ++ o }) : ∃ t, run f s = .next t ∧ P t := by
  obtain ⟨t, e, n, u, ap, x, y, o, rfl⟩ := run_next f s
  exact ⟨_, e, h u x y o ap n⟩

/-- A register of a block that neither a report nor a send touches. -/
theorem rd_sent {u v : State} (ap : Apart u v) (f : Fld) (x : Twn) (y : Cas) (o : List Emit) (h2 : f.blk ≠ 2) (h3 : f.blk ≠ 3) (h24 : f.blk ≠ 24) (h25 : f.blk ≠ 25) :
    rd f { u with twn := x, cas := y, out := o } = rd f v := by
  have : regsAt f.blk { u with twn := x, cas := y, out := o } = regsAt f.blk v := by
    unfold regsAt
    split <;> first | rfl | contradiction | (simp only [ap.ident, ap.pwr, ap.flm, ap.ecc, ap.ref, ap.sol, ap.clm, ap.pro, ap.air, ap.wkr, ap.stp, ap.eth, ap.ptc, ap.can, ap.ser, ap.axs, ap.dio, ap.key, ap.upd, ap.otp, ap.fsh, ap.ccx])
  unfold rd
  rw [this]

end Sys2Proof.Machine
end

