-- ==== Sys2Proof/Laws/Cy.lean ====
section
/-!
SUPPORT. Sys2Proof/Laws/Cy.lean: what a core that executes does with an instruction: its own effect and nothing besides; and how loads, stores and the checks of main SRAM come out where no word is in error.
-/
namespace Sys2Proof.Machine

theorem Executes.quiet {n : Nat} {s : State} (h : Executes n s) : Executes n { s with out := [] } := h

theorem eccCore_clean {s : State} (h : ErrorFree s) (a w q n : Nat) : eccCore a w q n s = (true, s) := by simp [eccCore, h.1, h.2]

/-- What an instruction does on a core that executes it is its own effect. -/
theorem exec1_executes {n : Nat} {s : State} (h : Executes n s) (field : Bool) (hf : (field && n == 16) = false) (k : Core → State → State) :
    exec1 n field k s = k (coreOf n s) s := by
  obtain ⟨h1, h2, h3⟩ := h
  unfold exec1
  simp only [h1, h2, eccCore_clean h3, hf, Bool.not_true, Bool.false_eq_true, if_false, ite_self]

/-- An instruction that only changes its core's registers retires, and changes nothing else. -/
theorem regInstr_run {n : Nat} {s : State} (h : Executes n s) (hs : Settled s) (field : Bool) (hf : (field && n == 16) = false) (f : Core → Core) :
    run (regInstr n field f) s = .next (retire n f s) := by
  have e : regInstr n field f { s with out := [] } = retire n f s := exec1_executes h.quiet field hf _
  rw [run_quiet, e] <;> rw [e] <;> first | exact hs | rfl

/-- As regInstr_run, for the forms that are ILLEGAL on reserved operands. -/
theorem tryInstr_run {n : Nat} {s : State} (h : Executes n s) (hs : Settled s) (field : Bool) (hf : (field && n == 16) = false) (f : Core → Option Core)
    {c : Core} (hc : f (coreOf n s) = some c) : run (tryInstr n field f) s = .next (retire n (fun _ => c) s) := by
  have e : tryInstr n field f { s with out := [] } = retire n (fun _ => c) s := by
    unfold tryInstr
    rw [exec1_executes h.quiet field hf]
    show (match f (coreOf n s) with | some c' => _ | none => _) = _
    rw [hc]; rfl
  rw [run_quiet, e] <;> rw [e] <;> first | exact hs | rfl

theorem retire_core (n : Nat) (f : Core → Core) (s : State) : coreOf n (retire n f s) = (f (coreOf n s)).step := coreOf_setCore_same _ _ _

theorem retire_other {n m : Nat} (h : m ≠ n) (f : Core → Core) (s : State) : coreOf m (retire n f s) = coreOf m s := coreOf_setCore_other h _ _

/-! ### Main SRAM without errors -/

theorem areaOf_main {a : Nat} (h : a < 0x4000000) : areaOf a = .main := by simp [areaOf, h]

theorem dataCheck_main {n a w : Nat} {st : Bool} {s : State} (h : Reaches n a w st s) : dataCheck n a w st s = none := by
  obtain ⟨h1, h2, h3⟩ := h
  have h4 : ¬ 2 ^ 32 ≤ a := by omega
  unfold dataCheck
  rw [if_neg h4, areaOf_main h1]
  rcases h3 with rfl | ⟨h3, h5⟩
  · simp [h2, regionsGrant, levelOf]
  · simp [h2, h3, h5]

theorem loadData_main {n a w : Nat} {s : State} (h : a < 0x4000000) (he : ErrorFree s) : loadData n a w s = (some (loadLe s.mem a w), s) := by
  unfold loadData
  rw [areaOf_main h]
  have h1 : ¬ (0x40080000 ≤ a ∧ a < 0x40480000) := by omega
  have h2 : ¬ (0x41024000 ≤ a ∧ a < 0x41324000) := by omega
  simp [eccCore_clean he, h1, h2]

theorem markStore_clean {s : State} (h : s.ecc.marks = []) (w : Nat) (full : Bool) (who : Nat) : markStore w full who s = s := by
  simp [markStore, markAt, h, tfind]

theorem memWrite_clean {s : State} (h : s.ecc.marks = []) (a : Nat) (bs : List Byte) (who : Nat) : memWrite a bs who s = s.setMem (setBytes s.mem a bs) := by
  have e : ∀ ws : List Nat, ws.foldl (fun s w => markStore w (decide (a ≤ w ∧ w + 8 ≤ a + bs.length)) who s) s = s := by
    intro ws; induction ws with
    | nil => rfl
    | cons w t ih => rw [List.foldl_cons, markStore_clean h, ih]
  unfold memWrite; simp only [e]

theorem storeData_main {n a w v : Nat} {s : State} (h : a < 0x4000000) (he : ErrorFree s) :
    storeData n a w v s = s.setMem (setBytes s.mem a (leBytes w v)) := by
  unfold storeData; rw [areaOf_main h]; exact memWrite_clean he.1 _ _ _

/-! ### Loads, stores, branches as a core that executes does them -/

theorem loadInstr_executes {n a ofs sc w : Nat} {s : State} (h : Executes n s) (field : Bool) (hf : (field && n == 16) = false) (f : Nat → Core → Core)
    (hr : Reaches n (effAddr (coreOf n s) a ofs sc) w false s) :
    loadInstr n a ofs sc w field f s = finish n (f (loadLe s.mem (effAddr (coreOf n s) a ofs sc) w)) s := by
  unfold loadInstr
  rw [exec1_executes h field hf]
  simp only [dataCheck_main hr, loadData_main hr.1 h.2.2]

theorem storeInstr_executes {n a ofs sc w : Nat} {s : State} (h : Executes n s) (field : Bool) (hf : (field && n == 16) = false) (f : Core → Nat)
    (hr : Reaches n (effAddr (coreOf n s) a ofs sc) w true s) :
    storeInstr n a ofs sc w field f s =
      (finish n (fun c => c) s).setMem (setBytes s.mem (effAddr (coreOf n s) a ofs sc) (leBytes w (f (coreOf n s)))) := by
  unfold storeInstr
  rw [exec1_executes h field hf]
  simp only [dataCheck_main hr]
  exact storeData_main (s := finish n (fun c => c) s) hr.1 h.2.2

theorem loadInstr_run {n a ofs sc w : Nat} {s : State} (h : Executes n s) (hs : Settled s) (field : Bool) (hf : (field && n == 16) = false) (f : Nat → Core → Core)
    (hr : Reaches n (effAddr (coreOf n s) a ofs sc) w false s) :
    run (loadInstr n a ofs sc w field f) s = .next (retire n (f (loadLe s.mem (effAddr (coreOf n s) a ofs sc) w)) s) := by
  exact run_to _ s _ (loadInstr_executes (s := { s with out := [] }) h.quiet field hf f hr) hs rfl rfl rfl rfl rfl rfl rfl

theorem storeInstr_run {n a ofs sc w : Nat} {s : State} (h : Executes n s) (hs : Settled s) (field : Bool) (hf : (field && n == 16) = false) (f : Core → Nat)
    (hr : Reaches n (effAddr (coreOf n s) a ofs sc) w true s) :
    run (storeInstr n a ofs sc w field f) s =
      .next ((retire n (fun c => c) s).setMem (setBytes s.mem (effAddr (coreOf n s) a ofs sc) (leBytes w (f (coreOf n s))))) := by
  exact run_to _ s _ (storeInstr_executes (s := { s with out := [] }) h.quiet field hf f hr) hs rfl rfl rfl rfl rfl rfl rfl

/-! ### Every write of addressed memory keeps its canonical form -/

@[simp] theorem setMark_mem (a : Nat) (m : Option WordErr) (s : State) : (setMark a m s).mem = s.mem := rfl

@[simp] theorem memError_mem (c a q who : Nat) (s : State) : (memError c a q who s).mem = s.mem := by
  unfold memError
  dsimp only
  repeat' split
  all_goals simp [count]

theorem fold_mem {α : Type} (g : State → α → State) (h : ∀ s x, (g s x).mem = s.mem) (l : List α) (s : State) : (l.foldl g s).mem = s.mem := by
  induction l generalizing s with
  | nil => rfl
  | cons x t ih => rw [List.foldl_cons, ih, h]

theorem marks_mem (l : List Nat) (m : Option WordErr) (s : State) : (l.foldl (fun s w => setMark w m s) s).mem = s.mem :=
  fold_mem (fun s w => setMark w m s) (fun _ _ => rfl) l s

@[simp] theorem lineLost_mem (l a q who : Nat) (s : State) : (lineLost l a q who s).mem = s.mem := by
  simp [lineLost, count, marks_mem]

@[simp] theorem rebuildWord_mem (w q who : Nat) (s : State) : (rebuildWord w q who s).mem = s.mem := by
  unfold rebuildWord
  dsimp only
  split <;> simp [count]

@[simp] theorem decodeLine_mem (l a q who : Nat) (s : State) : (decodeLine l a q who s).mem = s.mem := by
  unfold decodeLine
  split <;> (try split) <;> simp [count]

@[simp] theorem markStore_mem (w : Nat) (full : Bool) (who : Nat) (s : State) : (markStore w full who s).mem = s.mem := by
  unfold markStore
  split
  · rfl
  · split <;> simp [count]
  · split
    · rfl
    · dsimp only; split <;> simp

theorem memWrite_mem (a : Nat) (bs : List Byte) (who : Nat) (s : State) : (memWrite a bs who s).mem = setBytes s.mem a bs := by
  show setBytes (List.foldl _ s _).mem a bs = _
  rw [fold_mem _ (fun s w => markStore_mem w _ who s)]

theorem memWrite_wf (a : Nat) (bs : List Byte) (who : Nat) (s : State) (h : Memory.wf s.mem = true) : Memory.wf (memWrite a bs who s).mem = true := by
  rw [memWrite_mem]; exact setBytes_wf _ _ _ h

end Sys2Proof.Machine
end

