-- ==== Sys2Proof/Laws/Keeps.lean ====
section
/-!
SUPPORT. Sys2Proof/Laws/Keeps.lean: the frame of a command from the frame of its own effect: what EVT, Millrace, a pair and a cascade do afterwards touches no part of the state.
-/
namespace Sys2Proof.Machine

theorem Apart.part {u v : State} (ap : Apart u v) (x : Twn) (y : Cas) (o : List Emit) (p : Part) : p.same { u with twn := x, cas := y, out := o } v := by
  cases p
  · exact ap.mem
  · exact ap.clk
  · exact ap.site
  · exact ap.nv
  · exact ap.pwr
  · exact ap.flm
  · exact ap.ecc
  · exact ap.ref
  · exact ap.sol
  · exact ap.clm
  · exact ap.pro
  · exact ap.air
  · exact ap.wkr
  · exact ap.stp
  · exact ap.eth
  · exact ap.ptc
  · exact ap.can
  · exact ap.ser
  · exact ap.axs
  · exact ap.dio
  · exact ap.key
  · exact ap.upd
  · exact ap.otp
  · exact ap.fsh
  · exact ap.ccx

theorem Part.same_trans {p : Part} {a b c : State} (h : p.same a b) (g : p.same b c) : p.same a c := by
  cases p <;> exact Eq.trans h g

theorem Part.same_refl (p : Part) (a : State) : p.same a a := by cases p <;> rfl

theorem Keeps.refl (ps : List Part) (a : State) : Keeps ps a a := ⟨rfl, fun p _ => p.same_refl a⟩

theorem Keeps.trans {ps : List Part} {a b c : State} (h : Keeps ps a b) (g : Keeps ps b c) : Keeps ps a c :=
  ⟨g.1.trans h.1, fun p hp => Part.same_trans (g.2 p hp) (h.2 p hp)⟩

theorem Keeps.foldl {α : Type} {ps : List Part} {g : State → α → State} (h : ∀ s x, Keeps ps s (g s x)) (l : List α) (s : State) : Keeps ps s (l.foldl g s) := by
  induction l generalizing s with
  | nil => exact Keeps.refl ps s
  | cons x t ih => exact (h s x).trans (ih (g s x))

/-- Replacing a block's registers keeps every part but that block's. -/
theorem Keeps.setRegs {ps : List Part} (b : Nat) (r : Tbl Nat) (s : State) (h : ∀ p, blkPart b = some p → p ∈ ps) : Keeps ps s (Machine.setRegs b r s) := by
  unfold Machine.setRegs
  split
  all_goals exact ⟨rfl, fun p hp => by cases p <;> first | rfl | exact absurd (h _ rfl) hp⟩

/-- Writing a register keeps every part but its block's. -/
theorem Keeps.wr {ps : List Part} (f : Fld) (v : Nat) (s : State) (h : ∀ p, blkPart f.blk = some p → p ∈ ps) : Keeps ps s (Machine.wr f v s) := Keeps.setRegs _ _ _ h

theorem Keeps.count {ps : List Part} (f : Fld) (n : Nat) (s : State) (h : ∀ p, blkPart f.blk = some p → p ∈ ps) : Keeps ps s (Machine.count f n s) := Keeps.wr _ _ _ h
theorem Keeps.note (ps : List Part) (n : Note) (s : State) : Keeps ps s (Machine.note n s) := ⟨rfl, fun p _ => by cases p <;> rfl⟩
theorem Keeps.raise (ps : List Part) (e : Nat) (s : State) : Keeps ps s (Machine.raise e s) := Keeps.note _ _ _
theorem Keeps.report (ps : List Part) (c d : Nat) (s : State) : Keeps ps s (Machine.report c d s) := Keeps.note _ _ _
theorem Keeps.emit (ps : List Part) (e : Emit) (s : State) : Keeps ps s (Machine.emit e s) := ⟨rfl, fun p _ => by cases p <;> rfl⟩

/-- The frame of an effect is the frame of its command. -/
theorem Keeps.sent {ps : List Part} {s u v : State} (ap : Apart u v) (h : Keeps ps { s with out := [] } v) (x : Twn) (y : Cas) (o : List Emit) :
    Keeps ps s { u with twn := x, cas := y, out := o } := by
  refine ⟨ap.pending.trans h.1, fun p hp => Part.same_trans (ap.part x y o p) ?_⟩
  have g := h.2 p hp
  cases p <;> exact g

end Sys2Proof.Machine
end

