-- ==== Sys2Proof/Tests/Slice0.lean ====
section
/-!
SUPPORT. Sys2Proof/Tests/Slice0.lean: tests on fixed values, a term each check of WellFormed refuses, words decoded, and for each statement a concrete state and operands that meet its premises. Expected values are from the spec's tables and rules.
-/
namespace Sys2Proof.Tests
open Sys2Proof Sys2Proof.Machine
set_option Elab.async false -- one theorem after another: each kernel evaluation that waits for another would hold a thread

/-! ### Helpers -/

/-- A state with some register fields set. -/
def put (l : List (Fld × Nat)) (s : State) : State := l.foldl (fun s p => wr p.1 p.2 s) s

/-- The command answers a next state of which p holds. -/
def after (i : Instr) (s : State) (p : State → Bool) : Bool := match exec i s with | .next t => p t | _ => false

/-- What a counter has risen by. -/
def up (f : Fld) (n : Nat) (s t : State) : Bool := rd f t == rd f s + n

/-- The result register of a block. -/
def res (blk inst off cmd status error : Nat) (t : State) : Bool :=
  rd (fldAt blk inst off 4 4) t == cmd && rd (fldAt blk inst off 0 3) t == status && rd (fldAt blk inst off 16 16) t == error

/-- A module in Ready with site time 20 s. -/
def ready : State := { State.reset with clk := { siteSet := true, siteAcc := 20000000000 * 2 ^ 32, frc := 10 ^ 11 } }

/-- Field core F1 at RUN level at address 0x1000, with some registers; debug off. -/
def core (g : Tbl Word) : State := { ready with ccx := { cores := [(1, { st := .run, pc := 0x1000, g := g, v := [(2, 0x4000000000000000), (3, 0x00FF0001000280037FF0000000000001)] })] } }

/-! ### Well-formedness: a term each check refuses -/

theorem test_wf_refuses :
    (Instr.add 17 1 2 3 false).wf = false ∧ (Instr.budgetExpiry 16).wf = false ∧ (Instr.add 0 32 2 3 false).wf = false ∧ (Instr.addi 0 1 2 65536).wf = false ∧
    (Instr.jal 0 67108864).wf = false ∧ (Instr.illegal 0 4294967296).wf = false ∧ (Instr.shifti 0 1 2 3 0).wf = false ∧ (Instr.shifti 0 1 2 0 64).wf = false ∧
    (Instr.atomic 0 0 1 0 1 2 3).wf = false ∧ (Instr.atomicCas 0 2 4 1 2 3).wf = false ∧ (Instr.vadd 0 5 1 2 3).wf = false ∧ (Instr.vshl 0 4 1 2 3).wf = false ∧
    (Instr.vext 0 2 1 2 4).wf = false ∧ (Instr.erd 0 6 0 1).wf = false ∧ (Instr.erd 0 3 2 1).wf = false ∧ (Instr.crr 0 1 6).wf = false ∧ (Instr.fpush 0 1 2 128).wf = false ∧
    (Instr.linkChange 4 true false 1).wf = false ∧ (Instr.observationFrame 0 0 0 []).wf = false ∧ (Instr.registerWrite 18 0 0).wf = false := by decide +kernel

/-! ### Decoding: words written out from Tables ISA-2 to ISA-12, one or more for each family -/

/-- Words of 08_cyent_instruction_set.md: addi g30, g30, -64; movw g11, 8; frecv; lhu; bltu; mdone g0; the others bit by bit from the format. -/
theorem test_decode_alu :
    decodeCyent 1 0x0BDEFFC0 = some (.addi 1 30 30 0xFFC0) ∧ decodeCyent 1 0x21600008 = some (.movw 1 11 0 false 8) ∧ decodeCyent 1 0x08000000 = some (.addi 1 0 0 0) ∧
    decodeCyent 1 0b00000100001000100001100000000001 = some (.sub 1 1 2 3 false) ∧ decodeCyent 1 0b00000100001000100001110000000001 = some (.sub 1 1 2 3 true) ∧
    decodeCyent 1 0b00100100001000100001100000000101 = some (.divu 1 1 2 3 false) ∧ decodeCyent 1 0b00011000001000100000010101000111 = none ∧
    decodeCyent 1 0b00011000001000100000010100000111 = some (.shifti 1 1 2 5 7) ∧ decodeCyent 1 0b00000100001000100001100000010010 = none := by decide +kernel

theorem test_decode_memory :
    decodeCyent 1 0x4D9E0008 = some (.lhu 1 12 30 8) ∧ decodeCyent 1 0b01101100001000101111111111111000 = some (.sd 1 1 2 0xFFF8) ∧
    decodeCyent 1 0b10000000001000100001100011110001 = some (.atomic 1 1 3 3 1 2 3) ∧ decodeCyent 1 0b10000000001000100001100000101001 = some (.atomicCas 1 2 0 1 2 3) ∧
    decodeCyent 1 0b10000100000000000000000000000010 = some (.fenceI 1) := by decide +kernel

theorem test_decode_control :
    decodeCyent 1 0xA1AC0003 = some (.bltu 1 13 12 3) ∧ decodeCyent 1 0b10101011111111111111111111111111 = some (.jal 1 0x3FFFFFF) ∧
    decodeCyent 1 0b10101100000111110000000000000000 = some (.jalr 1 0 31 0) ∧ decodeCyent 1 0b11110000000000000000000000000010 = some (.eret 1) ∧
    decodeCyent 1 0b11111000001000100000000000000100 = some (.crw 1 1 2 4) ∧ decodeCyent 1 0b11111000001000100000000000000110 = none ∧ decodeCyent 1 0 = none := by decide +kernel

theorem test_decode_float_vector :
    decodeCyent 1 0b11000000001000100001100000000111 = some (.fmadd 1 1 2 3) ∧ decodeCyent 1 0b11000100001000100001101000001001 = some (.vshl 1 2 1 2 3) ∧
    decodeCyent 1 0b11000100001000100001110000001001 = none ∧ decodeCyent 1 0b11000100001000100001110000010010 = some (.vdiv 1 4 1 2 3) := by decide +kernel

theorem test_decode_field :
    decodeCyent 0 0xD15E5929 = some (.frecv 0 10 30 11 0x12) ∧ decodeCyent 1 0xD8000000 = some (.mdone 1 0) ∧ decodeCyent 1 0b11010100100000100000001100000000 = some (.erd 1 3 4 2) ∧
    decodeCyent 1 0b11010100010000100000001100000000 = none ∧ decodeCyent 1 0b11011100001000000001000000000011 = some (.tport 1 1 2) := by decide +kernel

/-- DecodeUndoesEncode: an instruction that has a word, with its operands at the ends of their ranges. -/
theorem witness_DecodeUndoesEncode :
    (Instr.fmvX 15 31 0).wf = true ∧ encodeCyent (.fmvX 15 31 0) = some 0xC3E00011 ∧ decodeCyent 15 0xC3E00011 = some (.fmvX 15 31 0) ∧
    encodeCyent (.frecv 0 31 31 31 127) = some 0xD3FFFFF9 ∧ encodeCyent .stpStop = none := by decide +kernel

/-! ### Cyent cores -/

/-- The premises of the integer, immediate, branch, load, store, atomic, float and vector statements; a result and the program counter of one of each (R241 to R259). -/
theorem witness_core :
    let s := core [(2, 0xFFFFFFFFFFFFFFFB), (3, 3)]
    Settled s ∧ Executes 1 s ∧ FieldExecutes 1 s ∧
    after (.sub 1 1 2 3 false) s (fun t => (coreOf 1 t).gr 1 == 0xFFFFFFFFFFFFFFF8 && (coreOf 1 t).pc == 0x1004) = true ∧
    after (.add 1 1 3 2 true) s (fun t => (coreOf 1 t).gr 1 == 0xFFFFFFFFFFFFFFFE) = true ∧
    after (.slt 1 2 2 3 false) s (fun t => (coreOf 1 t).gr 2 == 1) = true ∧ after (.sltu 1 2 2 3 false) s (fun t => (coreOf 1 t).gr 2 == 0) = true ∧
    after (.sra 1 1 2 3 false) s (fun t => (coreOf 1 t).gr 1 == 0xFFFFFFFFFFFFFFFF) = true ∧ after (.shifti 1 1 2 5 4) s (fun t => (coreOf 1 t).gr 1 == 0x0FFFFFFF) = true ∧
    after (.clz 1 1 3) s (fun t => (coreOf 1 t).gr 1 == 62) = true ∧ after (.ctz 1 1 0) s (fun t => (coreOf 1 t).gr 1 == 64) = true ∧
    after (.popc 1 1 2) s (fun t => (coreOf 1 t).gr 1 == 63) = true ∧ after (.bswap 1 1 3 true) s (fun t => (coreOf 1 t).gr 1 == 0x03000000) = true ∧
    after (.div 1 1 2 3 false) s (fun t => (coreOf 1 t).gr 1 == 0xFFFFFFFFFFFFFFFF) = true ∧ after (.rem 1 1 2 3 false) s (fun t => (coreOf 1 t).gr 1 == 0xFFFFFFFFFFFFFFFE) = true ∧
    after (.divu 1 1 3 0 false) s (fun t => (coreOf 1 t).gr 1 == 0xFFFFFFFFFFFFFFFF) = true ∧ after (.mulhu 1 1 2 3) s (fun t => (coreOf 1 t).gr 1 == 2) = true ∧
    after (.mulh 1 1 2 3) s (fun t => (coreOf 1 t).gr 1 == 0xFFFFFFFFFFFFFFFF) = true ∧
    after (.movw 1 2 3 true 0x1234) s (fun t => (coreOf 1 t).gr 2 == 0x1234FFFFFFFFFFFB) = true ∧ after (.pcadd 1 1 0xFFFF) s (fun t => (coreOf 1 t).gr 1 == 0xFFFFFFFFFFFF1000) = true ∧
    after (.addi 1 0 2 5) s (fun t => (coreOf 1 t).gr 0 == 0) = true := by decide +kernel

/-- The most negative value over minus one (R244). -/
theorem test_div_wraps :
    let s := core [(2, 0x8000000000000000), (3, 0xFFFFFFFFFFFFFFFF)]
    after (.div 1 1 2 3 false) s (fun t => (coreOf 1 t).gr 1 == 0x8000000000000000) = true ∧ after (.rem 1 1 2 3 false) s (fun t => (coreOf 1 t).gr 1 == 0) = true := by decide +kernel

/-- Branches and jumps: the relation, the targets' bounds, both outcomes. -/
theorem witness_BranchesAndJumps :
    let s := core [(2, 0xFFFFFFFFFFFFFFFB), (3, 3)]
    targetOf (coreOf 1 s) (imm16 0xFFFF) < 2 ^ 32 ∧ fetchOk 1 (targetOf (coreOf 1 s) (imm16 0xFFFF)) s = true ∧ targetOf (coreOf 1 s) (sgn 26 8) < 2 ^ 32 ∧
    fetchOk 1 (targetOf (coreOf 1 s) (sgn 26 8)) s = true ∧ (addImm ((coreOf 1 s).gr 3) (imm16 0x2001)).toNat < 2 ^ 32 ∧ fetchOk 1 (addImm ((coreOf 1 s).gr 3) (imm16 0x2001)).toNat s = true ∧
    after (.blt 1 2 3 0xFFFF) s (fun t => (coreOf 1 t).pc == 0xFFC) = true ∧ after (.bltu 1 2 3 0xFFFF) s (fun t => (coreOf 1 t).pc == 0x1004) = true ∧
    after (.jal 1 8) s (fun t => (coreOf 1 t).pc == 0x1020 && (coreOf 1 t).gr 31 == 0x1004) = true ∧
    after (.jalr 1 3 3 0x2001) s (fun t => (coreOf 1 t).pc == 0x2004 && (coreOf 1 t).gr 3 == 0x1004) = true := by decide +kernel

/-- Loads, stores and atomics of main SRAM: the last bytes and the first (Reaches at its boundary), byte order and sign. -/
theorem witness_memory :
    let s := { core [(2, 0x3FFFFF8), (3, 0x8899AABBCCDDEEFF)] with mem := [(0x3FFFFF8, 0x80), (0x3FFFFFF, 0xFF)] }
    let e := effAddr (coreOf 1 s) 2 7 1
    e = 0x3FFFFFF ∧ Reaches 1 e 1 false s ∧ Reaches 1 e 1 true s ∧ Reaches 1 (effAddr (coreOf 1 s) 2 0 1) 8 false s ∧ Reaches 1 (effAddr (coreOf 1 s) 0 0 1) 8 true s ∧
    Reaches 1 (effAddr (coreOf 1 s) 0 1 16) 16 false s ∧ Reaches 1 (effAddr (coreOf 1 s) 0 1 16) 16 true s ∧ Reaches 1 0x3FFFFF8 4 true s ∧ Reaches 1 0x3FFFFF8 8 true s ∧
    after (.lb 1 1 2 7) s (fun t => (coreOf 1 t).gr 1 == 0xFFFFFFFFFFFFFFFF) = true ∧ after (.lhu 1 1 2 6) s (fun t => (coreOf 1 t).gr 1 == 0xFF00) = true ∧
    after (.ld 1 1 2 0) s (fun t => (coreOf 1 t).gr 1 == 0xFF00000000000080) = true ∧ after (.ld 1 0 2 0) s (fun t => (coreOf 1 t).gr 0 == 0 && (coreOf 1 t).pc == 0x1004) = true ∧
    after (.fld 1 3 2 0) s (fun t => (coreOf 1 t).vr 3 == 0xFF00000000000080) = true ∧
    after (.sh 1 3 0 4) s (fun t => bytesAt t.mem 3 4 == [0, 0xFF, 0xEE, 0]) = true ∧ after (.vst 1 3 0 1) s (fun t => loadLe t.mem 16 16 == 0x00FF0001000280037FF0000000000001) = true ∧
    after (.atomic 1 5 2 0 1 2 0) s (fun t => (coreOf 1 t).gr 1 == 0x80 && loadLe t.mem 0x3FFFFF8 8 == 0xFF00000000000000) = true ∧
    after (.atomicCas 1 2 3 4 2 3) s (fun t => (coreOf 1 t).gr 4 == 0x80 && loadLe t.mem 0x3FFFFF8 4 == 0x80) = true := by decide +kernel

/-- One and a half, the sum of 1.5 and 1.5, the quotient of 1 by 0, a NaN's comparison, and conversions beyond the range (R250 to R256). -/
theorem test_float :
    fAdd 0 0x3FF8000000000000 0x3FF8000000000000 = (0x4008000000000000, {}) ∧ (fDiv 0 0x3FF0000000000000 0) = (0x7FF0000000000000, { dz := true }) ∧
    (fMul 0 0x7FF0000000000000 0) = (0x7FF8000000000000, { nv := true }) ∧ (fSqrt 0 0x4022000000000000).1 = 0x4008000000000000 ∧
    after (.fadd 1 1 2 2) (core []) (fun t => (coreOf 1 t).vr 1 == 0x4010000000000000) = true ∧ after (.feq 1 1 3 3) (core []) (fun t => (coreOf 1 t).gr 1 == 0) = true ∧
    after (.fcvtLD 1 1 2) (core []) (fun t => (coreOf 1 t).gr 1 == 2) = true ∧ after (.fcvtDL 1 1 5) (core [(5, 3)]) (fun t => (coreOf 1 t).vr 1 == 0x4008000000000000) = true ∧
    after (.fclass 1 1 3) (core []) (fun t => (coreOf 1 t).gr 1 == 0x100) = true := by decide +kernel

/-- QuietNaN and the vector statements: operands that meet their premises; lanes. -/
theorem witness_vector :
    let s := core [(5, 0x1FE)]
    (0x7FF0000000000001 / 2 ^ 52 % 2048 = 2047 ∧ 0x7FF0000000000001 % 2 ^ 52 ≠ 0) ∧ (fAdd 3 0x7FF0000000000001 0).1 = 0x7FF8000000000000 ∧ (fDiv 3 1 (2 ^ 63)).2 = { dz := true } ∧
    after (.vadd 1 1 1 3 3) s (fun t => (coreOf 1 t).vr 1 == 0x01FE000200040006FFE0000000000002) = true ∧
    after (.vsplat 1 1 1 5) s (fun t => (coreOf 1 t).vr 1 == 0x01FE01FE01FE01FE01FE01FE01FE01FE) = true ∧ after (.vext 1 1 1 3 4) s (fun t => (coreOf 1 t).gr 1 == 0xFFFFFFFFFFFF8003) = true ∧
    after (.vins 1 0 3 5 15) s (fun t => (coreOf 1 t).vr 3 == 0xFEFF0001000280037FF0000000000001) = true ∧ after (.vadd 1 4 1 2 2) s (fun t => (coreOf 1 t).vr 1 == 0x4010000000000000) = true ∧
    after (.vsum 1 3 1 3) s (fun t => (coreOf 1 t).vr 1 == 0x80EF000100028004) = true := by decide +kernel

/-! ### Flumes, Millrace, time and exceptions of the cores -/

/-- Flume 5 enabled with n of its 16 words held (tags as given), at 0x100000, readable and writable for programs at every level. -/
def flumes (tags : List Nat) (s : State) : State :=
  put [(FLM_CTRL_EN, 1), (FLM_CFG_EN 5, 1), (FLM_CFG_PROG 5, 2), (FLM_BASE_ADDR 5, 0x20000)] { s with flm := { s.flm with flumes := [(5, { head := 14, tags := tags })] } }

/-- FlumePush: room for one word at the end of a flume of 16, and no room. -/
theorem witness_FlumePush :
    let s := flumes (List.replicate 14 0) (core [(3, 77)])
    let z := flumes (List.replicate 15 0) (core [(3, 77)])
    FieldExecutes 1 s ∧ flumeGrant 1 5 s = true ∧ (flume 5 s).flushing = false ∧ (flume 5 s).dropping = false ∧ flumeRoom 5 1 s = true ∧ FieldExecutes 1 z ∧ flumeRoom 5 1 z = false ∧
    after (.fpushe 1 1 3 5) s (fun t => (coreOf 1 t).gr 1 == 0 && (flume 5 t).tags == List.replicate 14 0 ++ [1] && loadLe t.mem 0x100060 8 == 77) = true ∧
    after (.fpushwe 1 1 3 5) z (fun t => (coreOf 1 t).wait.isSome && (coreOf 1 t).pc == 0x1000 && flume 5 t == flume 5 z) = true := by decide +kernel

/-- FlumeTake: a word in sight, across the ring's end, and none; the block transfers' range, record and sizes; a wait with room, and one whose millisecond is over. -/
theorem witness_FlumeTake :
    let s := { flumes [0, 0, 1] (core [(3, 0x2000), (4, 16)]) with mem := [(0x100070, 9)] }
    let z := flumes [] (core [])
    FieldExecutes 1 s ∧ flumeGrant 1 5 s = true ∧ inboxFor 1 5 s = none ∧ 0 < flumeVisible 5 s ∧ FieldExecutes 1 z ∧ flumeGrant 1 5 z = true ∧ inboxFor 1 5 z = none ∧ flumeVisible 5 z = 0 ∧
    after (.fpop 1 1 2 5) s (fun t => (coreOf 1 t).gr 1 == 9 && (coreOf 1 t).gr 2 == 0 && (flume 5 t).tags == [0, 1] && (flume 5 t).head == 15) = true ∧
    after (.fpeek 1 1 2 5) z (fun t => (coreOf 1 t).gr 2 == 4) = true ∧ after (.flen 1 1 5) s (fun t => (coreOf 1 t).gr 1 == 3) = true ∧
    (flume 5 s).tags.take 3 = List.replicate 2 0 ++ [1] ∧ rangeCheck 1 ((coreOf 1 s).gr 3).toNat ((coreOf 1 s).gr 4).toNat true s = none ∧
    after (.frecv 1 1 3 4 5) s (fun t => (coreOf 1 t).gr 1 == 0x100000003 && (flume 5 t).tags == [] && loadLe t.mem 0x2000 8 == 9) = true := by decide +kernel

theorem witness_FlumeBlocksAndWaits :
    let s := { flumes [] (core [(3, 0x2000), (4, 2)]) with mem := [(0x2000, 7), (0x2008, 8)] }
    let w : Waiting := { kind := .push true, d := 1, s1 := 3, s2 := 0, flume := 5, since := 5 }
    let z := fun (tags : List Nat) => flumes tags { core [] with ccx := { cores := [(1, { st := .run, pc := 0x1000, wait := some w })] } }
    FieldExecutes 1 s ∧ flumeGrant 1 5 s = true ∧ rangeCheck 1 0x2000 2 false s = none ∧ flumeRoom 5 2 s = true ∧ inboxFor 1 5 s = none ∧
    after (.fsend 1 1 3 4 5) s (fun t => (coreOf 1 t).gr 1 == 0 && (flume 5 t).tags == [0, 1] && loadLe t.mem 0x100070 8 == 7 && loadLe t.mem 0x100078 8 == 8) = true ∧
    awake (z []) = true ∧ (coreOf 1 (z [])).wait = some w ∧ flumeOn 5 (z []) = true ∧ flumeRoom 5 1 (z []) = true ∧
    flumeRoom 5 1 (z (List.replicate 15 0)) = false ∧ 5 + 500000 ≤ (z []).clk.frc ∧
    after (.flumeWaitDone 1) (z []) (fun t => (coreOf 1 t).wait.isNone && (flume 5 t).tags == [1]) = true ∧
    after (.waitTimeout 1) (z (List.replicate 15 0)) (fun t => (coreOf 1 t).gr 1 == 2 && (coreOf 1 t).pc == 0x1004) = true := by decide +kernel

/-- An item in service of operation 7 (graph 0, level 2, every core, entry 0x4000, stack 0x8000 of 16 units of 16 bytes, successor none), number 11, flow 3. -/
def item7 (st : ItemSt) : Item := { num := 11, op := 7, flow := 3, arg := 0xAB, src := .mpost, st := st, inbox := none, core := none, readyAt := 0, held := false, waitLong := false }

/-- Millrace running with operation 7 loaded and item7 under serial 4; core F1 at OP level with it where it is in service. -/
def mill (st : ItemSt) : State :=
  let s := core [(3, 11), (4, 0x30007)]
  let s := put [(MRC_CTRL_EN, 1), (MRC_GRAPH_EN 0, 1), (MRC_DESC 7 0, 0x4000), (MRC_DESC 7 1, 0x8000), (MRC_DESC 7 2, 0x00640010), (MRC_DESC 7 3, 0x0002FFFF)] s
  { s with mrc := { s.mrc with items := [(4, item7 st)], nextSeq := 5, flows := [(3, { holder := some 4 })], ready := (if st = .ready then [(2, [4])] else []) },
           ccx := { s.ccx with cores := [(1, { st := .op, pc := 0xFF00FFF0, g := [(3, 11), (4, 0x30007)], item := (if st = .service then some 4 else none), since := 0 })] } }

/-- MillraceInstructions: an item in service; one number never used; Millrace off; a post that goes through. -/
theorem witness_MillraceInstructions :
    let s := mill .service
    let z := put [(MRC_CTRL_EN, 0)] s
    FieldExecutes 1 s ∧ (coreOf 1 s).item = some 4 ∧ item? 4 s = some (item7 .service) ∧ (∀ x ∈ s.mrc.items, x.2.num ≠ ((coreOf 1 s).gr 4).toNat) ∧ ((coreOf 1 s).gr 4).toNat ∉ s.mrc.done ∧
    itemNum ((coreOf 1 s).gr 3).toNat s = some 4 ∧ on MRC_CTRL_EN z = false ∧ on MRC_CTRL_EN s = true ∧ opLoaded (((coreOf 1 s).gr 4).toNat % 1024) s = true ∧
    ((coreOf 1 s).gr 4).toNat = ((coreOf 1 s).gr 4).toNat % 1024 + ((coreOf 1 s).gr 4).toNat / 65536 % 4096 * 65536 ∧ graphOn (opGraph (((coreOf 1 s).gr 4).toNat % 1024) s) s = true ∧
    rd MRC_RESERVE_RESERVE s < freeItems s ∧
    after (.mdone 1 3) s (fun t => (coreOf 1 t).st == .idle && t.mrc.done == [11] && t.mrc.items == []) = true ∧ after (.mid 1 1) s (fun t => (coreOf 1 t).gr 1 == 0x20070003000B) = true ∧
    after (.marg 1 1) s (fun t => (coreOf 1 t).gr 1 == 0xAB) = true ∧ after (.mcancel 1 1 3) s (fun t => (coreOf 1 t).gr 1 == 1) = true ∧
    after (.mcancel 1 1 4) s (fun t => (coreOf 1 t).gr 1 == 2) = true ∧ after (.mpost 1 1 4 3) z (fun t => (coreOf 1 t).gr 1 == 0xFFFFFFFFFFFFFFFF) = true ∧
    after (.myield 1) s (fun t => (coreOf 1 t).st == .idle && t.mrc.done == []) = true := by decide +kernel

/-- TimeAndEngineReads: instants reached and not, an entry inside its table and the first beyond it. -/
theorem witness_TimeAndEngineReads :
    let s := put [(CLM_CTRL_EN, 1), (CCX_VBASE_HEN, 1), (CCX_VBASE_ADDR, 0x100)] (core [(3, 20000000000), (4, 20000000001), (5, 8191), (6, 8192)])
    let z := put [(CLM_CTRL_EN, 1), (CCX_VBASE_HEN, 1), (CCX_VBASE_ADDR, 0x100)] { mill .ready with ccx := { cores := [(1, { st := .op, pc := 0xFF00FFF0, g := [(6, 8192)] })] } }
    Executes 1 s ∧ ((coreOf 1 s).gr 3).toNat ≤ siteNs s ∧ siteNs s < ((coreOf 1 s).gr 4).toNat ∧ ((coreOf 1 s).gr 5).toNat < erdCount 1 ∧ erdOn 1 s = true ∧
    Executes 1 z ∧ erdCount 1 ≤ ((coreOf 1 z).gr 6).toNat ∧ (coreOf 1 z).st = .op ∧ on CCX_VBASE_HEN z = true ∧
    after (.tsite 1 1) s (fun t => (coreOf 1 t).gr 1 == 20000000000) = true ∧ after (.tct 1 1) s (fun t => (coreOf 1 t).gr 1 == 20000000) = true ∧
    after (.tcyc 1 1 2) s (fun t => (coreOf 1 t).gr 1 == 400 && (coreOf 1 t).gr 2 == 0) = true ∧ after (.twait 1 1 3) s (fun t => (coreOf 1 t).gr 1 == 0 && (coreOf 1 t).pc == 0x1004) = true ∧
    after (.twait 1 1 4) s (fun t => (coreOf 1 t).wait.isSome) = true ∧ after (.erd 1 1 2 5) s (fun t => (coreOf 1 t).vr 2 == 0 && (coreOf 1 t).pc == 0x1004) = true ∧
    after (.erd 1 1 2 6) z (fun t => (coreOf 1 t).ecause == 0x0A && (coreOf 1 t).eaddr == 8192 && (coreOf 1 t).pc == 0x4000) = true := by decide +kernel

/-- TakesException: OP level with and without a handler, RUN level, BRK under debug, and a word that is no instruction. -/
theorem witness_TakesException :
    let s := put [(CCX_VBASE_HEN, 1), (CCX_VBASE_ADDR, 0x100)] (mill .service)
    let z := mill .service
    let r := core []
    let d := put [(KEY_STATUS_DEBUG, 1)] r
    FieldExecutes 1 s ∧ (coreOf 1 s).st = .op ∧ on CCX_VBASE_HEN s = true ∧ debugOn s = false ∧ FieldExecutes 1 z ∧ on CCX_VBASE_HEN z = false ∧ FieldExecutes 1 r ∧ (coreOf 1 r).st = .run ∧
    FieldExecutes 1 d ∧ debugOn d = true ∧ decodeCyent 1 0 = none ∧
    after (.sysc 1 3) s (fun t => (coreOf 1 t).epc == 0xFF00FFF0 && (coreOf 1 t).ecause == 0x0C && (coreOf 1 t).st == .run && (coreOf 1 t).pc == 0x4000 && (coreOf 1 t).gr 3 == 11) = true ∧
    after (.illegal 1 0) z (fun t => (coreOf 1 t).st == .idle && t.mrc.done == [11]) = true ∧ after (.brk 1) r (fun t => (coreOf 1 t).st == .halted) = true ∧
    after (.brk 1) d (fun t => (coreOf 1 t).debug && (coreOf 1 t).pc == 0x1000) = true := by decide +kernel

/-- ReturnAndControl: ERET to OP and to RUN level, a budget used up, a core reset. -/
theorem witness_ReturnAndControl :
    let s := { ready with ccx := { cores := [(1, { st := .run, pc := 0x4000, epc := 0xFFFFFFFC, ecause := 1, estat := 0, g := [(3, 0xFF)] })] } }
    let z := put [(CCX_VBASE_HEN, 1), (CCX_VBASE_ADDR, 0x100)] (mill .service)
    FieldExecutes 1 s ∧ (coreOf 1 s).st = .run ∧ (coreOf 1 s).epc.toNat < 2 ^ 32 ∧ budgetOut 1 s = false ∧ (coreOf 1 z).st = .op ∧ (coreOf 1 z).debug = false ∧ awake z = true ∧ budgetOut 1 z = true ∧
    on CCX_VBASE_HEN z = true ∧
    after (.eret 1) s (fun t => (coreOf 1 t).st == .op && (coreOf 1 t).pc == 0xFFFFFFFC) = true ∧ after (.crr 1 1 0x001) s (fun t => (coreOf 1 t).gr 1 == 1) = true ∧
    after (.crw 1 1 3 0x003) s (fun t => (coreOf 1 t).estat == 1 && (coreOf 1 t).gr 1 == 0) = true ∧ after (.crw 1 1 3 0x010) s (fun t => (coreOf 1 t).fpctl == 0x7F) = true ∧
    after (.crr 1 1 0x030) s (fun t => (coreOf 1 t).gr 1 == 1) = true ∧
    after (.budgetExpiry 1) z (fun t => (coreOf 1 t).ecause == 0x0B && (coreOf 1 t).pc == 0x4000) = true ∧ after (.coreReset 1) s (fun t => (coreOf 1 t).st == .off && (coreOf 1 t).gr 3 == 0) = true := by decide +kernel

/-- RegisterFrame: the three updates it speaks of. -/
theorem witness_RegisterFrame : retire 1 (fun c => c.setGr 5 9) (core []) ≠ core [] ∧ (coreOf 1 (retire 1 (fun c => c.setGr 5 9) (core []))).gr 5 = 9 := by decide +kernel

/-! ### Digital inputs and outputs, events, ledger -/

/-- DIO enabled with its outputs, the lane in PERMIT. -/
def dio : State := put [(DIO_CTRL_EN, 1), (DIO_CTRL_OUT_EN, 1), (STP_STATUS_STATE, 1), (STP_STATUS_PERMIT, 1)] ready

/-- DigitalInputsAndOutputs: the last input and output; lane in PERMIT and not; a pulse at its end and one tick before it. -/
theorem witness_DigitalInputsAndOutputs :
    let s := dio
    let z := put [(STP_STATUS_STATE, 2), (DIO_OUT_OUT, 0x0F), (DIO_OUT_CFG_STOP_STATE 7, 2)] dio
    let q := { put [(DIO_OUT_OUT, 0xFF)] dio with dio := { (put [(DIO_OUT_OUT, 0xFF)] dio).dio with pulse := [(0, 10 ^ 11), (7, 10 ^ 11 + 1)] } }
    dioOn s = true ∧ fbit DIO_IN_FILT 15 s ≠ true ∧ s.pwr.off = false ∧ laneInPermit s = true ∧ laneInPermit z = false ∧ doubleFaulted z = false ∧ stopHeld 0 z = true ∧ stopHeld 7 z = false ∧
    0 < ((List.range 8).filter (fun k => stopHeld k z && bit 0xF0 k != fbit DIO_OUT_OUT k z)).length ∧ tfind 0 q.dio.pulse = some (10 ^ 11) ∧ 10 ^ 11 ≤ q.clk.frc ∧ q.clk.frc < 10 ^ 11 + 1 ∧
    after (.diEdge 15 true) s (fun t => rd DIO_IN_FILT t == 0x8000 && rd DIO_EDGE_RISE t == 0x8000 && rd DIO_EDGE_FALL t == 0) = true ∧
    after (.doWrite 0xA5) s (fun t => rd DIO_OUT_OUT t == 0xA5) = true ∧ after (.doWrite 0xF0) z (fun t => rd DIO_OUT_OUT t == 0x8F && rd DIO_CNT_STOP_REFUSED t == 7) = true ∧
    after (.doPulseEnd 0) q (fun t => rd DIO_OUT_OUT t == 0xFE) = true ∧ after (.doPulseEnd 7) q (fun t => rd DIO_OUT_OUT t == 0xFF) = true := by decide +kernel

/-- OutputMonitors: an output on and driven, its overcurrent cleared, the supply up and low. -/
theorem witness_OutputMonitors :
    let s := put [(DIO_OUT_OUT, 0x80)] dio
    let z := put [(DIO_OUT_STAT_OVERCURRENT, 0x80), (DIO_OUT_STAT_SUPPLY_LOW, 1)] s
    dioOn s = true ∧ outLevel 7 s = true ∧ on DIO_OUT_STAT_SUPPLY_LOW s = false ∧ fbit DIO_OUT_STAT_OVERCURRENT 7 z = true ∧ on DIO_OUT_STAT_SUPPLY_LOW z = true ∧
    after (.doOvercurrent 7) s (fun t => !outLevel 7 t && rd DIO_OUT_OUT t == 0x80 && up DIO_CNT_OVERCURRENT 1 s t) = true ∧ after (.doOvercurrentClear 7) z (fun t => outLevel 7 t) = true ∧
    after (.doOpen 7 true) s (fun t => fbit DIO_OUT_STAT_OPEN 7 t) = true ∧ after .outSupplyLow s (fun t => on DIO_OUT_STAT_SUPPLY_LOW t && up DIO_CNT_SUPPLY_LOW 1 s t) = true ∧
    after .outSupplyReturn z (fun t => !on DIO_OUT_STAT_SUPPLY_LOW t) = true := by decide +kernel

/-- EVT enabled. -/
def evt : State := put [(EVT_CTRL_EN, 1)] ready

/-- EventsAndSteward: an event of the highest number, the watchdog's 100 ms reached and a tick short, a first and a second error. -/
theorem witness_EventsAndSteward :
    let s := evt
    let z := { evt with evt := { evt.evt with kickAt := 10 ^ 11 - 49999999 } }
    let h := put [(EVT_DFAULT_HANDLING, 1)] evt
    on EVT_CTRL_EN s = true ∧ bit 0x80 7 = true ∧ Settled s ∧ Settled z ∧ z.clk.frc < z.evt.kickAt + 50000000 ∧ s.evt.kickAt + 50000000 ≤ s.clk.frc ∧ stewardUp s = true ∧ on EVT_DFAULT_HANDLING s = false ∧
    stewardUp h = true ∧ on EVT_DFAULT_HANDLING h = true ∧ doubleFaulted h = false ∧
    after (.softwareEvent 0x80) s (fun t => bit (rd (EVT_PEND 7) t) 31) = true ∧ after (.stewardError 0x1E05 7) s (fun t => on EVT_DFAULT_HANDLING t && !on EVT_DFAULT_DFAULT t) = true ∧
    after (.stewardError 0x1E05 7) h (fun t => on EVT_DFAULT_DFAULT t && rd EVT_DFAULT_CAUSE t == 0x1E05 && lane t == 4 && (coreOf 16 t).st == .halted) = true ∧
    after (.watchdogKick 16 0x5A5A) s (fun t => t.evt.kickAt == 10 ^ 11) = true ∧ after (.watchdogKick 16 0x5A5B) s (fun t => t.evt.kickAt == 0) = true ∧
    after .stewardWatchdogExpiry s (fun t => on EVT_DFAULT_HANDLING t && t.evt.kickAt == 10 ^ 11) = true ∧ after (.evtClearErr 30) s (fun t => rd EVT_CMD_RES_CMD t == 1 && rd EVT_CMD_RES_STATUS t == 0) = true := by decide +kernel

/-- A staged record. -/
def rec (n cls : Nat) : LRec := { seq := n, site := 0, cls := cls, kind := 6, source := 0x281, error := 0, rep := 1, last := 0, cycle := 0, data := [], stagedAt := 0 }

/-- LedgerRecordsAndArchive: a program record of class ALARM whole in its flume; a page due, and alarms staged. -/
theorem witness_LedgerRecordsAndArchive :
    let ws : List Word := [0x00000000_0081_00_03, 0x1122334455667788, 0, 0]
    let s0 := flumes [0, 0, 0, 1] ready
    let s := put [(EVT_CTRL_EN, 1), (EVT_CTRL_PROG_EN, 1), (EVT_CTRL_PROG_FLUME, 5)] { s0 with mem := setBytes [] 0x100070 ((ws.take 2).flatMap (fun w => leBytes 8 w.toNat)) }
    let u := (engineTake 5 { s with out := [] }).2
    let a := { put [(EVT_CTRL_PAGE_MS, 100)] evt with evt := { (put [(EVT_CTRL_PAGE_MS, 100)] evt).evt with staged := (List.range 32).map (fun n => rec n 1), pageAt := 10 ^ 11 - 50000000 } }
    let b := { evt with evt := { evt.evt with staged := [rec 0 1, rec 1 3, rec 2 3], alarmDone := [1] } }
    on EVT_CTRL_EN s = true ∧ on EVT_CTRL_PROG_EN s = true ∧ awake s = true ∧ engineTake (rd EVT_CTRL_PROG_FLUME s) { s with out := [] } = (some (ws, true), u) ∧ u.notes = [] ∧ u.evt.staged = s.evt.staged ∧
    progRecOk (bytesOf ws) true = true ∧ leAt (bytesOf ws) 0 1 = 3 ∧
    stewardUp a = true ∧ (genNext a).length = 32 ∧ a.evt.pageAt + 500000 * max 1 (rd EVT_CTRL_PAGE_MS a) ≤ a.clk.frc ∧ a.nv.genRing.length < 64 * genBlocks a ∧
    stewardUp b = true ∧ ((b.evt.staged.filter (fun r => r.cls == 3 && !b.evt.alarmDone.contains r.seq)).take 32).map (fun r => r.seq) = [2] ∧
    after .progLedgerRecord s (fun t => t.evt.staged.any (fun r => r.cls == 3 && r.source == 0x281 && r.error == 0x1E81 && leAt r.data 0 8 == 0x1122334455667788)) = true ∧
    after (.archivePageWrite true) a (fun t => t.nv.genRing.length == 1) = true ∧ after (.archivePageWrite false) a (fun t => t.nv.genRing.length == 0) = true ∧
    after (.alarmArchive true) b (fun t => t.nv.alarmRing == [[rec 2 3]]) = true := by decide +kernel

/-! ### Axes, channels, CAN, serial ports -/

/-- Axis 7 in state st at 160 steps, AXS enabled, lane in PERMIT, its channel open, homing mode 3 (limit B); inputs 14 and 15 closed since instant x but those listed open. -/
def axisIn (st x : Nat) (opened : List Nat) : State :=
  let s := put [(AXS_CTRL_EN, 1), (STP_STATUS_STATE, 1), (STP_STATUS_PERMIT, 1), (AXS_CFG_HOME_MODE 7, 3), (AXS_STAT_STATE 7, st), (AXS_POS 7, 10)] ready
  { s with pro := { s.pro with chans := [(263, { mode := .idle, reach := some 0, st := 10 * pulseUnits 7 s, v := (if st = 2 then 1 else 0) })] },
           axs := { s.axs with inp := [14, 15].map (fun i => (i, { closed := !opened.contains i, since := x })) } }

/-- AxisCommands: each state the statement speaks of, no limit waiting to trip. -/
theorem witness_AxisCommands :
    let s := fun st => axisIn st 0 []
    AxisFree 7 (s 0) ∧ AxisFree 7 (s 1) ∧ AxisFree 7 (s 2) ∧ AxisFree 7 (s 5) ∧ AxisFree 7 (s 6) ∧ homeRef 7 (s 1) ≠ none ∧ axisSt 7 (s 1) = 1 ∧ latchAhead 7 (s 1) = false ∧
    axisSt 7 (s 6) = 6 ∧ qualified 14 (s 6) = false ∧ qualified 15 (s 6) = false ∧ axisSt 7 (s 5) = 5 ∧ quiet 14 (s 5) = true ∧ quiet 15 (s 5) = true ∧
    after (.home 7) (s 1) (fun t => axisSt 7 t == 2 && (axis 7 t).home.isSome) = true ∧ after (.home 7) (s 0) (res 22 0 0x10 1 4 0x1608) = true ∧
    after (.setPos 7) (s 1) (fun t => axisSt 7 t == 3 && rd (AXS_POS 7) t == 0 && res 22 0 0x10 2 0 0 t) = true ∧
    after (.clearFault 7) (s 6) (fun t => axisSt 7 t == 1 && res 22 0 0x10 3 0 0 t) = true ∧ after (.clearFault 7) (s 5) (fun t => axisSt 7 t == 1) = true ∧
    after (.abortHome 7) (s 2) (fun t => axisSt 7 t == 1 && rd (AXS_STAT_CAUSE 7) t == 7 && up AXS_CNT_HOME_FAIL 1 (s 2) t) = true := by decide +kernel

/-- AxisInputsAndTick: QUAL just over, a limit clear by its distance, eleven transitions in the window, a homing under way, a tick with a pulse due. -/
theorem witness_AxisInputsAndTick :
    let q := 10 ^ 11 - 20 * 50000
    let s := axisIn 3 q [15]
    let c := put [(AXS_STAT_LATCH_B 7, 1), (AXS_INPUTS_LIMIT, 0x8000), (AXS_TRIP 7, 0x1A0)] (axisIn 4 q [])
    let z := axisIn 3 q []
    let x := { z with axs := { z.axs with inp := [(15, { closed := true, since := 0, trans := List.replicate 11 (10 ^ 11) })] } }
    let h0 := axisIn 2 q [15]
    let h := { h0 with axs := { h0.axs with axes := [(7, { home := some { stage := 1 } })] } }
    let p := put [(AXS_POS 7, 9)] (axisIn 3 0 [])
    axsOn s = true ∧ settled 15 s = some true ∧ qualified 15 s = false ∧ qualified 14 s = false ∧ settled 15 (axisIn 3 (q + 1) [15]) = none ∧
    axisSt 7 c = 4 ∧ on (latchBit 15) c = true ∧ on (latchBit 14) c = false ∧ quiet 15 c = true ∧ isClear 15 c = true ∧
    rd AXS_CHAT_CHAT_MAX x < (recentTrans { closed := true, since := 0, trans := List.replicate 11 (10 ^ 11) } x).length ∧
    axisSt 7 h = 2 ∧ homeRef 7 h = some 15 ∧ settled 15 h = some true ∧ qualified 15 h = false ∧ (axis 7 h).home = some { stage := 1 } ∧ axisAtRest 7 h = false ∧
    on PRO_CTRL_EN p = false ∧ pulsesAt 7 (10 * pulseUnits 7 p) p = 10 ∧ rdS (AXS_POS 7) p = 9 ∧ (axis 7 p).dirLow = decide ((9 : Int) < 10) ∧ rd (AXS_TIMING_DIR_SETUP 7) p ≤ min 1000 ((axis 7 p).sinceDir + 10) ∧
    after (.limitTrip 7 1) s (fun t => axisSt 7 t == 4 && on (AXS_STAT_LATCH_B 7) t && (chan? 263 t).any (fun c => c.mode == .stop)) = true ∧
    after (.limitClear 7 1) c (fun t => axisSt 7 t == 3 && !on (AXS_STAT_LATCH_B 7) t) = true ∧ after (.limitChatter 7 1) x (fun t => axisSt 7 t == 5 && rd (AXS_STAT_CAUSE 7) t == 2) = true ∧
    after (.homeReference 7) h (fun t => (axis 7 t).home == some { stage := 1, ramp := true, cap := 0 }) = true ∧
    after (.axisTick 0x8000) p (fun t => rd (AXS_POS 7) t == 10 && (axis 7 t).sincePulse == 0) = true ∧ Settled (put [(AXS_CTRL_EN, 0)] s) ∧ axsOn (put [(AXS_CTRL_EN, 0)] s) = false := by decide +kernel

/-- A claim of module 0, fleet index 5, on reach 9 from 0 to 1600 sixteenths. -/
def claim5 : Claim := { ford := false, id := 9, dir := 0, st := .granted, open_ := true, stranded := false, from_ := 0, to_ := 1600, enter := 0, leave := 0xFFFFFFFF, owner := 5, tag := 7, next := none, echo := none, cause := none }

/-- PRO enabled in Run with flume 5 for loads, channel 5 open for a member at rest at station 0 of reach 9. -/
def loads (ws : List Word) (c : Chan) : State :=
  let z := put [(PRO_CTRL_EN, 1), (PRO_FLUME_LOAD, 5), (PWR_STATUS_STATE, 2), (STP_STATUS_STATE, 1), (STP_STATUS_PERMIT, 1)] (flumes (List.replicate (ws.length - 1) 0 ++ [1]) ready)
  { z with mem := setBytes [] 0x100070 ((ws.take 2).flatMap (fun w => leBytes 8 w.toNat)) |> fun m => setBytes m 0x100000 ((ws.drop 2).flatMap (fun w => leBytes 8 w.toNat)),
           pro := { z.pro with chans := [(5, c)] }, clm := { z.clm with claims := [(3, claim5)], paths := [(5, [3])] },
           air := { z.air with idx := [(5, { st := .member, eui := List.replicate 8 0 })] } }

/-- A load record's first two words: operation, number of segments, channel 5, TAG 7, ARG. -/
def loadHead (op n arg : Nat) : List Word := [BitVec.ofNat 64 (op + 256 * n + 0x50000 + 7 * 2 ^ 32), BitVec.ofNat 64 arg]

/-- MachineChannels: an APPEND that passes, CLEAR at rest, HALT, RESUME of a held member; a channel in STOP that moves; a fence that overlaps a body and one that ends just before it. -/
theorem witness_MachineChannels :
    let c : Chan := { reach := some 9 }
    let seg : List Word := [0x00000000_00000009, 0x00000000_00000640, 0x00000000_00000000, 0x00000000_00000003]
    let take := fun (s : State) => engineTake 5 { s with out := [] }
    let ok := fun (s : State) (op : Nat) => match take s with
      | (some (ws, w), u) => let l := loadOf ws w; l.ok && l.op == op && l.chn == 5 && (enginePeek 5 { s with out := [] }).any (fun w => w.toNat % 256 == op) && (chan? 5 u).isSome
      | _ => false
    let a := loads (loadHead 1 1 0 ++ seg) c
    let h := { c with mode := .hold, hpl := 0xFFFF }
    let m : Chan := { reach := some 9, mode := .stop, v := 10 ^ 9, aUse := 300, dUse := 500, jUse := 1000, dsUse := 1000, jsUse := 2000 }
    let t0 := loads [] m
    let t1 := { t0 with flm := {} }
    on PRO_CTRL_EN a = true ∧ awake a = true ∧ ok a 1 = true ∧ ok (loads (loadHead 2 0 0) c) 2 = true ∧ ok (loads (loadHead 3 0 1) c) 3 = true ∧ ok (loads (loadHead 4 0 0) h) 4 = true ∧
    appendCause 5 c (match take a with | (some (ws, w), _) => (loadOf ws w).segs | _ => []) (count PRO_CNT_LOAD 1 (take a).2) = 0 ∧ stopLatched (take (loads (loadHead 4 0 0) h)).2 = false ∧
    isMember 5 (take (loads (loadHead 4 0 0) h)).2 = true ∧ proOn t1 = true ∧ t1.held = [] ∧ t1.pro.chans.filter (fun p => p.1 == 5) = [(5, m)] ∧ regLimits 5 t1 = (m.aUse, m.dUse, m.jUse, m.dsUse, m.jsUse) ∧
    after .proAppend a (fun t => (chan? 5 t).any (fun d => d.queue.length == 1)) = true ∧ after .proClear (loads (loadHead 2 0 0) c) (fun t => (chan? 5 t).any (fun d => d.queue == [])) = true ∧
    after .proHalt (loads (loadHead 3 0 1) c) (fun t => (chan? 5 t).any (fun d => d.mode == .stop)) = true ∧ after .proResume (loads (loadHead 4 0 0) h) (fun t => (chan? 5 t).any (fun d => d.mode == .run)) = true ∧
    after .proTick t1 (fun t => (chan? 5 t).any (fun d => decide (d.v < m.v) && d.mode == .stop)) = true ∧
    after (.fenceEnable 63) (put [(PRO_FENCE_CTRL_REACH 63, 9)] a) (fun t => (chan? 5 t).any (fun d => d.mode == .hold)) = true ∧
    after (.fenceEnable 63) (put [(PRO_FENCE_CTRL_REACH 63, 9), (PRO_FENCE_FROM 63, 1), (PRO_FENCE_TO 63, 2)] a) (fun t => (chan? 5 t).any (fun d => d.mode == .idle)) = true := by decide +kernel

/-- CAN port 1 in a mode, enabled or not. -/
def can (en mode : Nat) (l : List (Fld × Nat)) : State := put ([(CAN_CTRL_EN 1, en), (CAN_STATUS_MODE 1, mode)] ++ l) ready

/-- CanModes: timing in range and not, each mode, recovery under way and not. -/
theorem witness_CanModes :
    let r := { can 1 5 [] with can := { (can 1 5 []).can with ports := [(1, { recovering := true })] } }
    timingOk 1 (can 0 0 []) = true ∧ timingOk 1 (can 0 0 [(CAN_NBT_BRP 1, 0), (CAN_NBT_TSEG2 1, 0)]) = false ∧ on (CAN_CTRL_EN 1) (can 0 0 []) = false ∧ (canPort 1 (can 1 5 [])).recovering = false ∧
    (canPort 1 r).recovering = true ∧ rd (CAN_CTRL_WAKE_MODE 1) (can 1 4 []) = 1 ∧
    after (.canEnable 1) (can 0 0 [(CAN_CTRL_REQ_MODE 1, 2)]) (fun t => canMode 1 t == 3) = true ∧ after (.canEnable 1) (can 0 0 [(CAN_NBT_BRP 1, 0), (CAN_NBT_TSEG2 1, 0)]) (fun t => canMode 1 t == 0 && !on (CAN_CTRL_EN 1) t) = true ∧
    after (.canDisable 1 true) (can 1 1 [(CAN_MB_CTRL_PEND 1 63, 1)]) (fun t => canMode 1 t == 0 && !on (CAN_MB_CTRL_PEND 1 63) t) = true ∧ after (.canSleep 1) (can 1 1 []) (fun t => canMode 1 t == 4) = true ∧
    after (.canWake 1 0 [] true false) (can 1 4 [(CAN_CTRL_SLEEP 1, 1)]) (fun t => canMode 1 t == 1) = true ∧ after (.recover 1) (can 1 5 []) (fun t => (canPort 1 t).recovering) = true ∧
    after (.recover 1) (can 1 1 []) (res 18 1 0x14 1 4 0x13F4) = true ∧ after (.busOffRecovery 1) r (fun t => canMode 1 t == 1) = true ∧ after (.rateDwell 1) (can 1 3 []) (fun t => (canPort 1 t).cand == 1) = true := by decide +kernel

/-- CanFrames: the last mailbox, pending and not, FD allowed and not; a frame with and without a filter. -/
theorem witness_CanFrames :
    let s := can 1 1 [(CAN_MB_CTRL_FDF 1 63, 1)]
    let z := can 1 1 [(CAN_MB_CTRL_FDF 1 63, 1), (CAN_CTRL_FD_EN 1, 0)]
    let p := can 1 1 [(CAN_MB_CTRL_PEND 1 63, 1), (CAN_MB_CTRL_DLC 1 63, 1), (CAN_MB_DATA 1 63 0, 0xAB), (CAN_MB_ID_ID 1 63, 0x123)]
    let f0 := can 1 1 [(CAN_FLT_CTRL_EN 1 127, 1), (CAN_FLT_ID 1 127, 0x123), (CAN_FLT_MASK 1 127, 0x7FF), (CAN_FLUME_RXA 1, 5)]
    let f := { flumes [] f0 with clk := { frc := 0 } }
    on (CAN_MB_CTRL_PEND 1 63) s = false ∧ on (CAN_MB_CTRL_FDF 1 63) s = true ∧ on (CAN_CTRL_FD_EN 1) s = true ∧ on (CAN_CTRL_FD_EN 1) z = false ∧ on (CAN_MB_CTRL_PEND 1 63) p = true ∧ mbOffer 1 p = some 63 ∧
    canUp 1 p = true ∧ canMode 1 p = 1 ∧ (canPort 1 p).express = [] ∧ on (CAN_MB_CTRL_ABORT 1 63) p = false ∧ awake f = true ∧ (List.range 128).find? (fun k => fltAccepts 1 k 0x123 f) = some 127 ∧
    rd (CAN_FLT_CTRL_ACTION 1 127) f = 0 ∧ f.clk.siteSet = false ∧ (List.range 128).all (fun k => !fltAccepts 1 k 0x124 f) = true ∧
    after (.mailboxPend 1 63) s (fun t => on (CAN_MB_CTRL_PEND 1 63) t) = true ∧ after (.mailboxPend 1 63) z (fun t => rd (CAN_MB_CTRL_STATUS 1 63) t == 4) = true ∧
    after (.mailboxAbort 1 63 false) p (fun t => rd (CAN_MB_CTRL_STATUS 1 63) t == 2) = true ∧ after (.mailboxAbort 1 63 true) p (fun t => on (CAN_MB_CTRL_PEND 1 63) t && on (CAN_MB_CTRL_ABORT 1 63) t) = true ∧
    after (.mailboxEnd 1 0) p (fun t => t.out == [.can 1 0x123 false [0xAB]] && up (CAN_CNT_TX_OK 1) 1 p t) = true ∧ after (.mailboxEnd 1 2) p (fun t => tecOf 1 t == 8 && on (CAN_MB_CTRL_PEND 1 63) t) = true ∧
    after (.canFrameRx 1 0x123 0 [0xAB] false 0) f (fun t => (flume 5 t).tags == [0, 0, 1] && byteAt t.mem 0x100000 == 0xAB && leAt (bytesAt t.mem 0x100070 8) 4 3 == 0x17F00) = true ∧
    after (.canFrameRx 1 0x124 0 [0xAB] false 0) f (fun t => up (CAN_CNT_RX_UNMATCHED 1) 1 f t && (flume 5 t).tags == []) = true := by decide +kernel

/-- SerialPorts: a frame of the longest length; a transmit record whole in its flume; one waiting, with and without CRC. -/
theorem witness_SerialPorts :
    let s0 := put [(SER_CTRL_EN 1, 1), (SER_CTRL_RX_EN 1, 1), (SER_CTRL_TX_EN 1, 1), (SER_FLUME_TX 1, 5), (SER_FLUME_RX 1, 5), (SER_FRAME_MAX_LEN 1, 3)] ready
    let s := { flumes [] s0 with clk := {} }
    let q := { flumes [0, 1] s0 with mem := setBytes [] 0x100070 (leBytes 8 3 ++ leBytes 8 0x030201) }
    let u := (engineTake 5 { q with out := [] }).2
    let w := { put [(SER_CTRL_CRC 1, 1)] s0 with ser := { (put [(SER_CTRL_CRC 1, 1)] s0).ser with wait := [(1, [1, 2])] } }
    serOn 1 s = true ∧ [1, 2, 3].length ≤ serMax 1 s ∧ s.clk.siteSet = false ∧ tfind 1 q.ser.wait = none ∧ engineTake (rd (SER_FLUME_TX 1) q) { q with out := [] } = (some ([3, 0x030201], true), u) ∧ u.ser = q.ser ∧
    leAt (bytesOf [3, 0x030201]) 0 2 ≤ serMax 1 q ∧ tfind 1 w.ser.wait = some [1, 2] ∧ on (SER_CTRL_TX_EN 1) w = true ∧
    after (.serFrameRx 1 [1, 2, 3] 0 0) s (fun t => up (SER_CNT_RX_OK 1) 1 s t && (flume 5 t).tags == [0, 1] && loadLe t.mem 0x100070 8 == 3 && loadLe t.mem 0x100078 8 == 0x030201) = true ∧
    after (.serFrameRx 1 [1, 2, 3] 1 0) s (fun t => up (SER_CNT_PARITY 1) 1 s t && loadLe t.mem 0x100070 8 == 0x01010003) = true ∧
    after (.serTxRecord 1) q (fun t => tfind 1 t.ser.wait == some [1, 2, 3]) = true ∧
    after (.serTxStart 1) w (fun t => t.out == [.ser 1 [1, 2, 0x81, 0xE1]] && tfind 1 t.ser.wait == none) = true := by decide +kernel

/-! ### Ethernet and network time -/

/-- Port 2 enabled with a link at 100 Mbit/s, receiving and sending, its pool at 0x200000. -/
def eth (l : List (Fld × Nat)) : State :=
  put ([(ETH_CTRL_EN 2, 1), (ETH_CTRL_RX_EN 2, 1), (ETH_CTRL_TX_EN 2, 1), (ETH_CTRL_PROMISC 2, 1), (ETH_STATUS_LINK 2, 1), (ETH_STATUS_SPEED 2, 2), (ETH_POOL_MIB 2, 1), (ETH_POOL_ADDR 2, 2),
    (ETH_POOL_MIB 0, 1), (ETH_POOL_ADDR 0, 2), (ETH_RING_CTRL_EN 2 1, 1), (ETH_RING_BASE_ADDR 2 1, 0x10000), (ETH_RX_MAP_RING 2, 1)] ++ l) ready

/-- A frame of 64 bytes with its check sequence: 60 zeros but EtherType 0x0800. -/
def frame64 : List Byte := let f := List.replicate 12 0 ++ [0x08, 0x00] ++ List.replicate 46 0; f ++ leBytes 4 (crc32 f)

/-- EthernetReceive: a runt of 63 bytes, the shortest frame, the ring enabled and not, cells to return, a stamp queue with one entry and none. -/
theorem witness_EthernetReceive :
    let s := eth []
    let f := frame64.take 60
    let r := { s with eth := { s.eth with rings := [(9, { cells := [4, 5] })], used := [4, 5], ports := [(2, { stamps := [{ queue := 7, seq := 65535, tag := 9, port := 11, site := 12 }] })] } }
    ethOn 2 s = true ∧ on (ETH_CTRL_RX_EN 2) s = true ∧ on (ETH_STATUS_LINK 2) s = true ∧ s.held = [] ∧ (frame64.take 63).length < 64 ∧ 64 ≤ frame64.length ∧ frame64.length ≤ 1522 ∧ crc32 f = leAt frame64 60 4 ∧
    ofBe (slice frame64 12 2) ≠ 0x8808 ∧ ofBe (slice frame64 12 2) ≠ 0x8100 ∧ addrPasses 2 (frame64.take 6) s = true ∧ forPtc 2 f s = false ∧
    bits (rd (ETH_RX_MAP_RING 2) s) (2 * rd (ETH_CTRL_DEFAULT_PCP 2) s) 2 = 1 ∧ on (ETH_RING_CTRL_EN 2 1) s = true ∧ (pieces 8 f).length ≤ ringReady 2 1 s ∧ (pieces 8 f).length ≤ poolFree s ∧
    on (ETH_RING_CTRL_EN 2 1) (eth [(ETH_RING_CTRL_EN 2 1, 0)]) = false ∧
    after (.ethFrameRx 2 (frame64.take 63) 0 0 0) s (fun t => ethCnt 2 12 t == 1 && t.eth.used == []) = true ∧
    after (.ethFrameRx 2 frame64 0 0 0) (eth [(ETH_RING_CTRL_EN 2 1, 0)]) (fun t => ethCnt 2 14 t == 1 && t.eth.used == []) = true ∧
    after (.ringReturn 2 1 1) r (fun t => (ring 2 1 t).cells == [5] && t.eth.used == [5]) = true ∧
    after (.tsqPop 2) r (fun t => on (ETH_TSQ_0_VALID 2) t && rd (ETH_TSQ_0_SEQ 2) t == 65535 && rd (ETH_TSQ 2 1) t == 11 && rd (ETH_TSQ 2 3) t == 12) = true ∧
    after (.tsqPop 2) s (fun t => !on (ETH_TSQ_0_VALID 2) t) = true := by decide +kernel

/-- The check sequence of "123456789" (the reflected polynomial of IEEE 802.3; R359). -/
theorem test_crc32 : crc32 ((List.range 9).map (fun i => BitVec.ofNat 8 (0x31 + i))) = 0xCBF43926 := by decide +kernel

/-- Queue 7 of port 2 with one frame of 60 bytes in descriptor 3, the last of a ring of four, kicked or not. -/
def txq (kicked : Bool) (w : Option OnWire) : State :=
  let s := eth [(ETH_TXQ_CTRL_EN 2 7, 1), (ETH_TXQ_BASE_ADDR 2 7, 0x100), (ETH_TXQ_STATUS_HEAD 2 7, 3)]
  { s with mem := setBytes [] 0x1030 (leBytes 4 0x2000 ++ leBytes 2 60 ++ leBytes 2 3 ++ leBytes 4 0x77 ++ leBytes 4 0), eth := { s.eth with ports := [(2, { kicked := (if kicked then [7] else []), wire := w })] } }

/-- EthernetTransmit: a queue to kick, its frame to start, one on the wire, a queue empty and with one frame. -/
theorem witness_EthernetTransmit :
    let s := txq true none
    let w : OnWire := { queue := 7, descs := [3], tag := 0x77, err := 0, stamp := some 5, lost := false }
    ethOn 2 s = true ∧ ErrorFree s ∧ s.held = [] ∧ on (ETH_TXQ_CTRL_EN 2 7) s = true ∧ on (ETH_CTRL_TX_EN 2) s = true ∧ (ethPort 2 s).wire = none ∧ headFrame 2 7 s ≠ [] ∧ chainOk (headFrame 2 7 s) = true ∧
    gateFit 2 7 (chainLen (headFrame 2 7 s)) s = 0 ∧ (ethPort 2 (txq true (some w))).wire = some w ∧ on (ETH_TXQ_CTRL_NOTE_EN 2 7) s = false ∧ headFrame 2 7 (txq false none) = [] ∧
    (headFrame 2 7 s).map Prod.fst = [3] ∧ (List.range 3).all (fun j => !descOwn (bytesAt s.mem (descAddr 2 7 j s) 16)) = true ∧
    after (.txqKick 2 7) (txq false none) (fun t => (ethPort 2 t).kicked == [7]) = true ∧
    after (.ethFrameTx 2) s (fun t => (ethPort 2 t).wire.any (fun w => w.descs == [3] && w.tag == 0x77) && rd (ETH_TXQ_STATUS_HEAD 2 7) t == 0 && ethCnt 2 25 t == 1) = true ∧
    after (.ethTxWriteback 2 0 0 0) (txq true (some w)) (fun t => bytesAt t.mem 0x1030 6 == [0, 2, 0, 0, 5, 0] && leAt (bytesAt t.mem 0x1030 16) 8 4 == 0x77 && (ethPort 2 t).wire.isNone) = true ∧
    after (.flushTxq 2 7) (txq false none) (res 13 2 0x2C 3 0 0) = true ∧ after (.flushTxq 2 7) s (fun t => res 13 2 0x2C 3 0 0 t && ethCnt 2 42 t == 1 && leAt (bytesAt t.mem 0x1030 16) 2 2 == 0x0F05) = true := by decide +kernel

/-- EthernetLinksAndGates: a link to gain and to lose, a verification under way, a gate list to arm, an armed one at its instant, E3 as follower and fallen back. -/
theorem witness_EthernetLinksAndGates :
    let s := eth []
    let v := eth [(ETH_STATUS_VERIFY 2, 2)]
    let g := eth [(ETH_GCL_CTRL_LEN 2, 1), (ETH_GCL_CYCLE 2, 1000), (ETH_GCL_INTERVAL 2 1 0, 125)]
    let x : Gate := { base := 0, cycle := 1000, len := 1, port := false }
    let a := { s with eth := { s.eth with ports := [(2, { armed := some (x, 20000000000) })] } }
    let e3 := fun n => put [(ETH_CTRL_EN 3, 1), (ETH_STATUS_PLCA 3, n)] ready
    ethOn 2 s = true ∧ on (ETH_STATUS_LINK 2) s = true ∧ on (ETH_PREEMPT_EN 2) s = true ∧ rd (ETH_STATUS_VERIFY 2) v = 2 ∧ rd (ETH_GCL_CTRL_LEN 2) s = 0 ∧ (0 : Nat) < min 256 (rd (ETH_GCL_CTRL_LEN 2) g) ∧
    1000 ≤ rd (ETH_GCL_CYCLE 2) g ∧ entryNs 2 (1 - rd (ETH_GCL_CTRL_OPER 2) g) 0 g ≠ 0 ∧ (ethPort 2 a).armed = some (x, 20000000000) ∧ ((20000000000 : Nat) : Int) ≤ gateTime x.port a ∧ ethOn 3 (e3 2) = true ∧
    rd (ETH_STATUS_PLCA 3) (e3 2) = 2 ∧ rd (ETH_STATUS_PLCA 3) (e3 3) = 3 ∧
    after (.linkChange 2 true false 3) s (fun t => rd (ETH_STATUS_SPEED 2) t == 3) = true ∧ after (.linkChange 2 false false 0) s (fun t => !on (ETH_STATUS_LINK 2) t && ethCnt 2 43 t == 1) = true ∧
    after (.linkChange 2 true true 2) s (fun t => ethCnt 2 43 t == 1 && on (ETH_STATUS_LINK 2) t) = true ∧ after (.restartAn 2) s (fun t => !on (ETH_STATUS_LINK 2) t && res 13 2 0x2C 1 0 0 t) = true ∧
    after (.restartAn 3) (e3 2) (res 13 3 0x2C 1 4 0x10F4) = true ∧ after (.ethVerify 2) s (fun t => rd (ETH_STATUS_VERIFY 2) t == 2) = true ∧
    after (.verifyComplete 2 true) v (fun t => rd (ETH_STATUS_VERIFY 2) t == 3 && on (ETH_STATUS_PREEMPT 2) t) = true ∧ after (.gclSwitch 2) s (res 13 2 0x2C 4 4 0x0F09) = true ∧
    after (.gclSwitch 2) g (fun t => (ethPort 2 t).armed == some (x, 20000001000)) = true ∧ after (.gclChange 2) a (fun t => (ethPort 2 t).gate == some x && rd (ETH_GCL_CTRL_OPER 2) t == 1) = true ∧
    after .plcaBeaconLost (e3 2) (fun t => rd (ETH_STATUS_PLCA 3) t == 3) = true ∧ after .plcaBeaconReturn (e3 3) (fun t => rd (ETH_STATUS_PLCA 3) t == 2) = true := by decide +kernel

/-- PTC on port 2 in a state, with a foreign master whose last Sync came at FRC 10^11 - 3 * 62,500,000. -/
def ptc (st : Nat) : State :=
  let s := eth [(PTC_CTRL_EN, 1), (PTC_CTRL_PORT_EN, 4), (PTC_STATUS_PORT_STATE, st * 256), (PTC_CTRL_ONE_STEP, 1), (PTC_STEP_LO, 0xFFFFFFFF), (PTC_STEP_HI, 0xFFFFFFFF)]
  { s with ptc := { s.ptc with ports := (if st = 4 ∨ st = 5 then [(2, { foreign := some { ds := [1, 2, 3, 4, 5, 6], steps := 0, sender := 0x99, at_ := 0 }, sync := 10 ^ 11 - 187500000, seqs := 65535 })] else []) } }

/-- A two-step Sync of sender 0x99, sequence 7. -/
def sync7 : List Byte := [0x00, 0x02, 0x00, 0x2C, 0x00, 0x00, 0x02, 0x00] ++ List.replicate 12 0 ++ List.replicate 9 0 ++ [0x99] ++ [0x00, 0x07, 0x00, 0x00] ++ List.replicate 10 0

/-- NetworkTime: a malformed message, a two-step Sync, a MASTER, a SLAVE with three intervals over, a step of minus one, no foreign master. -/
theorem witness_NetworkTime :
    let s := ptc 5
    let m := ptc 2
    ptcOn s = true ∧ ptcUses 2 s = true ∧ ethOn 2 s = true ∧ msgOk [1, 2, 3] = false ∧ msgOk sync7 = true ∧ leAt sync7 4 1 = rd PTC_CTRL_DOMAIN s ∧ msgType sync7 = 0 ∧ twoStepFlag sync7 = true ∧
    (ptpPort 2 s).foreign.map (fun f => f.sender) = some (msgSender sync7) ∧ ptpState 2 s = 5 ∧ on (ETH_STATUS_LINK 2) s = true ∧ peerDelay s = false ∧ ptpState 2 m = 2 ∧ on PTC_CTRL_ONE_STEP m = true ∧ slavePort s = some 2 ∧
    3 * logTicks (rd PTC_INTERVAL_LOG_SYNC s) ≤ s.clk.frc - (ptpPort 2 s).sync ∧ slavePort m = none ∧ awake m = true ∧ (List.range 4).all (fun p => (ptpPort p m).foreign.isNone) = true ∧ m.clk.siteSet = true ∧
    after (.ptpMessage 2 [1, 2, 3] 0) s (fun t => up PTC_CNT_MSG_BAD 1 s t) = true ∧ after (.ptpMessage 2 sync7 0) s (fun t => ((ptpPort 2 t).twoStep.map (fun x => x.1)) == some 7) = true ∧
    after (.ptpMessageTx 2 0) m (fun t => up PTC_CNT_SYNC_TX 1 m t && (ptpPort 2 t).seqs == 1) = true ∧ after (.ptpMessageTx 2 2) s (fun t => (ptpPort 2 t).seqs == 0 && (ptpPort 2 t).req.isSome) = true ∧
    after .masterLost s (fun t => (ptpPort 2 t).foreign.isNone && up PTC_CNT_MASTER_LOST 1 s t) = true ∧ after .stepPort m (fun t => t.clk.portOfs == -(2 ^ 32)) = true ∧ after .stepPort s (res 17 0 0x4C 1 4 0x1107) = true ∧
    after .reselect m (res 17 0 0x4C 2 0 0) = true ∧ after .ppsOut m (fun t => t.out == [.pps 20000000000]) = true ∧
    after (.ppsinEdge 100) m (fun t => rd PTC_PPSIN_CNT t == 1 && rd PTC_PPSIN_LO t == (20000000000 - 100) % 2 ^ 32) = true := by decide +kernel

/-! ### Presence and keys -/

/-- A presence window open until 1 s after now. -/
def present (s : State) : State :=
  let s := put [(KEY_PRESENCE_OPEN, 1)] s
  { s with key := { s.key with window := some (s.clk.frc + 500000000, 21000000000) } }

/-- PresenceAndKeys: with and without a window, one just over, the sensor stuck and not, DRBG healthy and not. -/
theorem witness_PresenceAndKeys :
    let s := ready
    let w := present ready
    let o := { w with key := { w.key with window := some (10 ^ 11, 20000000000) } }
    let f := put [(KEY_STATUS_DRBG_OK, 0)] ready
    s.pwr.off = false ∧ on KEY_PRESENCE_STUCK s = false ∧ windowOpen s = false ∧ windowOpen w = true ∧ (10 ^ 11 : Nat) ≤ o.clk.frc ∧ windowOpen o = false ∧ on KEY_STATUS_DRBG_OK f = false ∧ on KEY_STATUS_DRBG_OK (put [(KEY_STATUS_DRBG_OK, 1)] s) = true ∧
    on STP_STATUS_PERMIT w = false ∧
    after .presenceOpen s (fun t => windowOpen t && rd KEY_PRESENCE_REMAIN t == 120) = true ∧ after (.presenceClose true) w (fun t => windowOpen t) = true ∧ after (.presenceClose true) o (fun t => t.key.window == none) = true ∧
    after (.presenceStuck true) s (fun t => on KEY_PRESENCE_STUCK t && up KEY_CNT_STUCK 1 s t) = true ∧ after (.presenceStuck false) (put [(KEY_PRESENCE_STUCK, 1)] s) (fun t => !on KEY_PRESENCE_STUCK t) = true ∧
    after .closeWindow w (res 26 0 0x10 3 0 0) = true ∧ after .closeWindow s (res 26 0 0x10 3 4 0x1AF4) = true ∧ after .drbgHealthFail s (fun t => !on KEY_STATUS_DRBG_OK t) = true ∧
    after .drbgHealthPass f (fun t => on KEY_STATUS_DRBG_OK t) = true ∧ after .rotateBkey f (res 26 0 0x10 1 4 0x1A0A) = true ∧ after .keyDebugEnable w (fun t => on KEY_STATUS_DEBUG t) = true ∧
    after .keyDebugEnable s (fun t => !on KEY_STATUS_DEBUG t && up KEY_CNT_GATE_REFUSED 1 s t) = true := by decide +kernel

/-! ### Claims -/

theorem reach_valid (n : Nat) (s : State) : bit (reachEntry n s).flags 0 = bit (byteAt s.mem (reachAddr n + 8)).toNat 0 := by
  simp [reachEntry, bytesAt, leAt, slice, ofLe, Nat.add_assoc]

theorem ford_valid (n : Nat) (s : State) : bit (fordEntry n s).flags 0 = bit (byteAt s.mem (fordAddr n)).toNat 0 := by
  simp [fordEntry, bytesAt, leAt, slice, ofLe]

/-- A CLM store with one byte not zero, the flags of reach 5: which entries are VALID. -/
theorem map_one (v : Byte) (s : State) (h : s.mem = [(reachAddr 5 + 8, v)]) :
    (List.range 8192).filter (fun n => bit (reachEntry n s).flags 0) = (if bit v.toNat 0 then [5] else []) ∧
    (List.range 4096).filter (fun n => bit (fordEntry n s).flags 0) = [] := by
  constructor
  · have e : ∀ n ∈ List.range 8192, bit (reachEntry n s).flags 0 = (n == 5 && bit v.toNat 0) := by
      intro n _
      rw [reach_valid, h]
      by_cases hn : n = 5
      · subst hn; simp [byteAt, tget, tfind]
      · have : ¬ reachAddr 5 = reachAddr n := by simp only [reachAddr]; omega
        simp [byteAt, tget, tfind, hn, this, bit]
    rw [List.filter_congr e]
    by_cases hb : bit v.toNat 0 = true
    · simp only [hb, Bool.and_true, if_true]; decide +kernel
    · simp [hb]
  · have e : ∀ n ∈ List.range 4096, bit (fordEntry n s).flags 0 = false := by
      intro n _
      rw [ford_valid, h]
      have : ¬ reachAddr 5 + 8 = fordAddr n := by simp only [reachAddr, fordAddr]; omega
      simp [byteAt, tget, tfind, this, bit]
    rw [List.filter_congr e]; simp

/-- CLM enabled in a state, the module in Run, reach 5's flags v. -/
def clm (st : Nat) (v : Byte) : State :=
  { put [(CLM_CTRL_EN, 1), (CLM_STATUS_STATE, st), (PWR_STATUS_STATE, 2)] ready with mem := [(reachAddr 5 + 8, v)] }

/-- ClaimEngineStates, MAP_LOAD: reach 5 VALID of length 0 fails the first check; no VALID entry passes them all. -/
theorem witness_MapLoad : mapError (clm 1 1) = some (0, 1, 5) ∧ mapError (clm 1 2) = none ∧ clmState (clm 1 1) = 1 ∧ ErrorFree (clm 1 1) := by
  have a := map_one 1 (clm 1 1) rfl
  have b := map_one 2 (clm 1 2) rfl
  refine ⟨?_, ?_, by decide +kernel, by decide +kernel⟩
  · unfold mapError; simp only [a.1, a.2]; decide +kernel
  · unfold mapError; simp only [b.1, b.2]; decide +kernel

/-- ClaimEngineStates, the rest: the last bytes of the tables in RUN and in LOAD, with and without claims, a claim one microsecond past its leave time. -/
theorem witness_ClaimEngineStates :
    let s := clm 2 0
    let c : Claim := { claim5 with st := .active, open_ := false, leave := 19999999 }
    let z := { s with clm := { s.clm with claims := [(3, c)], paths := [(5, [3])] } }
    ErrorFree s ∧ clmState s = 2 ∧ clmState (clm 1 0) ≤ 1 ∧ s.clm.claims = [] ∧ z.clm.claims ≠ [] ∧ on CLM_CTRL_EN z = true ∧ inRun z = true ∧ isTributary z = false ∧ c.owner / 256 = ownModule z ∧
    leavePassed (claimTime z) c = true ∧ tfind 5 z.clm.prog = none ∧
    after (.clmStoreWrite 0x5FFFF 1 0xAB) s (fun t => up CLM_CNT_STORE_REFUSED 1 s t && t.mem == s.mem) = true ∧
    after (.clmStoreWrite 0x5FFFE 2 0xABCD) (clm 1 0) (fun t => loadLe t.mem 0x4005FFFE 2 == 0xABCD) = true ∧ after .mapUnload s (fun t => clmState t == 1 && res 8 0 0x0C 2 0 0 t) = true ∧
    after .mapUnload z (res 8 0 0x0C 2 4 0x0812) = true ∧ after .clmDisable z (fun t => clmState t == 0 && t.clm.claims == []) = true ∧
    after .clmTick z (fun t => (claim? 3 t).any (fun d => d.st == .overdue && d.leave == 20500000) && up CLM_CNT_OVERDUE 1 z t) = true ∧
    after .clmLatClear (put [(CLM_LAT_MAX, 9)] s) (fun t => rd CLM_LAT_MAX t == 0) = true := by decide +kernel

/-- A request with its words in flume 5, before a CLM in RUN: reach 9 a VALID haven of length 3200 with one place, machine entry 5 VALID; claims and index as given. -/
def asks (ws : List Word) (cl : Tbl Claim) (paths : Tbl (List Nat)) (st : IdxSt) : State :=
  let z := put [(CLM_CTRL_EN, 1), (CLM_STATUS_STATE, 2), (PWR_STATUS_STATE, 2), (CLM_FLUME_REQ, 5), (CLM_CFG_MARGIN, 0)] (flumes (List.replicate (ws.length - 1) 0 ++ [1]) ready)
  let m := setBytes [] (reachAddr 9) (leBytes 4 3200 ++ leBytes 2 0xFFFF ++ leBytes 2 0xFFFF ++ [3, 0, 1])
  let m := setBytes (setBytes m (machAddr 5) [0, 0, 0, 0, 1]) 0x100070 ((ws.take 2).flatMap (fun w => leBytes 8 w.toNat))
  { z with mem := setBytes m 0x100000 ((ws.drop 2).flatMap (fun w => leBytes 8 w.toNat)), clm := { z.clm with claims := cl, paths := paths },
           air := { z.air with idx := [(5, { st := st, eui := List.replicate 8 0 })] } }

/-- A request's words: operation, element count, owner 5, TAG 7, arguments, one element on reach 9 from a to b, open-ended. -/
def askWords (op n a0 a1 : Nat) (el : Option (Nat × Nat)) : List Word :=
  [BitVec.ofNat 64 (op + 256 * n + 0x50000 + 7 * 2 ^ 32), BitVec.ofNat 64 (a0 + a1 * 2 ^ 32)] ++
    (match el with | some (a, b) => [BitVec.ofNat 64 (9 + a * 2 ^ 32), BitVec.ofNat 64 b, 0xFFFFFFFF] | none => [])

/-- What engineTake leaves, and the request it gives. -/
def tookIt (s : State) : State := (engineTake 5 { s with out := [] }).2
def askOf (ws : List Word) : Req := reqOf ws true

/-- RequestTaken holds of it, decided part by part. -/
def isTaken (op : Nat) (ws : List Word) (s : State) : Bool :=
  let u := tookIt s
  on CLM_CTRL_EN s && inRun s && clmState u == 2 && !isTributary u && u.ecc.marks.isEmpty && u.ecc.badLines.isEmpty && u.held.isEmpty && (askOf ws).op == op && wellFormed (askOf ws) && rd CLM_FLUME_REQ s == 5 &&
    (enginePeek 5 { s with out := [] }).any (fun w => w.toNat % 256 == op) && (engineTake 5 { s with out := [] }).1 == some (ws, true) &&
    decide ((askOf ws).owner < 2048) && (askOf ws).owner / 256 == ownModule u && (latchMach (askOf ws).owner u).1 && decide (u.clm.claims.length < 131072)

theorem requestTaken_of (op : Nat) (ws : List Word) (s : State) (h : isTaken op ws s = true) : RequestTaken op s (askOf ws) (tookIt s) := by
  simp only [isTaken, Bool.and_eq_true, beq_iff_eq, List.isEmpty_iff, Bool.not_eq_true', decide_eq_true_eq] at h
  obtain ⟨⟨⟨⟨⟨⟨⟨⟨⟨⟨⟨⟨⟨⟨⟨h1, h2⟩, h3⟩, h4⟩, h5⟩, h6⟩, h7⟩, h8⟩, h9⟩, h10⟩, h11⟩, h12⟩, -⟩, -⟩, -⟩, -⟩ := h
  refine ⟨h1, h2, h3, h4, h5, h6, h7, h8, h9, ?_, ws, true, ?_, rfl⟩
  · rw [h10]; cases hp : enginePeek 5 { s with out := [] } with
    | none => simp [hp] at h11
    | some w => exact ⟨w, rfl, by simpa [hp] using h11⟩
  · rw [h10]; exact Prod.ext h12 rfl

/-- ClaimRequests: each of the five operations taken and well-formed, with the conditions of its clause. -/
theorem witness_ClaimRequests :
    let w2 := askWords 2 1 0 0 (some (0, 1600))
    let s2 := asks w2 [] [] .member
    let w1 := askWords 1 1 0 0 (some (1600, 3200))
    let s1 := asks w1 [(3, claim5)] [(5, [3])] .member
    let w3 := askWords 3 0 9 1600 none
    let s3 := asks w3 [(3, claim5)] [(5, [3])] .member
    let w4 := askWords 4 0 1 0 none
    let s4 := asks w4 [(3, claim5)] [(5, [3])] .silent
    let w5 := askWords 5 0 9 1 none
    let s5 := asks w5 [(3, claim5)] [(5, [3])] .member
    let u := tookIt s1
    let e := (askOf w1).els.headD (elemOf [])
    (isTaken 2 w2 s2 && isTaken 1 w1 s1 && isTaken 3 w3 s3 && isTaken 4 w4 s4 && isTaken 5 w5 s5) = true ∧
    isMember 5 (tookIt s2) = true ∧ (tookIt s2).clm.claims = [] ∧ pathOf 5 (tookIt s2) = [] ∧ (askOf w2).els.length = 1 ∧ reachOk 9 (tookIt s2) = true ∧ isHaven 9 (tookIt s2) = true ∧ 1 ≤ (reachEntry 9 (tookIt s2)).places ∧
    openClaim 5 u = some (3, claim5) ∧ e.id = 9 ∧ e.from_ = claim5.to_ ∧ e.dir = 0 ∧ e.leave = 0xFFFFFFFF ∧ 0 ≤ e.from_ ∧ e.from_ ≤ e.to_ ∧ e.to_ ≤ (reachEntry 9 u).len ∧ enterRel (claimTime u) claim5 ≤ horizonUs u ∧
    (claimsOn false 9 u).length ≤ 64 ∧ othersOn false 9 5 u = [] ∧
    pathOf 5 (tookIt s3) = [3] ∧ claim? 3 (tookIt s3) = some claim5 ∧ claim5.id = (askOf w3).arg0 ∧ chan? 5 (tookIt s3) = none ∧ sgn 32 (askOf w3).arg1 = 1600 ∧
    profileReaches 5 (1600 * fineSt) (latchMach 5 (tookIt s3)).2 = false ∧ idxState 5 (tookIt s4) = some .silent ∧ (askOf w4).arg0 = 1 ∧ bit (reachEntry 9 (tookIt s5)).flags 0 = true ∧
    flumeOn (rd CLM_FLUME_RES (tookIt s5)) (tookIt s5) = false ∧ flumeOn (rd CLM_FLUME_NOTE (tookIt s5)) (tookIt s5) = false ∧
    after (.clmExtend 0) s1 (fun t => (claim? 3 t).any (fun c => c.to_ == 3200 && c.open_)) = true ∧ after (.clmShorten 0) s3 (fun t => (claim? 3 t).any (fun c => c.to_ == 1600 && c.open_)) = true ∧
    after (.clmRelease 0) s4 (fun t => t.clm.claims == [] && up CLM_CNT_FORCE 1 s4 t) = true ∧
    after (.setReach 0) s5 (fun t => bit (reachEntry 9 t).flags 3 && (claim? 3 t).any (fun c => c.st == .blocked)) = true := by decide +kernel

theorem witness_RequestTaken : RequestTaken 4 (asks (askWords 4 0 1 0 none) [(3, claim5)] [(5, [3])] .silent) (askOf (askWords 4 0 1 0 none)) (tookIt (asks (askWords 4 0 1 0 none) [(3, claim5)] [(5, [3])] .silent)) :=
  requestTaken_of _ _ _ (by decide +kernel)

/-! ### Millrace, memory, flumes, register writes, the stop lane -/

theorem unrouted_of (s : State) (h : s.notes = [] ∧ (List.range 256).all (fun e => !on (MRC_EVT_EN e) s) = true) : Unrouted s :=
  ⟨h.1, fun e he => by have := List.all_eq_true.mp h.2 e (by simpa using he); simpa using this⟩

/-- Millrace with item7 ready and core F1 idle and enabled. -/
def ready7 : State := let s := put [(CCX_CTRL_EN, 2), (MRC_CTRL_WAIT_LIM, 1)] (mill .ready); { s with ccx := { s.ccx with cores := [(1, { st := .idle })] }, mrc := { s.mrc with flows := [] } }

/-- An operation 7 triggered by flume 5, before a whole record or a spill mark; a timer due. -/
def trig (tags : List Nat) : State :=
  let s := flumes tags (put [(MRC_DESC 7 3, 0x8502FFFF), (FLM_CFG_MRC 5, 1)] ready7)
  { s with mrc := { s.mrc with items := [] } }

theorem witness_MillraceItems :
    let s := ready7
    let h := { s with mrc := { s.mrc with items := [(4, { item7 .ready with held := true })] } }
    let t := put [(MRC_TMR_CTRL_EN 63, 1), (MRC_TMR_CTRL_OP 63, 7), (MRC_TMR_CTRL_FLOW 63, 9), (MRC_TMR_PER 63, 10), (MRC_TMR_AT_LO 63, 20000000000 % 2 ^ 32), (MRC_TMR_AT_HI 63, 4)] s
    on MRC_CTRL_EN s = true ∧ awake s = true ∧ s.held = [] ∧ (coreOf 1 s).st = .idle ∧ coreEn 1 s = true ∧ (List.range 16).all (fun m => m == 1 || (coreOf m s).st != .idle) = true ∧ firstFor 1 s = some (4, item7 .ready) ∧
    itemNum 11 h = some 4 ∧ affHeld 7 3 none h = false ∧ (item7 .ready).waitLong = false ∧ rd MRC_CTRL_WAIT_LIM s ≠ 0 ∧ ticksOfMs (rd MRC_CTRL_WAIT_LIM s) < s.clk.frc - (item7 .ready).readyAt ∧
    ErrorFree (trig [0, 1]) ∧ triggerOp 5 (trig [0, 1]) = some 7 ∧ triggerReady 5 7 (trig [0, 1]) = true ∧ (inboxesUsed (trig [0, 1])).length < maxInboxes ∧ rd MRC_RESERVE_RESERVE (trig [0, 1]) < freeItems (trig [0, 1]) ∧
    2 ≤ flumeVisible 5 (trig [0, 1]) ∧ (flume 5 (trig [0, 1])).tags.take 2 = recordTags 2 ∧ triggerReady 5 7 (trig [2]) = true ∧ flumeVisible 5 (trig [2]) ≠ 0 ∧ (flume 5 (trig [2])).tags.headD 0 = 2 ∧
    rd64 (MRC_TMR_AT_LO 63) (MRC_TMR_AT_HI 63) t ≤ siteNs t ∧ t.clk.siteSet = true ∧ (t.mrc.items.all (fun x => x.2.src != .timer 63)) = true ∧ opLoaded (rd (MRC_TMR_CTRL_OP 63) t) t = true ∧
    graphOn (opGraph (rd (MRC_TMR_CTRL_OP 63) t) t) t = true ∧ 0 < freeItems t ∧ NoSuccessors s ∧
    after .itemDispatch s (fun t => (coreOf 1 t).st == .op && (coreOf 1 t).pc == 0x4000 && (coreOf 1 t).gr 1 == 0xAB && (coreOf 1 t).gr 30 == 0x8200 && (coreOf 1 t).gr 31 == 0xFF00FFF0) = true ∧
    after (.affinityRelease 11) h (fun t => (item? 4 t).any (fun i => !i.held && i.readyAt == 10 ^ 11)) = true ∧ after (.readyWaitLong 11) s (fun t => (item? 4 t).any (fun i => i.waitLong) && up MRC_CNT_WAIT_LONG 1 s t) = true ∧
    after (.cancelFlow 3) s (fun t => t.mrc.items == [] && res 3 0 0x10 1 0 0 t) = true ∧ after (.cancelOp 8) s (fun t => t.mrc.items == s.mrc.items) = true := by decide +kernel

theorem witness_Unrouted : Unrouted ready7 ∧ Unrouted (trig [0, 1]) := ⟨unrouted_of _ (by decide +kernel), unrouted_of _ (by decide +kernel)⟩

theorem witness_MillraceControls :
    let s := ready7
    graphOn 0 s = true ∧ NoSuccessors s ∧ on MRC_CTRL_EN s = true ∧ opLoaded 7 s = true ∧ graphOn (opGraph 7 s) s = true ∧ opLoaded 1023 s = false ∧
    after (.graphEnable 63) s (fun t => graphOn 63 t && graphOn 0 t) = true ∧ after (.graphDisable 0) s (fun t => !graphOn 0 t && t.mrc.items == []) = true ∧ after .millraceDisable s (fun t => !on MRC_CTRL_EN t && t.mrc.items == []) = true ∧
    after (.descriptorWrite 7 3 0) s (fun t => opLoaded 7 t && up MRC_CFG_REFUSED_COUNT 1 s t && rd MRC_CFG_REFUSED_LAST_OFFSET t == 0x80EC) = true ∧
    after (.descriptorWrite 1023 7 0xFFFFFFFF) s (fun t => descWord 1023 7 t == 0xFFFFFFFF) = true ∧ after .mrcLatClear (put [(MRC_LAT_MAX, 5)] s) (fun t => rd MRC_LAT_MAX t == 0) = true := by decide +kernel

/-- MemoryAndFlumeCommands: the last line of a store, debug off and on with each mode, a flume with a valid geometry and one without, a FLOW pin in mode 2. -/
theorem witness_MemoryAndFlumeCommands :
    let s := put [(MEM_CTRL_SCRUB_EN, 1)] ready
    let l := { s with ecc := { s.ecc with pos := [(1, storeLines 1 - 1)] } }
    let d := put [(KEY_STATUS_DEBUG, 1), (MEM_INJECT_ADDR, 9)] s
    let f := put [(FLM_CFG_EN 127, 0), (FLM_BASE_ADDR 127, 0x20100), (FLM_POOL_ADDR, 1), (FLM_POOL_MIB, 1), (FLM_CTRL_EN, 1)] (flumes [0, 1] ready)
    let p := put [(FLM_FLOWPIN_MODE 3, 2), (FLM_FLOWPIN_FLUME 3, 5), (FLM_CTRL_EN, 1)] (flumes [0, 1] ready)
    ErrorFree s ∧ awake s = true ∧ on MEM_CTRL_SCRUB_EN s = true ∧ debugOn s = false ∧ debugOn d = true ∧ rd MEM_INJECT_MODE d < 3 ∧ 3 ≤ rd MEM_INJECT_MODE (put [(MEM_INJECT_MODE, 3)] d) ∧
    flumeValid 127 f = true ∧ on (FLM_CFG_EN 127) f = false ∧ flumeValid 127 (put [(FLM_CFG_LOG2 127, 31)] f) = false ∧ on (FLM_CFG_EN 5) p = true ∧ flumeOn 5 p = true ∧ flumeOn 127 f = false ∧
    after (.scrubVisit 1 [] false true) l (fun t => tget 0 1 t.ecc.pos == 0 && up MEM_CNT_SCRUB_DEFER 1 s t) = true ∧ after (.scrubVisit 0 [(3, 0)] false false) s (fun t => up MEM_CNT_INNER 1 s t && t.ecc.marks == []) = true ∧
    after (.scrubVisit 0 [(3, 1)] false false) s (fun t => up MEM_CNT_OUTER 1 s t && t.ecc.marks == []) = true ∧
    after (.scrubVisit 0 [(3, 1), (4, 1)] false false) s (fun t => up MEM_CNT_UNCORR 1 s t && markAt 24 t == some .poisoned && markAt 32 t == some .poisoned) = true ∧
    after .scrubRestart { s with ecc := { s.ecc with pos := [(0, 9)] } } (fun t => tget 0 0 t.ecc.pos == 0) = true ∧ after .inject s (res 5 0 0x0C 2 4 0x0505) = true ∧
    after .inject d (fun t => markAt 72 t == some .single) = true ∧ after .inject (put [(MEM_INJECT_MODE, 3)] d) (fun t => t.ecc.badLines == [64]) = true ∧ after .memClearErr s (res 5 0 0x0C 3 0 0) = true ∧
    after (.flush 5) p (fun t => (flume 5 t).tags == [] && up FLM_CNT_FLUSH 2 p t) = true ∧ after (.flush 127) f (res 4 0 0x10 1 4 0x0401) = true ∧ after (.flumeEnable 127) f (fun t => on (FLM_CFG_EN 127) t) = true ∧
    after (.flumeEnable 127) (put [(FLM_CFG_LOG2 127, 31)] f) (fun t => !on (FLM_CFG_EN 127) t) = true ∧ after (.flumeDisable 5) p (fun t => (flume 5 t).tags == [] && !on (FLM_CFG_EN 5) t) = true ∧
    after (.flowPinIn 3 true) p (fun t => (flume 5 t).heldByPin && on (FLM_FLOWPIN_ASSERTED 3) t) = true := by decide +kernel

/-- RegisterWrites: an H-class field of an active block, a register that takes its bits at once, a held write at its commit point and at a cycle start. -/
theorem witness_RegisterWrites :
    let s := put [(CLM_CTRL_EN, 1), (CLM_STATUS_STATE, 2)] ready
    let q := { ready with held := [(10 * 2 ^ 32 + 0x880, 7)] }
    (regAt 8 0x18).isSome = true ∧ groupOf 8 ∉ [2, 3, 24, 25] ∧ hidden 8 0x18 = false ∧ taken 8 0x18 s = false ∧ badWord 8 0x18 5 = false ∧ changesOutput 8 0x18 5 s = false ∧
    (activeAt 8 0x18 s && changesHeld 8 0x18 5 s) = true ∧ (activeAt 8 0x18 ready && changesHeld 8 0x18 5 ready) = false ∧ special 8 0x18 5 ready = none ∧ (10 * 2 ^ 32 + 0x880) / 2 ^ 32 = 10 ∧ q.clk.siteSet = true ∧
    after (.registerWrite 16 (addrOf 8 0x18) 5) s (fun t => rd CLM_FLUME_REQ t == 0 && up CLM_CFG_REFUSED_COUNT 1 s t && rd CLM_CFG_REFUSED_LAST_OFFSET t == 0x18) = true ∧
    after (.registerWrite 17 (addrOf 8 0x18) 5) ready (fun t => rd CLM_FLUME_REQ t == 5) = true ∧
    after (.commitPoint 10 0) q (fun t => rd ⟨10, 0x880, 32, 0⟩ t == 7 && t.held == []) = true ∧ after (.cycleStart none) q (fun t => t.held == []) = true ∧
    after (.cycleStart none) { ready with clk := {}, sol := { ready.sol with tally := (3, 2, 1) } } (fun t => t.sol.tally == (3, 2, 1)) = true ∧
    after (.cycleStart none) { ready with sol := { ready.sol with tally := (3, 2, 1) } } (fun t => t.sol.tally == (0, 0, 0) && rd SOL_STATUS_ACTIVE t == 3) = true := by decide +kernel

/-- The stop lane in a state, both channels closed, AIR able to send. -/
def lane_ (st : Nat) (l : List (Fld × Nat)) : State := put ([(STP_STATUS_STATE, st), (STP_STATUS_PERMIT, if st = 1 then 1 else 0), (STP_STATUS_INA, 1), (STP_STATUS_INB, 1)] ++ l) ready

/-- StopLane: PERMIT, LATCHED and FAULT; causes against RELEASE and none; channels that differ for DISC; a burst with a frame due; a repeat due. -/
theorem witness_StopLane :
    let s := lane_ 1 []
    let f := present (lane_ 4 [(STP_STATUS_FAULT, 1)])
    let d := { s with stp := { s.stp with differ := some 0 } }
    let b := { lane_ 2 [] with stp := { (lane_ 2 []).stp with burst := some { start := 20000000000, left := [(3, (2, 0))] } } }
    s.pwr.off = false ∧ shadowing s = false ∧ lane s = 1 ∧ sourcesNow (setStp { s.stp with program := false } s) = 0 ∧ on STP_STATUS_INA s = true ∧ lane d ≠ 4 ∧
    ticksOfMs (max 10 (min 1000 (rd STP_INPUT_DISC d))) ≤ d.clk.frc - 0 ∧ windowOpen f = true ∧ rd STP_STATUS_FAULT f = 1 ∧ on STP_STATUS_INB f = true ∧ releaseCause s ≠ 0 ∧ windowOpen s = false ∧
    b.stp.burst.bind (fun x => tfind 3 x.left) = some (2, 0) ∧ 20000000000 + 0 * pitchNs b ≤ siteNs b ∧ planE b = false ∧
    after .stpStop s (fun t => lane t == 2 && t.stp.program && rd STP_SERIAL_SERIAL t == 1 && up STP_CNT_EPOCH 1 s t && res 12 0 0x0C 1 0 0 t) = true ∧
    after .stpClearProgram { s with stp := { s.stp with program := true } } (fun t => !t.stp.program && lane t == 1) = true ∧
    after (.stopInputEdge 0 false) s (fun t => lane t == 2 && !on STP_STATUS_INA t && on STP_STATUS_INB t) = true ∧ after .stopDiscrepancy d (fun t => lane t == 4 && rd STP_STATUS_FAULT t == 1) = true ∧
    after .stpOverride f (fun t => lane t == 2 && rd STP_STATUS_FAULT t == 0) = true ∧ after .stpOverride s (res 12 0 0x0C 4 4 0x0CF0) = true ∧ after .stpRelease s (res 12 0 0x0C 3 4 (releaseCause s)) = true ∧
    after (.stopFrameTx 3 false 0) b (fun t => ((t.stp.burst.map (fun x => tfind 3 x.left)) == some (some (1, 1)))) = true ∧
    after (.statFault 1) s (fun t => up STP_CNT_STAT_FAULT 1 s t) = true ∧ after .stpLatClear (put [(STP_LAT_MAX, 3)] s) (fun t => rd STP_LAT_MAX t == 0) = true := by decide +kernel

/-! ### Frames on air -/

/-- AIR receiving and sending in Run, cycle 400 of Plan N (no group), a link root in slot 20 under quire 1, machine 5 a member and partner 3, both with one EUI-64. -/
def air (l : List (Fld × Nat)) (idx : Tbl Idx) (ptr : Tbl Ptr) : State :=
  let z := put ([(AIR_CTRL_EN, 1), (AIR_CTRL_RX_EN, 1), (AIR_CTRL_TX_EN, 1), (PWR_STATUS_STATE, 2)] ++ l) ready
  { z with air := { z.air with calDone := true, idx := idx }, wkr := { z.wkr with ptr := ptr },
           key := { z.key with recA := [(1, { now := some { kind := 1, usage := 15 } }), (20, { now := some { kind := 2, usage := 2, parent := 1, origin := 1 } })] } }

/-- The EUI-64 of the sender of the frames. -/
def eui9 : List Byte := [9, 8, 7, 6, 5, 4, 3, 2]

/-- The MIC of a frame of head and body under the link key of an EUI-64, of a join over both in the clear (R185). -/
def micOf (join : Bool) (eui head body : List Byte) (s : State) : List Byte :=
  let ks := aesKeys (nums ((linkKey eui s).getD []))
  let n := nums (upNonce (upOf head))
  octets ((xorL (ccmMac ks 8 n (nums (if join then head ++ body else head)) (if join then [] else ccmCrypt ks n (nums body))) (ccmCtr ks n 0)).take 8)

/-- The frame, and what its payload opens to. -/
def frameOf (join : Bool) (eui head body : List Byte) (s : State) : List Byte := head ++ (body ++ micOf join eui head body s)
def clear (join : Bool) (eui head body : List Byte) (s : State) : List Byte :=
  if join then body else octets (ccmCrypt (aesKeys (nums ((linkKey eui s).getD []))) (nums (upNonce (upOf head))) (nums body))

theorem leAt_head (h t : List Byte) (i n : Nat) (hn : i + n ≤ h.length) : leAt (h ++ t) i n = leAt h i n := by
  simp only [leAt, slice]; rw [List.drop_append_of_le_length (by omega), List.take_append_of_le_length (by simp; omega)]

theorem upOf_head (h t : List Byte) (hn : h.length = 16) : upOf (h ++ t) = upOf h := by
  simp only [upOf]; repeat rw [leAt_head _ _ _ _ (by omega)]

/-- A frame made so opens. -/
theorem frameOf_opens (join : Bool) (eui head body : List Byte) (s : State) (hh : head.length = 16) (hb : body.length = 168)
    (hm : (micOf join eui head body s).length = 8) (hk : (linkKey eui s).isSome = true) :
    (frameOf join eui head body s).length = 192 ∧ upOf (frameOf join eui head body s) = upOf head ∧ openUp eui join (frameOf join eui head body s) s = some (clear join eui head body s) := by
  obtain ⟨k, hk⟩ := Option.isSome_iff_exists.mp hk
  have e0 : (frameOf join eui head body s).take 16 = head := by simp [frameOf, ← hh]
  have e1 : slice (frameOf join eui head body s) 16 168 = body := by simp [frameOf, slice, ← hh, ← hb]
  have e2 : slice (frameOf join eui head body s) 184 8 = micOf join eui head body s := by
    have : 184 = head.length + body.length := by omega
    simp only [frameOf, slice, ← List.append_assoc, this, ← List.length_append, List.drop_left]; rw [List.take_of_length_le (by omega)]
  refine ⟨by simp [frameOf, hh, hb, hm], upOf_head _ _ hh, ?_⟩
  simp only [openUp, e0, e1, e2, hk, show upOf (frameOf join eui head body s) = upOf head from upOf_head _ _ hh]
  cases join <;> simp [ccmOpen, micOf, clear, hk, ccmCrypt, nums, chunks]

/-- A header: kind, flags, SOURCE, cycle 400, FCNT 9, site 0, broadcast key 0. -/
def head9 (kind flags source : Nat) : List Byte := leBytes 1 kind ++ leBytes 1 flags ++ leBytes 2 source ++ leBytes 4 400 ++ leBytes 4 9 ++ leBytes 4 0

/-- The payload of a join: the sender's EUI-64, then fields 8 to 15 as given. -/
def join9 (l : List Byte) : List Byte := padTo 168 (eui9 ++ l)

theorem uplink_of (join : Bool) (kind lane sl : Nat) (head body : List Byte) (s : State) (hh : head.length = 16) (hb : body.length = 168) (hm : (micOf join eui9 head body s).length = 8)
    (hk : (linkKey eui9 s).isSome = true) (hr : (receiving s && ownLane lane sl s && (upOf head).kind == kind && decide (kind = 3 ∨ kind = 5) == join) = true) :
    UplinkOpens kind lane sl 0 (frameOf join eui9 head body s) eui9 (clear join eui9 head body s) s := by
  obtain ⟨l, u, o⟩ := frameOf_opens join eui9 head body s hh hb hm hk
  simp only [Bool.and_eq_true, beq_iff_eq] at hr
  obtain ⟨⟨⟨r, w⟩, q⟩, j⟩ := hr
  refine ⟨r, w, by rw [u]; exact q, l, by rw [j]; exact o, ?_⟩
  simp only [inTime]; split <;> simp

def idx9 (st : IdxSt) (top : Nat) : Idx := { st := st, eui := eui9, top := top, win := 1, first := 390, last := 350, acks := [(9, ackBody 9 0 0 0)] }

/-- AirFrames, observations and replies: machine 5 in lane 5 at cycle 400, its regular slot and a spare one of machine 5; NEW at TOP 8, DUPLICATE at TOP 9, STALE at TOP 100; no key. -/
theorem witness_AirFrames_up :
    let s := fun top => air [] [(5, idx9 .member top)] []
    let q := fun c top => { s top with clk := { (s top).clk with siteAcc := 50000000 * c * 2 ^ 32 } }
    let n := { s 8 with key := {} }
    (List.range 2).all (fun k => (micOf false eui9 (head9 (k + 1) 0 5) (List.replicate 168 7) (s 8)).length == 8) = true ∧ (linkKey eui9 (s 8)).isSome = true ∧
    receiving (s 8) = true ∧ ownLane 5 1 (s 8) = true ∧ sourceEui 5 (s 8) = some eui9 ∧ isRegular 5 5 1 400 (s 8) = true ∧ cycleNo (s 8) = 400 ∧ cycleNo (q 408 8) = 408 ∧
    isSpare 5 5 (spareSlot 0 408 (s 8)) 408 (s 8) = true ∧
    (upOf (head9 2 0 5)).source = 5 ∧ (upOf (head9 2 0 5)).fcnt = 9 ∧ (dupFilter 8 1 9).1 = 0 ∧ (dupFilter 9 1 9).1 = 1 ∧ (dupFilter 100 1 9).1 = 2 ∧ (idx9 .member 9).acks.find? (fun a => a.1 == 9) = some (9, ackBody 9 0 0 0) ∧
    openUp eui9 false (padTo 192 (head9 1 0 5)) n = none ∧ sourceEui 5 n = some eui9 ∧ receiving n = true ∧ after (.observationFrame 5 1 0 (padTo 192 (head9 1 0 5))) n (fun t => up AIR_CNT_RX_MIC 1 n t) = true := by decide +kernel

theorem witness_UplinkOpens :
    let s := air [] [(5, idx9 .member 8)] []
    let b := List.replicate 168 7
    UplinkOpens 1 5 1 0 (frameOf false eui9 (head9 1 0 5) b s) eui9 (clear false eui9 (head9 1 0 5) b s) s ∧ UplinkOpens 2 5 1 0 (frameOf false eui9 (head9 2 0 5) b s) eui9 (clear false eui9 (head9 2 0 5) b s) s :=
  ⟨uplink_of _ _ _ _ _ _ _ (by decide +kernel) (by decide +kernel) (by decide +kernel) (by decide +kernel) (by decide +kernel), uplink_of _ _ _ _ _ _ _ (by decide +kernel) (by decide +kernel) (by decide +kernel) (by decide +kernel) (by decide +kernel)⟩

/-- AIR taking joins of machine eui9 and of partner eui9; the contention slot of cycle 400 is slot 0. -/
def joining (idx : Tbl Idx) (ptr : Tbl Ptr) : State :=
  let z := air [(AIR_CTRL_JOIN_EN, 1), (AIR_CTRL_PJOIN_EN, 1)] idx ptr
  { z with site := { z.site with admitted := [(eui9, none)], partners := [eui9] } }

def ptr9 (st : PtrSt) : Ptr := { st := st, eui := eui9, lane := 3, next := 400, period := 20, began := some (400, true) }

/-- AirFrames, joins and a partner: each opens in the contention slot; indexes free and none free; the payload's fields. -/
theorem witness_AirFrames_join :
    let s := joining [] []
    let m := join9 [0, 1, 100, 0, 50, 0, 20, 0]
    let q := join9 [1, 1]
    let p := joining [] [(3, ptr9 .member)]
    (UplinkOpens 3 2 0 0 (frameOf true eui9 (head9 3 0 0xFFFF) m s) eui9 m s ∧ UplinkOpens 5 2 0 0 (frameOf true eui9 (head9 5 0 0xFFFF) q s) eui9 q s ∧
      UplinkOpens 4 3 0 0 (frameOf false eui9 (head9 4 0 0x8003) (List.replicate 168 7) p) eui9 (clear false eui9 (head9 4 0 0x8003) (List.replicate 168 7) p) p) ∧
    slice (frameOf true eui9 (head9 3 0 0xFFFF) m s) 16 8 = eui9 := by
  refine ⟨⟨uplink_of true _ _ _ _ _ _ (by decide +kernel) (by decide +kernel) ?_ ?_ ?_, uplink_of true _ _ _ _ _ _ (by decide +kernel) (by decide +kernel) ?_ ?_ ?_, uplink_of false _ _ _ _ _ _ (by decide +kernel) (by decide +kernel) ?_ ?_ ?_⟩, ?_⟩ <;> decide +kernel

theorem witness_AirFrames_join_places :
    let s := joining [] []
    let f := { s with air := { s.air with idx := (List.range 256).map (fun m => (m, { idx9 .member 0 with eui := [] })) } }
    let p := joining [] [(3, ptr9 .member)]
    let m := join9 [0, 1, 100, 0, 50, 0, 20, 0]
    contentionOk 2 0 s = true ∧ on AIR_CTRL_JOIN_EN s = true ∧ leAt m 8 1 = 0 ∧ leAt m 9 1 = 1 ∧ leAt (join9 [1, 1]) 8 1 = 1 ∧ s.site.admitted.find? (fun a => a.1 == eui9) = some (eui9, none) ∧
    s.air.idx.find? (fun q => q.2.eui == eui9) = none ∧ (List.range (fleetSize s)).find? (fun m => (idx? m s).isNone) = some 0 ∧
    f.air.idx.find? (fun q => q.2.eui == eui9) = none ∧ (List.range (fleetSize f)).find? (fun m => (idx? m f).isNone) = none ∧ eui9 ∈ s.site.partners ∧ s.wkr.ptr.find? (fun q => q.2.eui == eui9) = none ∧
    (List.range 512).find? (fun n => (ptr? n s).isNone) = some 0 ∧ bit (upOf (head9 4 0 0x8003)).source 15 = true ∧ sourceEui 0x8003 p = some eui9 ∧ ptr? 3 p = some (ptr9 .member) ∧ contentionSlot 400 p = some 0 ∧
    (dupFilter (ptr9 .member).top (ptr9 .member).win 9).1 = 0 := by decide +kernel

/-- A frozen frame of carrier 0, hop 0, cycle 400. -/
def frame9 : DFrame := { cycle := 400, carrier := 0, hop := 0, channel := 3, bytes := List.replicate 40 0, mic := List.replicate 8 0, items := [] }

/-- AirFrames, hops: a freeze, a frame at its hop withheld, skipped at the dwell limit and sent; calibration; a grant used up and one at its last cycle; a member silent and not. -/
theorem witness_AirFrames_down :
    let s := air [(AIR_DWELL_LIMIT, 400)] [(5, idx9 .member 0), (6, { idx9 .granted 0 with first := 395 }), (7, { idx9 .granted 0 with first := 396 })] []
    let h := { s with air := { s.air with frames := [frame9] } }
    let w := put [(AIR_CTRL_TX_EN, 0)] h
    let z := put [(AIR_DWELL_LIMIT, 0)] h
    inRun s = true ∧ twnRole s = 0 ∧ sendsHops s = true ∧ carriers s = [0, 1, 2, 3] ∧ s.twn.yieldAt = none ∧ s.twn.burstDue = false ∧ frame9.cycle = cycleNo s ∧ sendsHops w = false ∧ bursting s = false ∧ planE s = false ∧
    ¬(dwellLimit 3 h - dwellReserve h < dwellUsed 3 (siteNs h + hopNs h) h + hopNs h) ∧ dwellLimit 3 z - dwellReserve z < dwellUsed 3 (siteNs z + hopNs z) z + hopNs z ∧ on AIR_CTRL_EN s = true ∧
    0 < sgn 32 (cycleNo s + 2 ^ 32 - (395 + 4) % 2 ^ 32) ∧ 40 < sgn 32 (cycleNo s + 2 ^ 32 - (idx9 .member 0).last) ∧ lane (put [(STP_STATUS_STATE, 3)] s) = 3 ∧
    after (.hopTransmit 0 []) w (fun t => t.air.frames == [] && up AIR_CNT_TX_WITHHELD 1 w t) = true ∧ after (.hopTransmit 0 []) z (fun t => t.air.frames == [] && up AIR_CNT_HOP_SKIP 1 z t) = true ∧
    after (.hopTransmit 0 []) h (fun t => t.air.charges == [(3, 20000000000, 20002500000, false)] && t.air.frames.all (fun f => f.onAir == some 20002498000)) = true ∧
    after .guardCalibration s (fun t => t.air.calLane == 1) = true ∧ after .airCalDone { s with air := { s.air with calDone := false } } (fun t => t.air.calDone && rd AIR_STATUS_STATE t == 2) = true ∧
    after (.grantLapse 6) s (fun t => (idx? 6 t).isNone && (idx? 7 t).isSome && up AIR_CNT_GRANT_LAPSED 1 s t) = true ∧ after (.grantLapse 7) s (fun t => (idx? 7 t).isSome) = true ∧
    after (.indexSilent 5) s (fun t => (idx? 5 t).any (fun i => i.st == .silent)) = true := by decide +kernel


/-- StopLane, the rest: nothing against RELEASE; a busy channel in Plan E; a repeat due in the slot phase. -/
theorem witness_StopLane_more :
    let r := lane_ 2 []
    let e := { lane_ 2 [(AIR_CTRL_PLAN, 1)] with stp := { (lane_ 2 []).stp with burst := some { start := 20000000000, left := [(0, (2, 0))] } } }
    let b := { lane_ 2 [(AIR_CTRL_TX_EN, 1)] with stp := { (lane_ 2 []).stp with repeats := 3 }, clk := { ready.clk with siteAcc := 20010000000 * 2 ^ 32 } }
    releaseCause r = 0 ∧ planE e = true ∧ e.stp.burst.bind (fun x => tfind 0 x.left) = some (2, 0) ∧ b.stp.repeats ≠ 0 ∧ lane b ≠ 1 ∧ mayBurst b = true ∧ bursting b = false ∧ slotsFrom b ≤ cyclePhase b ∧
    after .stpRelease r (fun t => lane t == 3) = true ∧ after (.stopFrameTx 0 false 0) e (fun t => t.stp.burst.bind (fun x => tfind 0 x.left) == some (2, 1) && up STP_CNT_LBT_DELAY 1 e t) = true ∧
    after .stopBurstRepeat b (fun t => t.stp.repeats == 2 && t.stp.burst.map (fun x => x.start) == some 20010000000) = true := by decide +kernel

/-! ### Orders, partners -/

/-- OrdersAndPartners, indexes and orders: silent with and without a claim, granted, member; an order record for a member; orders at their cycle. -/
theorem witness_Orders :
    let s := air [] [(5, idx9 .silent 0), (6, idx9 .member 0), (7, idx9 .granted 0)] []
    let c := { s with clm := { s.clm with claims := [(3, claim5)] } }
    let ws : List Word := [0x0000000900010006, 0x0000006400000007]
    let z := put [(AIR_CTRL_EN, 1), (AIR_FLUME_ORD, 5)] (flumes [0, 1] s)
    let r := { z with mem := setBytes [] 0x100070 (bytesOf ws) }
    let o : Order := { target := 6, kind := 1, flags := 0, num := 9, tag := 7, due := 400, data := [], echoed := false }
    let d := { s with air := { s.air with orders := [o, { o with due := 401 }] } }
    ownerHolds (ownerOf 5 s) s = false ∧ ownerHolds (ownerOf 5 c) c = true ∧ (engineTake 5 { r with out := [] }).1 = some (ws, true) ∧ rd AIR_FLUME_ORD r = 5 ∧ orderTarget 6 (engineTake 5 { r with out := [] }).2 = true ∧
    leAt (bytesOf ws) 0 2 = 6 ∧ leAt (bytesOf ws) 14 1 ≤ orderLimit (engineTake 5 { r with out := [] }).2 ∧ on AIR_CTRL_EN r = true ∧
    after (.releaseIndex 5) s (fun t => (idx? 5 t).isNone && (idx? 6 t).isSome && res 10 0 0x20 1 0 0 t) = true ∧ after (.releaseIndex 5) c (res 10 0 0x20 1 4 0x0A0A) = true ∧
    after (.releaseIndex 6) s (res 10 0 0x20 1 4 0x0A06) = true ∧ after (.cancelOrders 6) d (fun t => t.air.orders == []) = true ∧
    after .orderRecord r (fun t => t.air.orders == [{ o with due := 500 }]) = true ∧ after .orderDeadline d (fun t => t.air.orders == [{ o with due := 401 }] && up AIR_CNT_ORDER_FAILED 1 d t) = true := by decide +kernel

/-- OrdersAndPartners, keys: a rotation due with no key and with an old one; a key every member shows, one not yet. -/
theorem witness_BroadcastKeys :
    let s := put [(KEY_CTRL_EN, 1), (KEY_STATUS_DRBG_OK, 1), (KEY_CTRL_BK_PERIOD, 0)] (air [] [(5, { idx9 .member 0 with bkey := 7 })] [])
    let k := fun n => { s with key := { s.key with bkey := some (n, List.replicate 16 0), rotated := 0 }, air := { s.air with keyFrom := some 300 } }
    s.key.bkey = none ∧ on KEY_CTRL_EN s = true ∧ on KEY_STATUS_DRBG_OK s = true ∧ s.pwr.off = false ∧ (k 7).key.rotated + 3600000000000 * rd KEY_CTRL_BK_PERIOD (k 7) ≤ siteNs (k 7) ∧
    ((k 7).air.idx.all (fun p => p.2.st != .member || p.2.bkey == 7)) = true ∧ sgn 32 (cycleNo (k 8) + 2 ^ 32 - 300) < 200 ∧
    after .broadcastKeyRotate (k 255) (fun t => t.key.bkey.map Prod.fst == some 0 && t.key.bprev.isSome) = true ∧
    after .broadcastKeySwitch (k 7) (fun t => t.air.keyUse) = true ∧ after .broadcastKeySwitch (k 8) (fun t => !t.air.keyUse) = true := by decide +kernel

/-- OrdersAndPartners, wake patterns and rendezvous: the own address, the last alert address, an unsound pattern; a lost partner, one at its rendezvous, one whose call is due again and one past its limit. -/
theorem witness_Partners :
    let w := fun st calls => put [(WKR_CTRL_EN, 1), (WKR_CTRL_RX_EN, 1), (WKR_CTRL_RDV_EN, 1), (WKR_ADDR_OWN, 7), (WKR_ADDR_ALERT_BASE, 0x4000), (WKR_RDV_LANES, 8), (WKR_RDV_RESCUE_LIMIT, 3)]
      (air [] [] [(511, { ptr9 st with calls := calls, lastCall := 380 })])
    let s := w .member 0
    wkrOn s = true ∧ on WKR_CTRL_RX_EN s = true ∧ ownPattern s = false ∧ 0 ≠ wakeCrc 7 ∧ (0x41FF + 2 ^ 16 - rd WKR_ADDR_ALERT_BASE s) % 2 ^ 16 = 511 ∧ ptr? 511 s = some { ptr9 .member with calls := 0, lastCall := 380 } ∧
    on WKR_CTRL_RDV_EN s = true ∧ inRun s = true ∧ (ptr9 .member).next = cycleNo s ∧ reservations 511 420 s < laneLimit s ∧ 20 ≤ sgn 32 (cycleNo s + 2 ^ 32 - 380) ∧ ptr? 510 s = none ∧
    after (.wakePatternRx 7 (wakeCrc 7 + 1)) s (fun t => up WKR_CNT_CRC_BAD 1 s t) = true ∧ after (.wakePatternRx 7 (wakeCrc 7)) s (fun t => up WKR_CNT_WAKE_RX 1 s t) = true ∧
    after (.wakePatternRx 0x41FF (wakeCrc 0x41FF)) s (fun t => up WKR_CNT_ALERT 1 s t && t.air.items == [{ target := 0x81FF, kind := .call }]) = true ∧
    after (.wakePatternRx 0x41FF (wakeCrc 0x41FF)) (w .lost 0) (fun t => t.wkr.queue == [511] && (ptr? 511 t).any (fun x => x.st == .rescue)) = true ∧
    after (.rendezvous 511) s (fun t => (ptr? 511 t).any (fun x => x.next == 420 && x.fallback == some 420 && !x.heard) && getEntry 511 4 4 t == 420) = true ∧
    after (.rescueRecall 511) (w .rescue 2) (fun t => t.wkr.queue == [511]) = true ∧ after (.rescueRecall 511) (w .rescue 3) (fun t => (ptr? 511 t).any (fun x => x.st == .lost) && up WKR_CNT_LOST 1 s t) = true ∧
    after (.releasePartner 511) s (fun t => t.wkr.ptr == [] && res 11 0 0x24 1 0 0 t) = true ∧ after (.releasePartner 510) s (res 11 0 0x24 1 4 0x0B04) = true ∧
    after (.wkrCall 511) s (fun t => t.wkr.queue == [511] && res 11 0 0x24 2 0 0 t) = true ∧ after (.wkrCall 511) (w .granted 0) (res 11 0 0x24 2 4 0x0B04) = true ∧ after (.wkrCall 510) s (res 11 0 0x24 2 4 0x0B04) = true := by decide +kernel

/-! ### Reference station and solver -/

/-- REF enabled as time master in state st and time state t, with what more is given; the station's own position and its map at their reset places. -/
def ref (st t : Nat) (l : List (Fld × Nat)) : State := put ([(REF_CTRL_EN, 1), (REF_CTRL_TIME_MASTER, 1), (REF_STATUS_STATE, st), (REF_STATUS_TIME_STATE, t)] ++ l) ready

/-- ReferenceStation, samples and records: currents at the ends of their ranges, a survey just long enough and one too short, a record missing, a backlog one byte too long, a caster full; the last cell of the map's group. -/
theorem witness_ReferenceStation :
    let b := ref 3 1 [(REF_CTRL_BIAS1_EN, 1), (REF_CTRL_BIAS2_EN, 1)]
    let l := { b with ref := { b.ref with low1 := 9 } }
    let v := ref 2 1 [(REF_SURVEY_DURATION, 2)]
    let w := { v with ref := { v.ref with surveyFrom := 10 ^ 11 - 60000000000 } }
    let c := ref 3 1 [(REF_NTRIP_CFG_EN, 1), (REF_NTRIP_CFG_MAX, 2), (REF_RAW_RATE, 1), (REF_CTRL_BIAS1_EN, 0), (REF_CTRL_MP_APPLY, 0)]
    let d := { c with ref := { c.ref with clients := [(1, 32767), (2, 32768)] } }
    let x : MpSample := { ant := 0, sig := 1, el := 89999, az := 359999, cmc := -5, deficit := 3, res := 0, newPass := true, lock := 60 }
    let m := ref 3 1 [(REF_CTRL_MP_LEARN, 1)]
    let a := cellAddr 0 1 89999 359999 m
    awake b = true ∧ on REF_CTRL_BIAS1_EN b = true ∧ on REF_CTRL_BIAS1_EN c = false ∧ rd (biasField 0) b ≠ 3 ∧ refState w = 2 ∧ rd REF_SURVEY_DURATION w ≤ (w.clk.frc - w.ref.surveyFrom) / 30000000000 ∧
    ¬(rd REF_SURVEY_DURATION v ≤ (w.clk.frc - (10 ^ 11 - 59999999999)) / 30000000000) ∧ c.ref.recordCycle ≠ some (cycleNo c) ∧ rd REF_RAW_ANT c = 0 ∧ on REF_CTRL_MP_APPLY c = false ∧
    rd REF_NTRIP_CFG_MAX d ≤ d.ref.clients.length ∧ c.ref.clients.length < rd REF_NTRIP_CFG_MAX c ∧ ErrorFree m ∧ on REF_CTRL_MP_LEARN m = true ∧ 1000 * rd REF_CTRL_ELEV_MASK m ≤ 89999 ∧ loadLe m.mem (a + 4) 2 = 0 ∧
    after (.antennaBiasSample 0 1201) b (fun t => rd (biasField 0) t == 3 && up REF_CNT_ANT_FAULT 1 b t) = true ∧ after (.antennaBiasSample 1 1000) b (fun t => rd (biasField 1) t == 2) = true ∧
    after (.antennaBiasSample 0 39) l (fun t => rd (biasField 0) t == 1) = true ∧ after (.antennaBiasSample 0 39) b (fun t => rd (biasField 0) t != 1) = true ∧
    after (.surveyComplete 1 2 3 0) w (fun t => refState t == 3 && t.ref.nextPos == some (1, 2, 3) && t.site.surveyed == some (1, 2, 3)) = true ∧
    after .epochLate c (fun t => up REF_CNT_EPOCH_LATE 1 c t && t.ref.recordCycle == some 400) = true ∧ after (.rawEpoch { a1 := [], a2 := [], baseline := none, spp := none }) c (fun _ => true) = true ∧
    after (.rtcmEpoch [7] [] []) d (fun t => t.ref.clients == [(1, 32768)] && up REF_CNT_NTRIP_DROP 1 d t) = true ∧
    after (.ntripRequest { good := false, login := true, mount := 0, client := 9 }) c (fun t => t.out == [.http 9 400]) = true ∧ after (.ntripRequest { good := true, login := true, mount := 0, client := 9 }) d (fun t => t.out == [.http 9 503]) = true ∧
    after (.ntripRequest { good := true, login := true, mount := 0, client := 9 }) c (fun t => t.out == [.http 9 200]) = true ∧
    after (.multipathLearning [x]) m (fun t => loadLe t.mem a 2 == 0xFFFB && loadLe t.mem (a + 2) 1 == 3 && loadLe t.mem (a + 4) 2 == 1 && on REF_STATUS_MP_DIRTY t) = true ∧
    after (.multipathLearning [{ x with lock := 59 }]) m (fun t => t.mem == m.mem) = true ∧ after (.mapPeriodicSave true) { m with site := { m.site with mapA := some (4, []) } } (fun t => t.site.mapB.map Prod.fst == some 5 && t.site.mapA == some (4, [])) = true := by decide +kernel

/-- ReferenceStation, commands and time: each command with nothing waiting and with another; each step of the time discipline, at the ends of its intervals. -/
theorem witness_ReferenceTime :
    let s := ref 3 1 []
    let p := fun n => { s with ref := { s.ref with pendingCmd := n } }
    let m : Meas := { a1 := [], a2 := [], baseline := none, spp := some (800000, 0, 0) }
    let z := { ref 3 0 [] with clk := { ready.clk with siteSet := false, siteAcc := 0 } }
    let h0 := ref 3 2 [(REF_TIME_CFG_HOLD_LIMIT, 1)]
    let h := { h0 with ref := { h0.ref with holdFrom := some 0 }, clk := { ready.clk with frc := 3600 * 500000000 } }
    let o0 := ref 3 2 [(REF_TIME_CFG_CONFIRM, 60), (REF_TIME_ERR, 0xFFFFFF)]
    let o := { o0 with ref := { o0.ref with holdFrom := some 0, lastSol := some (10 ^ 11 - 5), agreeFrom := some (10 ^ 11 - 60 * 500000000) } }
    s.ref.pendingCmd = 0 ∧ (p 3).ref.pendingCmd ≠ 0 ∧ z.clk.siteSet = false ∧ s.held = [] ∧ dist2 (stagedPos s) (800000, 0, 0) ≤ 800000 * 800000 ∧ 800000 * 800000 < dist2 (stagedPos s) (800000, 1, 0) ∧
    on REF_CTRL_EN s = true ∧ on REF_CTRL_TIME_MASTER s = true ∧ linkTime s = false ∧ timeState z = 0 ∧ z.nv.time ≤ 0 ∧ timeState s = 1 ∧ s.ref.acceptRem = 0 ∧
    suspectNs s < ((siteNs s : Int) - (20000000000 + suspectNs s + 1 : Nat)).natAbs ∧ ((siteNs s : Int) - (20000000000 - suspectNs s : Nat)).natAbs ≤ suspectNs s ∧
    s.ref.lastSol = none ∧ timeState h = 2 ∧ h.ref.returned = false ∧ 3600 * rd REF_TIME_CFG_HOLD_LIMIT h ≤ holdSeconds h ∧ mayAccept o = true ∧ o.ref.agreeFrom = some (10 ^ 11 - 60 * 500000000) ∧
    500000000 * rd REF_TIME_CFG_CONFIRM o ≤ o.clk.frc - (10 ^ 11 - 60 * 500000000) ∧
    after .surveyRestart s (fun t => t.ref.pendingCmd == 1) = true ∧ after .mpSave (p 3) (fun t => t.ref.pendingCmd == 3 && res 6 0 0x58 4 4 0x06F4 t) = true ∧ after .timeAccept z (res 6 0 0x58 5 4 0x06F4) = true ∧
    after (.cycleStart (some m)) (p 3) (fun t => t.ref.pendingCmd == 0 && res 6 0 0x58 3 0 0 t) = true ∧ after (.cycleStart (some { m with spp := none })) (p 2) (res 6 0 0x58 2 4 0x06F4) = true ∧
    after (.cycleStart (some m)) (p 2) (fun t => t.ref.pos == some (0, 0, 0) && res 6 0 0x58 2 0 0 t) = true ∧ after (.cycleStart (some { m with spp := some (800000, 1, 0) })) (p 2) (res 6 0 0x58 2 4 0x0605) = true ∧
    after (.timeSolution 5 true 0) z (fun t => siteNs t == 5 && timeState t == 1) = true ∧ after (.timeSolution (20000000000 + suspectNs s + 1) true 0) s (fun t => timeState t == 2 && up REF_CNT_TIME_SUSPECT 1 s t) = true ∧
    after (.timeSolution (20000000000 - suspectNs s) true 0) s (fun t => timeState t == 1 && rdS REF_TIME_ERR t == suspectNs s) = true ∧ after .timeSolutionLoss s (fun t => timeState t == 2) = true ∧
    after .holdoverLimit h (fun t => timeState t == 3) = true ∧ after .timeConfirm o (fun t => timeState t == 1 && t.ref.acceptRem == 0xFFFFFF) = true := by decide +kernel

/-- What SOL's arithmetic gives for machine m, nothing excluded. -/
def solve (m : Nat) (done : Bool) : Solve :=
  { fleet := m, ready := done, codeFail := false, low := [], excl := [], fde := 0, resolves := 0, gated := [], nfix := 0, ratio := 0, pfExp := 0, same := false, keep := true, e := 0, n := 0, u := 0, ve := 0, vn := 0, vu := 0,
    heading := 0, sigMaj := 0, sigU := 0, slopeH := 0, slopeV := 0, pubOfs := 0 }

/-- Solver: member 255 at the end of its slot of cycle 400, done and not; a solution unfinished; no reference record; commands for a member and for none. -/
theorem witness_Solver :
    let s := air [(SOL_CTRL_EN, 1), (SOL_FLUME_REF_IN, 5)] [(255, idx9 .member 0)] []
    let sl := slotOfIdx 255 400 s
    let o : ObsIn := { fleet := 255, cycle := 399, slot := 3, regular := true, update := true, payload := [] }
    let w := { s with sol := { s.sol with open_ := [o], obs := [{ o with slot := 4 }] } }
    let f := { s with sol := { s.sol with filt := [(255, { cmd := 1 })] } }
    solOn s = true ∧ (flume (rd SOL_FLUME_REF_IN s) s).tags = [] ∧ s.sol.obs = [] ∧ s.sol.open_ = [] ∧ slotMembers sl (cycleNo s) s = [255] ∧ [solve 255 true].find? (fun z => z.fleet == 255) = some (solve 255 true) ∧
    w.sol.open_.find? (fun o => o.fleet == 255) = some o ∧ s.sol.ref = none ∧ s.sol.missed ≠ some (cycleNo s) ∧ isMember 254 s = false ∧ isMember 255 s = true ∧ (filt 255 f).cmd = 1 ∧ solOn (put [(SOL_CTRL_EN, 0)] w) = false ∧
    after (.slotEnd sl [solve 255 true]) s (fun t => (tfind 255 t.sol.newest).any (fun r => r.length == 64 && leAt r 0 4 == 400 && leAt r 4 1 == 255) && up SOL_CNT_MISSING 1 s t) = true ∧
    after (.slotEnd sl [solve 255 false]) s (fun t => t.sol.open_ == [{ o with cycle := 400, slot := sl }]) = true ∧ after (.slotEnd 4 []) (put [(SOL_CTRL_EN, 0)] w) (fun t => t.sol.obs == []) = true ∧
    after (.solDeadline (solve 255 true) 0) w (fun t => (tfind 255 t.sol.newest).any (fun r => leAt r 0 4 == 399 && bit (leAt r 6 2) 12) && up SOL_CNT_DEADLINE 1 w t) = true ∧
    after .solRefMissing s (fun t => rd SOL_STATUS_STATE t == 2 && t.sol.missed == some 400) = true ∧ after (.resetAmb 254) s (res 7 0 0x24 1 4 0x0709) = true ∧
    after (.resetAll 255) f (fun t => (filt 255 t).cmd == 2 && res 7 0 0x24 1 2 0 t) = true ∧ after .solLatClear (put [(SOL_LAT_MAX, 9)] s) (fun t => rd SOL_LAT_MAX t == 0) = true := by decide +kernel

/-! ### The service protocol -/

/-- A session not heard since FRC 7. -/
def sess : Session := { slot := 17, key := (List.range 32).map (fun i => BitVec.ofNat 8 (7 * i + 1)), peer := 9, top := 3, win := 1, last := 7 }

/-- A module in Ready that serves hosts, with one session, number 77. -/
def host (l : List (Fld × Nat)) (x : Session) : State :=
  let z := put ([(ETH_CTRL_EN 0, 1)] ++ l) ready
  { z with site := { z.site with service := true }, stw := { z.stw with sessions := [(77, x)] } }

/-- The datagram of a REQUEST, SEQ 4, in that session. -/
def ask (code : Nat) (p : List Byte) : List Byte := gspSealed sess.key (gspHeader 3 77 4 code 0 0 0 p.length) 1 77 4 p

/-- A module before site time in OPEN, where slot 16 is the onboarding slot; with n sessions open. -/
def greeted (n : Nat) : State :=
  let z := host [(KEY_STATUS_LIFECYCLE, 1)] sess
  { z with stw := { z.stw with sessions := (List.range n).map (fun i => (77 + i, sess)) } }

/-- HELLO under slot 16, before its HMAC. -/
def hello42 : List Byte := gspHeader 1 0 1 0 0 0 0 34 ++ leBytes 2 16 ++ List.replicate 16 3
def helloAll : List Byte := hello42 ++ (hmac onboardingKey hello42).take 16

theorem hello_mac (key d : List Byte) (h : d.length = 42) :
    (hmac key ((d ++ (hmac key d).take 16).take 42)).take 16 = slice (d ++ (hmac key d).take 16) 42 16 := by
  have e1 : (d ++ (hmac key d).take 16).take 42 = d := by rw [← h]; exact List.take_left' rfl
  rw [e1, slice, ← h, List.drop_left' rfl, List.take_take, Nat.min_self]

/-- HostSessions, HELLO: its form and its HMAC hold, three sessions and four. -/
theorem witness_Hello :
    serviceOn (greeted 3) = true ∧ (greeted 3).stw.sessions.length < 4 ∧ 4 ≤ (greeted 4).stw.sessions.length ∧ datagramOk helloAll = true ∧ leAt helloAll 3 1 = 1 ∧ leAt helloAll 24 2 = 16 ∧ lifecycle (greeted 3) ≠ 2 ∧
    folioKey (leAt helloAll 24 2) 1 (greeted 3) = .ok onboardingKey ∧ (hmac onboardingKey (helloAll.take 42)).take 16 = slice helloAll 42 16 := by
  refine ⟨by decide +kernel, by decide +kernel, by decide +kernel, by decide +kernel, by decide +kernel, by decide +kernel, by decide +kernel, ?_, hello_mac _ _ (by decide +kernel)⟩
  rw [show leAt helloAll 24 2 = 16 by decide +kernel]; rfl

/-- A datagram made under a session's key, without a payload, is a new REQUEST of that session. -/
theorem requests_bare (code : Nat) (x : Session) (s : State) (hs : serviceOn s = true) (hx : sessOf 77 s = some x) (hf : (dupFilter x.top x.win 4).1 = 0) (hb : x.busy.length < 8)
    (hd : datagramOk (gspSealed x.key (gspHeader 3 77 4 code 0 0 0 0) 1 77 4 []) = true) (hc : leAt (gspHeader 3 77 4 code 0 0 0 0) 12 2 = code) :
    Requests code (gspSealed x.key (gspHeader 3 77 4 code 0 0 0 0) 1 77 4 []) [] 77 4 x s := by
  have l : (gspHeader 3 77 4 code 0 0 0 0).length = 24 := by simp [gspHeader, leBytes]
  have e : ∀ i n, i + n ≤ 24 → leAt (gspSealed x.key (gspHeader 3 77 4 code 0 0 0 0) 1 77 4 []) i n = leAt (gspHeader 3 77 4 code 0 0 0 0) i n := by
    intro i n h; simp only [gspSealed, List.append_assoc]; exact leAt_head _ _ _ _ (by omega)
  refine ⟨hs, hd, ?_, ?_, ?_, ?_, hx, ?_, hf, hb⟩
  · rw [e _ _ (by omega)]; simp [gspHeader, leAt, slice, leBytes, ofLe]
  · rw [e _ _ (by omega)]; simp [gspHeader, leAt, slice, leBytes, ofLe]
  · rw [e _ _ (by omega)]; simp [gspHeader, leAt, slice, leBytes, ofLe]
  · rw [e _ _ (by omega)]; exact hc
  · have n0 : leAt (gspSealed x.key (gspHeader 3 77 4 code 0 0 0 0) 1 77 4 []) 18 2 = 0 := by rw [e _ _ (by omega)]; simp [gspHeader, leAt, slice, leBytes, ofLe]
    have t0 : (gspSealed x.key (gspHeader 3 77 4 code 0 0 0 0) 1 77 4 []).take 24 = gspHeader 3 77 4 code 0 0 0 0 := by
      simp only [gspSealed, List.append_assoc]; rw [← l]; exact List.take_left' rfl
    have s0 : slice (gspSealed x.key (gspHeader 3 77 4 code 0 0 0 0) 1 77 4 []) 24 16 = (gcmSeal x.key (gspNonce 1 77 4) (gspHeader 3 77 4 code 0 0 0 0) []).2.take 16 := by
      simp only [slice, gspSealed, List.append_assoc]; rw [← l, List.drop_left' rfl]; simp [gcmSeal, gcmCrypt, nums, octets, chunks]
    have g16 : (gcmSeal x.key (gspNonce 1 77 4) (gspHeader 3 77 4 code 0 0 0 0) []).2.take 16 = (gcmSeal x.key (gspNonce 1 77 4) (gspHeader 3 77 4 code 0 0 0 0) []).2 :=
      List.take_of_length_le (by simp [gcmSeal, gcmTag, octets, nums, xorL, beBytes, leBytes] <;> omega)
    rw [n0, t0, s0, g16]; simp [gcmOpen, gcmSeal, gcmCrypt, nums, octets, chunks, slice]

/-- HostSessions: the requests without a payload, whole and new. -/
theorem witness_Requests_bare :
    ∀ code ∈ [0x02, 0x03, 0x04, 0x3A, 0x50, 0x51, 0x40, 0x41, 0x42, 0x43], Requests code (ask code []) [] 77 4 sess (host [] sess) := by
  intro code hc
  have h : ([0x02, 0x03, 0x04, 0x3A, 0x50, 0x51, 0x40, 0x41, 0x42, 0x43].all (fun c => datagramOk (ask c []) && leAt (gspHeader 3 77 4 c 0 0 0 0) 12 2 == c)) = true := by decide +kernel
  have := List.all_eq_true.mp h code hc
  simp only [Bool.and_eq_true, beq_iff_eq] at this
  exact requests_bare code sess _ (by decide +kernel) rfl (by decide +kernel) (by decide +kernel) this.1 this.2

/-- The same session without a key, for which the ciphers are the identity: the requests with a payload, and what requests do, at less cost. -/
def keyless (x : Session) : Session := { x with key := [] }
def plain (code : Nat) (p : List Byte) : List Byte := gspSealed [] (gspHeader 3 77 4 code 0 0 0 p.length) 1 77 4 p

theorem witness_Requests_more :
    [(0x10, leBytes 4 0xE0000000 ++ leBytes 2 3), (0x10, leBytes 4 0xE01A0000 ++ leBytes 2 1), (0x11, leBytes 2 1 ++ leBytes 4 (addrOf 8 0x18) ++ leBytes 4 5), (0x12, leBytes 4 0x3FFFFFC ++ leBytes 2 4), (0x12, leBytes 4 0x3FFFFFC ++ leBytes 2 8), (0x38, leBytes 1 7 ++ leBytes 8 2), (0x39, leBytes 4 6)].all
      (fun (q : Nat × List Byte) => decide (Requests q.1 (plain q.1 q.2) q.2 77 4 (keyless sess) (host [] (keyless sess)))) = true := by decide +kernel

def streamed : Session := { sess with stream := some { classes := 7, next := 2, at_ := 0, open_ := [(5, [1]), (6, [2]), (7, [3])] } }
def filled : Session := { sess with stream := some { classes := 7, next := 2, at_ := 10 ^ 11 - 500000000, open_ := List.replicate 64 (5, [1, 2]) } }
def staged25 (s : State) : State := { s with evt := { s.evt with staged := (List.range 25).map (fun n => rec n 1) } }

/-- HostSessions: streams and the ages of sessions; addresses open and closed. -/
theorem witness_HostSessions :
    let s := host [] streamed
    stewardUp s = true ∧ 30000000000 ≤ s.clk.frc - streamed.last ∧ s.clk.frc - (10 ^ 11 - 29999999999) < 30000000000 ∧ s.clk.siteSet = true ∧ s.stw.sessions.filter (fun q => q.1 == 77) = [(77, streamed)] ∧ knownCode 4 = false ∧
    hostAddr 0xE0000008 = true ∧ hostAddr 0xE01A0000 = true ∧ closedBlk 0xE01A0000 = true ∧ closedBlk 0xE0000008 = false ∧ hostAddr (addrOf 8 0x18) = true ∧ ErrorFree s ∧
    ((ledgerFrom 7 2 (staged25 s)).take 20).length = 20 ∧ (((ledgerFrom 7 2 (staged25 s)).take 20).getLast?.map (fun r => r.seq)) = some 21 ∧ streamWaits 1320 s = false ∧
    500000000 ≤ (host [] filled).clk.frc - (10 ^ 11 - 500000000) ∧ streamWaits 2 (host [] filled) = false ∧
    after (.sessionTimeout 77) s (fun t => t.stw.sessions == []) = true ∧ after (.sessionTimeout 77) (host [] { sess with last := 10 ^ 11 - 29999999999 }) (fun t => t.stw.sessions.length == 1) = true := by decide +kernel

theorem test_streams :
    after (.streamSend 77) (staged25 (host [] streamed)) (fun t => (sessOf 77 t).any (fun y => y.streamSeq == 1 && y.stream.any (fun w => w.next == 22 && w.open_.length == 4))) = true ∧
    after (.streamResend 77) (host [] filled) (fun t => t.out == [.host 9 [1, 2]]) = true := by decide +kernel

theorem test_digest : after .digestSend (host [] { sess with digest := true }) (fun t => (sessOf 77 t).any (fun y => y.digestSeq == 1)) = true := by decide +kernel

theorem test_session_requests :
    after (.bye 9 (plain 2 [])) (host [] (keyless sess)) (fun t => t.stw.sessions == []) = true ∧ after (.digestOn 9 (plain 0x50 [])) (host [] (keyless sess)) (fun t => (sessOf 77 t).any (fun y => y.digest)) = true ∧
    after (.ledgerOpen 9 (plain 0x38 (leBytes 1 7 ++ leBytes 8 2))) (host [] (keyless sess)) (fun t => (sessOf 77 t).any (fun y => y.stream == some { classes := 7, next := 2 })) = true := by decide +kernel

theorem test_stream_requests :
    after (.ledgerAck 9 (plain 0x39 (leBytes 4 6))) (host [] (keyless streamed)) (fun t => (sessOf 77 t).any (fun y => y.stream == some { classes := 7, next := 2, at_ := 0, open_ := [(7, [3])] })) = true ∧
    after (.ledgerClose 9 (plain 0x3A [])) (host [] (keyless streamed)) (fun t => (sessOf 77 t).any (fun y => y.stream == none)) = true := by decide +kernel

theorem test_host_regWrite : after (.regWrite 9 (plain 0x11 (leBytes 2 1 ++ leBytes 4 (addrOf 8 0x18) ++ leBytes 4 5))) (host [] (keyless sess)) (fun t => rd CLM_FLUME_REQ t == 5) = true := by decide +kernel

/-- A module that serves hosts, its lane in a state, both channels closed. -/
def hostLane (st : Nat) (l : List (Fld × Nat)) : State := host ([(STP_STATUS_STATE, st), (STP_STATUS_PERMIT, if st = 1 then 1 else 0), (STP_STATUS_INA, 1), (STP_STATUS_INB, 1)] ++ l) (keyless sess)

theorem witness_HostLane :
    let p := hostLane 1 []
    let o := present (hostLane 4 [(STP_STATUS_FAULT, 1)])
    shadowing p = false ∧ lane p = 1 ∧ sourcesNow (setStp { p.stp with host := false } p) = 0 ∧ releaseCause (hostLane 2 []) = 0 ∧ releaseCause p ≠ 0 ∧ windowOpen p = false ∧ windowOpen o = true ∧ rd STP_STATUS_FAULT o = 1 ∧ shadowing o = false ∧
    on STP_STATUS_INA o = true ∧ on STP_STATUS_INB o = true := by decide +kernel

theorem test_host_stop :
    after (.hostStop 9 (plain 0x40 [])) (hostLane 1 []) (fun t => lane t == 2 && t.stp.host && rd STP_SERIAL_SERIAL t == 1) = true ∧
    after (.hostResume 9 (plain 0x41 [])) (let p := hostLane 1 []; { p with stp := { p.stp with host := true } }) (fun t => !t.stp.host && lane t == 1) = true := by decide +kernel

theorem test_host_release :
    after (.hostRelease 9 (plain 0x42 [])) (hostLane 2 []) (fun t => lane t == 3 && (sessOf 77 t).any (fun y => y.busy == [(4, 0x42)])) = true ∧
    after (.hostOverride 9 (plain 0x43 [])) (present (hostLane 4 [(STP_STATUS_FAULT, 1)])) (fun t => lane t == 2 && rd STP_STATUS_FAULT t == 0) = true := by decide +kernel

/-! ### Images, editions, keys -/

/-- An image header of one gathering: firmware (kind 1), edition of no site, no wrapping. -/
def head512 : List Byte := leBytes 4 0x31474D49 ++ [1, 1, 5, 0] ++ leBytes 4 65536 ++ leBytes 2 1 ++ leBytes 2 0 ++ leBytes 4 7 ++ List.replicate 492 0

/-- The download of it into slot 1, its lead hash as given, gatherings accepted as given. -/
def dl9 (lead : List Byte) (have_ : List Nat) : Dl := { kind := 1, slot := 1, size := 65536, lead := lead, header := head512, have_ := have_ }

/-- A module that serves hosts, UPD enabled, with a download, the pieces held and slot 1 in a state. -/
def down (dl : Option Dl) (pieces : Tbl (Tbl (List Byte))) (st : Nat) : State :=
  let z := host [(UPD_CTRL_EN, 1)] (keyless sess)
  { z with upd := { z.upd with dl := dl, pieces := pieces, slots := [(1, { st := st, header := head512 })] } }

def begin9 : List Byte := [1, 1] ++ leBytes 2 0 ++ leBytes 4 65536 ++ List.replicate 32 6 ++ head512
def put9 (g piece : Nat) : List Byte := leBytes 2 g ++ leBytes 1 piece ++ [0] ++ List.replicate 1024 9

/-- ImagesAndFuses, IMAGE_BEGIN: the request; a region that may be written and one that may not; the same download again, and another. -/
theorem witness_ImageBegin :
    let s := down none [] 0
    let o := down (some (dl9 (List.replicate 32 6) [])) [] 1
    begin9.length = 552 ∧ Requests 0x20 (plain 0x20 begin9) begin9 77 4 (keyless sess) s ∧ on UPD_CTRL_EN s = true ∧ headerOk 1 1 65536 head512 = true ∧ slice begin9 40 512 = head512 ∧ leAt begin9 2 2 = 0 ∧ (slotOf 1 s).st ≠ 5 ∧
    leAt head512 12 2 ≤ gatherMax 1 ∧ kindRegion 1 ∉ s.fsh.ro ∧ kindRegion 1 ∈ { s.fsh with ro := [4] }.ro ∧ slice begin9 8 32 = (dl9 (List.replicate 32 6) []).lead ∧ o.upd.dl = some (dl9 (List.replicate 32 6) []) := by decide +kernel

/-- ImagesAndFuses, GATHER_PUT: a piece of a new gathering, of gathering 0 and of 1; no download. -/
theorem witness_GatherPut :
    let s := down (some (dl9 [] [0])) [] 1
    (put9 1023 63).length = 1028 ∧ Requests 0x21 (plain 0x21 (put9 1 63)) (put9 1 63) 77 4 (keyless sess) s ∧ leAt (put9 1023 63) 0 2 = 1023 ∧ leAt (put9 1023 63) 2 1 = 63 ∧ leAt (put9 0 63) 3 1 = 0 ∧ 1 ∉ (dl9 [] [0]).have_ ∧
    tfind 63 (tget [] 1 s.upd.pieces) = none ∧ (tins 63 ((put9 1 63).drop 4) (tget [] 1 s.upd.pieces)).length < 64 ∧ (down none [] 0).upd.dl = none := by decide +kernel

/-- The 63 other pieces of a gathering, and the gathering they make with the one put. -/
def pieces63 (g : Nat) : Tbl (Tbl (List Byte)) := [(g, (List.range 63).map (fun i => (i, (put9 g i).drop 4)))]
def whole9 (g : Nat) : List Byte := joinPieces (tins 63 ((put9 g 63).drop 4) (tget [] g (pieces63 g)))

theorem shaBlock_length (h b : List Nat) (hl : h.length = 8) : (shaBlock h b).length = 8 := by
  have : ∀ (l : List Nat) (h : List Nat), h.length = 8 → (l.foldl shaRound h).length = 8 := by
    intro l; induction l with
    | nil => intro h hl; exact hl
    | cons x l ih => intro h hl; apply ih; unfold shaRound; split <;> simp_all
  simp only [shaBlock, List.length_zipWith, this _ _ hl, hl, Nat.min_self]

theorem sha256_length (m : List Byte) : (sha256 m).length = 32 := by
  have : ∀ (l : List (List Nat)) (h : List Nat), h.length = 8 → (l.foldl shaBlock h).length = 8 := by
    intro l; induction l with
    | nil => intro h hl; exact hl
    | cons x l ih => intro h hl; exact ih _ (shaBlock_length h x hl)
  have e : ∀ l : List Nat, (l.flatMap (fun w => beBytes 4 w)).length = 4 * l.length := by
    intro l; induction l with
    | nil => rfl
    | cons x l ih => rw [List.flatMap_cons, List.length_append, ih]; simp [beBytes, leBytes]; omega
  simp only [sha256, e, this _ shaH rfl]

theorem leads (lead : List Byte) : sha256 lead = ({ dl9 (sha256 lead) [] with header := lead.take 512 } : Dl).lead ∧ lead.take 512 = ({ dl9 (sha256 lead) [] with header := lead.take 512 } : Dl).header := ⟨rfl, rfl⟩

/-- ImagesAndFuses, the sixty-fourth piece: gathering 0 that agrees with its download and one that does not; gathering 1 that agrees with the manifest, of an image of two gatherings. -/
theorem witness_GatherWhole :
    let lead := whole9 0
    let d0 : Dl := { dl9 (sha256 lead) [] with header := lead.take 512 }
    let d1 : Dl := { dl9 [] [0] with header := head512.set 12 2, manifest := List.replicate 544 0 ++ sha256 (whole9 1) }
    64 ≤ (tins 63 ((put9 0 63).drop 4) (tget [] 0 (pieces63 0))).length ∧ (sha256 lead = d0.lead ∧ lead.take 512 = d0.header) ∧ lead.take 512 ≠ (dl9 [] []).header ∧
    0 ∈ d1.have_ ∧ 1 < leAt d1.header 12 2 ∧ plainOf d1.header 1 (whole9 1) (down (some d1) (pieces63 1) 1) = some (whole9 1) ∧ sha256 (whole9 1) = slice d1.manifest (512 + 32 * 1) 32 := by
  refine ⟨by decide +kernel, leads _, by decide +kernel, by decide +kernel, by decide +kernel, ?_, ?_⟩
  · exact if_pos (by decide +kernel)
  · simp only [slice]; rw [List.drop_left' (by rw [List.length_replicate]), List.take_of_length_le (Nat.le_of_eq (sha256_length _))]

/-- ImagesAndFuses, verification and activation: a slot RECEIVED, VERIFIED, neither; with and without presence; a trial that has held long enough and one short of it. -/
theorem witness_ImageStates :
    let d := some (dl9 [] [0])
    let r := down d [] 2
    let v := present (down d [] 3)
    let g := { r with upd := { r.upd with verifying := some 1 } }
    let b : BootPtr := { seq := 4, kinds := [{ conf := 0, trial := some 1 }, {}, {}] }
    let z := fun (f : Nat) => { put [(UPD_CTRL_CONFIRM_HOLD, 60)] (down none [] 5) with upd := { (put [(UPD_CTRL_CONFIRM_HOLD, 60)] (down none [] 5)).upd with bootA := some b, heldFrom := some f } }
    Requests 0x23 (plain 0x23 []) [] 77 4 (keyless sess) r ∧ Requests 0x24 (plain 0x24 [1]) [1] 77 4 (keyless sess) v ∧ r.upd.dl = d ∧ on UPD_CTRL_EN r = true ∧ (slotOf 1 r).st = 2 ∧ r.upd.verifying = none ∧ (slotOf 1 v).st = 3 ∧ windowOpen v = true ∧
    windowOpen r = false ∧ anyTrial v = false ∧ lane v ≠ 1 ∧ 0 ∉ v.fsh.ro ∧ (bootPtr v).kinds.length = 3 ∧ lane (put [(STP_STATUS_STATE, 1)] v) = 1 ∧ g.upd.verifying = some 1 ∧
    trialKind (z 0) = some 0 ∧ (bootKind 0 (z 0)).trial = some 1 ∧ trialHolds 0 (z 0) = true ∧ max 10 (min 540 (rd UPD_CTRL_CONFIRM_HOLD (z 0))) ≤ ((z 0).clk.frc - (10 ^ 11 - 30000000000)) / 500000000 ∧
    ((z 0).clk.frc - (10 ^ 11 - 29999999999)) / 500000000 < max 10 (min 540 (rd UPD_CTRL_CONFIRM_HOLD (z 0))) ∧
    after (.updVerify 1) r (fun t => t.upd.verifying == some 1 && res 27 0 0x3C 2 0 0 t) = true ∧ after (.updVerify 1) v (res 27 0 0x3C 2 4 0x1BF4) = true ∧
    after (.updActivate 1) v (fun t => (slotOf 1 t).st == 5 && (bootKind 0 t).trial == some 1 && t.upd.resetDue) = true ∧ after (.updActivate 1) (put [(STP_STATUS_STATE, 1)] v) (res 27 0 0x3C 3 4 0x1B0A) = true ∧
    after .updAbort r (fun t => t.upd.dl.isNone && (slotOf 1 t).st == 2 && res 27 0 0x3C 1 0 0 t) = true ∧ after .updAbort v (fun t => t.upd.dl.isNone) = true ∧ after (.verificationEnd [7] []) g (fun t => (slotOf 1 t).st == 4 && (slotOf 1 t).cause == 5) = true ∧
    after (.trialConfirm 0) (z (10 ^ 11 - 30000000000)) (fun t => bootKind 0 t == { conf := 1 } && (slotOf 1 t).st == 6 && ctrStep 0 t == 5) = true ∧ after (.trialConfirm 0) (z (10 ^ 11 - 29999999999)) (fun t => (bootKind 0 t).trial == some 1) = true := by decide +kernel

/-- crc32 with its value taken at every byte, which the checker evaluates without a deep stack. -/
def crcSteps : List Byte → Nat → Nat
  | [], c => c
  | b :: l, c => if crc32Byte c b = 0 then crcSteps l 0 else crcSteps l (crc32Byte c b)

theorem crc32_steps (l : List Byte) : crc32 l = crcSteps l 0xFFFFFFFF ^^^ 0xFFFFFFFF := by
  have : ∀ (l : List Byte) (c : Nat), l.foldl crc32Byte c = crcSteps l c := by
    intro l; induction l with
    | nil => intro c; rfl
    | cons b l ih => intro c; simp only [List.foldl_cons, crcSteps, ih]; split <;> simp_all
  simp only [crc32, this]

/-- An edition of site data, number 1, with its check sequence. -/
def edition9 : List Byte := leBytes 4 0x31444545 ++ [1] ++ List.replicate 1011 2 ++ leBytes 4 0x45325CB7 ++ leBytes 4 0

/-- ImagesAndFuses, fuses and flash: an edition that is sound and one that is not; counters; a spare and none left; the counters record's reasons. -/
theorem witness_Fuses :
    let s := present ready
    let f := put [(FSH_CTRL_EN, 1), (FSH_CTRL_WEAR_EN, 1)] ready
    let n := { f with fsh := { f.fsh with used := 205 } }
    let q := { ready with nv := { ready.nv with time := 0 } }
    editionOk (edition9.set 0 0) s = false ∧ s.otp.editions.length < 5 ∧ windowOpen s = true ∧ windowOpen ready = false ∧ ctrStep 3 s < min 127 200 ∧ min 127 0 ≤ ctrStep 3 s ∧
    f.pwr.off = false ∧ on FSH_CTRL_EN f = true ∧ f.held = [] ∧ sparesLeft f ≠ 0 ∧ sparesLeft n = 0 ∧ on FSH_CTRL_WEAR_EN f = true ∧ rd STP_SERIAL_SERIAL (put [(STP_SERIAL_SERIAL, 3)] q) ≠ q.nv.serial ∧ 2 ∉ q.fsh.ro ∧
    siteNs q < q.nv.time + 60000000000 ∧ rd STP_SERIAL_SERIAL q = q.nv.serial ∧ rd TWN_STATUS_TERM q = q.nv.term ∧ Settled evt ∧ on EVT_CTRL_EN evt = true ∧
    after (.otpWriteEdition (edition9.set 0 0) true false) s (res 28 0 0x14 1 4 0x1C01) = true ∧ after (.otpAdvance 3 200) s (fun t => ctrStep 3 t == 127) = true ∧ after (.otpAdvance 3 0) s (res 28 0 0x14 2 4 0x1C03) = true ∧
    after (.flashOpFail 7 true) f (fun t => t.fsh.used == 1 && up FSH_CNT_ERASE_FAIL 1 f t) = true ∧ after (.flashOpFail 7 false) n (fun t => t.fsh.ro == [7] && t.fsh.used == 205) = true ∧ after (.flashOpFail 8 false) n (fun t => t.fsh.ro == []) = true ∧
    after (.wearLevelling 7 40000 false) f (fun t => rd (FSH_REGION_MEAN 7) t == 40000 % 2 ^ 15) = true ∧ after (.wearLevelling 7 40000 true) f (fun t => up FSH_CNT_WEAR_DEFER 1 f t) = true ∧
    after .countersAppend (put [(STP_SERIAL_SERIAL, 3)] q) (fun t => t.nv.serial == 3 && t.nv.time == 20000000000) = true ∧ after .countersAppend q (fun t => t.nv == q.nv) = true ∧ after .second evt (fun t => bit (rd (EVT_PEND 7) t) 24) = true := by decide +kernel

theorem edition9_crc : crc32 (edition9.take 1016) = 0x45325CB7 := by rw [crc32_steps]; decide +kernel

theorem edition9_ok (s : State) (h : s.otp.editions = []) : editionOk edition9 s = true := by
  have a : (edition9.length == 1024 && leAt edition9 0 4 == 0x31444545 && leAt edition9 1016 4 == 0x45325CB7 && leAt edition9 1020 4 == 0 && leAt edition9 4 1 == 1) = true := by decide +kernel
  simp only [Bool.and_eq_true, beq_iff_eq] at a
  simp [editionOk, edition9_crc, a, h]

theorem witness_EditionWrite : edition9.length = 1024 ∧ Requests 0x28 (plain 0x28 edition9) edition9 77 4 (keyless sess) (present (host [] (keyless sess))) := by decide +kernel

/-! A program image of one operation: code at 0x4000, a graph, registers all zero, one flume. -/

def sect9 (kind off size addr crc : Nat) : List Byte := leBytes 4 kind ++ leBytes 4 off ++ leBytes 4 size ++ leBytes 4 addr ++ leBytes 4 size ++ leBytes 4 crc ++ leBytes 8 0
def code9 : List Byte := leBytes 4 0xD8000000
def graph9 : List Byte := leBytes 2 1 ++ leBytes 2 1 ++ leBytes 12 0 ++ (leBytes 2 0 ++ leBytes 2 1 ++ leBytes 4 0) ++ (leBytes 4 0x4000 ++ leBytes 4 0x8000 ++ leBytes 4 0 ++ leBytes 2 0xFFFF ++ leBytes 18 0)
def flumes9 : List Byte := leBytes 2 1 ++ leBytes 2 0 ++ leBytes 4 0x100000 ++ [1] ++ leBytes 7 0 ++ ([5, 1, 4, 0] ++ leBytes 4 0 ++ leBytes 8 0)
def image9 : List Byte :=
  leBytes 4 0x31465943 ++ leBytes 2 1 ++ [1, 4] ++ leBytes 4 0 ++ leBytes 4 0x4000 ++ leBytes 4 0 ++ leBytes 4 0x9000 ++ leBytes 4 3 ++ leBytes 4 32 ++
    (sect9 1 160 4 0x4000 0xA94C85FA ++ sect9 5 164 56 0 0xAAB20EFE ++ sect9 6 252 2048 0 0xF1E8BA9E ++ sect9 7 220 32 0 0x19A9E7BD) ++ code9 ++ graph9 ++ flumes9 ++ List.replicate 2048 0

/-- ImagesAndFuses, programs: a sound image in slot 2 and one whose magic is wrong; a program that runs; the lane in and out of PERMIT. -/
theorem witness_Programs :
    let z := host [] (keyless sess)
    let s := fun (img : List Byte) => { z with upd := { z.upd with slots := [(2, { st := 6, body := [(0, []), (1, img)] })] } }
    let r := { put [(STW_BOOT_STAGE, 3)] z with ccx := { z.ccx with cores := [(3, { st := .run })] } }
    Requests 0x30 (plain 0x30 []) [] 77 4 (keyless sess) (s []) ∧ Requests 0x31 (plain 0x31 []) [] 77 4 (keyless sess) z ∧ programRuns (s []) = false ∧ programSlot (s []) = some 2 ∧ awake z = true ∧ slotContent 2 (s image9) = image9 ∧
    imageOk (image9.set 0 0) = false ∧ programRuns r = true ∧ lane (put [(STP_STATUS_STATE, 1)] z) = 1 ∧ lane z ≠ 1 ∧
    after (.progStart 9 (plain 0x30 [])) (s (image9.set 0 0)) (fun t => rd CCX_CTRL_EN t == 0 && (coreOf 0 t).st == .off) = true ∧ after (.progHalt 9 (plain 0x31 [])) z (fun t => rd CCX_CTRL_EN t == 0) = true := by decide +kernel

theorem image9_sections : sectionsOf image9 =
    [{ kind := 1, addr := 0x4000, memSize := 4, crc := 0xA94C85FA, fileSize := 4, data := code9 }, { kind := 5, addr := 0, memSize := 56, crc := 0xAAB20EFE, fileSize := 56, data := graph9 },
      { kind := 6, addr := 0, memSize := 2048, crc := 0xF1E8BA9E, fileSize := 2048, data := List.replicate 2048 0 }, { kind := 7, addr := 0, memSize := 32, crc := 0x19A9E7BD, fileSize := 32, data := flumes9 }] := by decide +kernel

theorem image9_ok : imageOk image9 = true := by
  simp only [imageOk, image9_sections, crc32_steps]; decide +kernel

/-! ### Key changes -/

/-- A KEY_CHANGE payload: operation, usage, slot, parent, length, KCV and key or 36 zeros. -/
def change (op usage n parent len : Nat) (rest : List Byte) : List Byte := leBytes 1 op ++ leBytes 1 usage ++ leBytes 2 n ++ leBytes 2 parent ++ leBytes 1 len ++ leBytes 1 0 ++ padTo 36 rest

/-- A module that serves hosts under presence, quire 1 in place, and folio 20 (a link root) of it. -/
def keys9 (l : List (Fld × Nat)) : State :=
  let z := present (host ([(KEY_STATUS_DRBG_OK, 1)] ++ l) (keyless sess))
  { z with key := { z.key with recA := [(1, { now := some { kind := 1, usage := 15 } }), (20, { now := some { kind := 2, usage := 2, parent := 1, origin := 1 } })] } }

/-- KeyChanges: each operation's payload, whole and new; the first and last quire and folio; slots free and taken; both outcomes of a KCV. -/
theorem witness_KeyChanges :
    let s := keys9 []
    let kcv := kcvOf 4 (List.replicate 16 3)
    let imp := change 2 4 511 1 16 (kcv ++ [0] ++ List.replicate 16 3)
    let bad := change 2 4 511 1 16 ([kcv.headD 0 + 1, 0, 0, 0] ++ List.replicate 16 3)
    let z := { s with key := { s.key with window := none } }
    [change 1 15 15 0 0 [], imp, bad, change 3 4 16 1 32 [], change 4 4 511 1 16 [], change 5 0 1 0 0 [], change 6 0 0 0 0 []].all (fun p => keyPayloadOk p && decide (Requests 0x29 (plain 0x29 p) p 77 4 (keyless sess) s)) = true ∧
    windowOpen z = false ∧ windowOpen s = true ∧ quireRange 15 = true ∧ 3 ∉ s.fsh.ro ∧ slotNow 15 s = none ∧ on KEY_STATUS_DRBG_OK s = true ∧ folioRefusal 511 1 4 s = 0 ∧ folioRefusal 16 1 4 s = 0 ∧ (parentKey 1 s).isSome = true ∧ tfind 511 s.key.dbg = none ∧
    slice imp 8 3 = kcvOf 4 (slice imp 12 16) ∧ slice bad 8 3 ≠ kcvOf 4 (slice bad 12 16) ∧ (folioRange 20 = true ∨ quireRange 20 = true) ∧ lockedSlot 1 s = false ∧ slotNow 1 s = some { kind := 1, usage := 15 } ∧ isSealed 1 s = false ∧
    6 + 2 * s.key.recA.length ≤ 10 ∧ testRootOn s = false ∧ (s.key.recA.filter (fun r => r.1 == 1)).length ≤ 1 ∧ on STP_STATUS_PERMIT s = false ∧ ctrStep 3 s < 127 ∧ twnRole s = 0 ∧
    testRootOn (keys9 [(KEY_STATUS_TEST_ROOT, 1)]) = true := by decide +kernel

theorem test_destroyKey :
    after (.destroyKey 9 (plain 0x29 (change 5 0 1 0 0 [])) 10) (keys9 []) (fun t => slotRec 1 t == none && (slotRec 20 t).any (fun c => c.st == 2)) = true := by decide +kernel

theorem test_decommission :
    after (.decommission 9 (plain 0x29 (change 6 0 0 0 0 []))) (keys9 []) (fun t => t.key.recA == [] && ctrStep 3 t == 1 && lifecycle t == 1 && t.stw.sessions == []) = true := by decide +kernel

/-- KeyChanges, the rest: DEBUG_ENABLE in and out of PERMIT, TWIN_PAIR, CASCADE_JOIN to the last member. -/
theorem witness_Joins :
    let s := keys9 []
    let p := keys9 [(STP_STATUS_PERMIT, 1)]
    Requests 0x2A (plain 0x2A []) [] 77 4 (keyless sess) s ∧ Requests 0x2B (plain 0x2B [1, 2, 3, 4, 5, 6, 7, 8]) [1, 2, 3, 4, 5, 6, 7, 8] 77 4 (keyless sess) s ∧
    Requests 0x2C (plain 0x2C ([1, 2, 3, 4, 5, 6, 7, 8] ++ [7])) ([1, 2, 3, 4, 5, 6, 7, 8] ++ [7]) 77 4 (keyless sess) s ∧ on STP_STATUS_PERMIT p = true ∧ twnRole s = 0 ∧ on CAS_CTRL_EN s = false ∧ leAt ([1, 2, 3, 4, 5, 6, 7, 8] ++ [7]) 8 1 < 8 ∧
    after (.debugEnable 9 (plain 0x2A [])) s (fun t => on KEY_STATUS_DEBUG t && on KEY_STATUS_TEST_ROOT t) = true ∧ after (.debugEnable 9 (plain 0x2A [])) p (fun t => !on KEY_STATUS_DEBUG t) = true ∧
    after (.cascadeJoin 9 (plain 0x2C ([1, 2, 3, 4, 5, 6, 7, 8] ++ [7]))) s (fun t => on CAS_CTRL_EN t && rd CAS_CTRL_MEMBER t == 7 && casState t == 1) = true := by decide +kernel

theorem test_twinPair :
    after (.twinPair 9 (plain 0x2B [1, 2, 3, 4, 5, 6, 7, 8]) (some [])) (keys9 []) (fun t => t.nv.pair == some [1, 2, 3, 4, 5, 6, 7, 8] && twnRole t == 1 && on TWN_CTRL_EN t) = true ∧
    after (.twinPair 9 (plain 0x2B [1, 2, 3, 4, 5, 6, 7, 8]) none) (keys9 []) (fun t => t.nv.pair == none) = true := by decide +kernel

/-! ### The pair -/

/-- The pair on in a role, TERM 7, link up, its SEQ at the last number before it wraps. -/
def pair (r : Nat) (l : List (Fld × Nat)) : State :=
  put ([(TWN_CTRL_EN, 1), (TWN_STATUS_ROLE, r), (TWN_STATUS_TERM, 7), (TWN_SEQ, 0xFFFFFFFF), (AIR_CTRL_TX_EN, 1), (STP_STATUS_INA, 1), (STP_STATUS_INB, 1), (ETH_STATUS_LINK (rd TWN_CTRL_PORT State.reset), 1)] ++ l) ready

def failed (i : Instr) (s : State) : Bool := after i s (fun t => up TWN_CNT_LINK_BAD 1 s t && twnRole t == twnRole s)

/-- TwinPair: frames of each kind, false and true, in each role the statement speaks of; records at SEQ, one on and two on, across the wrap. -/
theorem witness_TwinFrames :
    let a := pair 2 []
    let b := pair 3 []
    let y := { b with twn := { b.twn with yieldAt := some (4, 1) } }
    let k := pair 2 [(STP_STATUS_STATE, 1), (STP_STATUS_PERMIT, 1)]
    twnOn a = true ∧ twnRole a = 2 ∧ rd TWN_STATUS_TERM a < 8 % 65536 ∧ 65543 % 65536 ≤ rd TWN_STATUS_TERM a ∧ twnRole b = 3 ∧ b.twn.yieldAt = none ∧ y.twn.yieldAt ≠ none ∧ sgn 32 (0 % 2 ^ 32 + 2 ^ 32 - twnSeq b) = 1 ∧ sgn 32 (1 % 2 ^ 32 + 2 ^ 32 - twnSeq b) = 2 ∧
    sgn 32 (0xFFFFFFFF % 2 ^ 32 + 2 ^ 32 - twnSeq b) = 0 ∧ lane k = 1 ∧ twnRole (pair 1 []) = 1 ∧ twnRole (pair 4 []) = 4 ∧
    (failed (.leaseRx false 0 0 0 0) a && failed (.standbyFrame false 0 0 0 false false 0) a && failed (.mirrorFrame false 0 (.items 3)) b && failed (.yieldFrame false 0 0 0) b && failed (.resyncFrame false 0 []) a && failed (.ioFrame false [] 0 []) a) = true ∧
    after .leaseTx a (fun t => t.out == [.lease 7 20000000000 0xFFFFFFFF 0 (rd STP_STATUS_ACTIVE a)]) = true ∧ after (.leaseRx true 9 0 0 0) (pair 1 []) (fun t => twnRole t == 4 && rd TWN_STATUS_TERM t == 9) = true ∧
    after (.leaseRx true 8 0 0 0) a (fun t => twnRole t == 4 && !on AIR_CTRL_TX_EN t) = true ∧ after (.leaseRx true 65543 0 0 0) a (fun t => twnRole t == 2) = true ∧
    after (.leaseRx true 7 0 0xFFFFFFFF 0) b (fun t => twnRole t == 3 && t.twn.leaseAt == some (10 ^ 11)) = true ∧ after (.leaseRx true 7 0 0 0) b (fun t => twnRole t == 4) = true ∧
    after (.standbyFrame true 7 0x1FF 5 true true 0) k (fun t => lane t == 2 && on TWN_STATUS_PARTNER_FIT t && t.twn.partnerSeq == 5) = true ∧
    after (.mirrorFrame true 0 (.orders [])) b (fun t => twnSeq t == 0 && twnRole t == 3) = true ∧ after (.mirrorFrame true 0xFFFFFFFF (.items 3)) b (fun t => t.twn.items == 0) = true ∧ after (.mirrorFrame true 1 (.items 3)) b (fun t => twnRole t == 4) = true ∧
    after (.mirrorFrame true 0 (.claim 3 (some claim5))) b (fun t => claim? 3 t == some claim5) = true ∧ after (.resyncFrame true 5 []) (pair 4 []) (fun t => twnRole t == 3 && twnSeq t == 5 && t.twn.whole) = true := by decide +kernel

/-- TwinPair, takeover and yield: a fit standby with its lease just over and a tick before; a fit partner and none; a starting module alone for two cycles, and of lower EUI-64. -/
theorem witness_TwinRoles :
    let b := pair 3 [(TWN_HEALTH_FIT, 1)]
    let l := fun f => { b with twn := { b.twn with leaseAt := some f } }
    let a := pair 2 [(TWN_STATUS_PARTNER_FIT, 1)]
    let s := pair 1 []
    let z := { s with twn := { s.twn with startAt := 10 ^ 11 - 50000000 } }
    selfFit b = true ∧ selfFit (pair 3 []) = false ∧ since (l (10 ^ 11 - leaseTicks b)).twn.leaseAt (leaseTicks b) b = true ∧ since (l (10 ^ 11 - leaseTicks b + 1)).twn.leaseAt (leaseTicks b) b = false ∧ rd TWN_STATUS_TERM b ≤ 7 % 65536 ∧
    partnerFit a = true ∧ partnerFit (pair 2 []) = false ∧ twnRole s = 1 ∧ cycleLen z ≤ z.clk.frc - z.twn.startAt ∧ ¬(cycleLen z ≤ z.clk.frc - (z.twn.startAt + 1)) ∧ twnOn ready = false ∧
    after (.hopCheck true) b (fun t => twnRole t == 3) = true ∧ after .twnYield a (fun t => twnRole t == 3 && t.twn.yieldAt == some (yieldHop a) && res 24 0 0x24 1 0 0 t) = true ∧ after .twnYield (pair 2 []) (res 24 0 0x24 1 4 0x1802) = true ∧
    after .transmitChainFault a (fun t => twnRole t == 3 && up TWN_CNT_YIELD 1 a t) = true ∧ after .twnYield b (res 24 0 0x24 1 4 0x18F4) = true ∧ after .twnResync (pair 4 []) (fun t => t.out == [.askResync] && res 24 0 0x24 2 0 0 t) = true ∧
    after (.twinStartTimeout false false) z (fun t => twnRole t == 2 && rd TWN_STATUS_TERM t == 8) = true ∧ after (.twinStartTimeout true false) z (fun t => twnRole t == 1) = true := by decide +kernel

theorem test_takeover : after (.hopCheck false) (pair 3 [(TWN_HEALTH_FIT, 1)]) (fun t => twnRole t == 2 && rd TWN_STATUS_TERM t == 8 && on AIR_CTRL_TX_EN t && t.stw.sessions == []) = true := by decide +kernel

/-- TwinPair, the I/O module, its active and pairing. -/
theorem witness_TwinIo :
    let i := put [(DIO_CTRL_EN, 1), (DIO_CTRL_OUT_EN, 1), (STP_STATUS_STATE, 1), (STP_STATUS_PERMIT, 1)] (pair 3 [(TWN_CTRL_IO_EN, 1)])
    let a := pair 2 [(TWN_CTRL_IO_EN, 1), (TWN_CTRL_IO_HOME, 1)]
    let h := { i with twn := { i.twn with ioAt := some (10 ^ 11 - 2500000) }, pro := { i.pro with chans := [(263, { mode := .idle })] } }
    let p := present (put [(TWN_PARTNER_LO, 5)] ready)
    let u := present (pair 3 [])
    ioModule i = true ∧ ([(263, ({ mode := .run } : Chan)), (264, { mode := .run })].filter (fun p => p.1 == 263)).length = 1 ∧ doubleFaulted i = false ∧ laneInPermit i = true ∧ ioModule a = false ∧ on TWN_CTRL_IO_EN a = true ∧ on TWN_CTRL_IO_HOME a = true ∧
    h.twn.ioHeld = false ∧ since h.twn.ioAt 2500000 h = true ∧ shadowing i = true ∧ twnRole p = 0 ∧ windowOpen p = true ∧ windowOpen ready = false ∧ twnRole u ≠ 0 ∧ windowOpen u = true ∧ partnerFit u = false ∧ partnerFit (put [(TWN_STATUS_PARTNER_FIT, 1)] u) = true ∧
    after (.ioFrame true [(263, { mode := .run }), (264, { mode := .run })] 0x81 []) i (fun t => (chan? 263 t).any (fun c => c.mode == .run) && (chan? 264 t).isNone && rd DIO_OUT_OUT t == 0x81) = true ∧
    after (.ioFrame true [] 0 [(22, 0x40, 9), (5, 0, 1)]) a (fun t => tfind 0x40 t.axs.regs == some 9) = true ∧ after .ioLoss h (fun t => t.twn.ioHeld && (chan? 263 t).any (fun c => c.mode == .hold)) = true ∧
    after (.standbyTx 0) i (fun t => t.out.any (fun e => match e with | .standby 7 _ _ _ => true | _ => false)) = true ∧
    after (.twnPair (some [])) p (fun t => twnRole t == 1 && t.nv.pair == some [5, 0, 0, 0, 0, 0, 0, 0] && res 24 0 0x24 3 0 0 t) = true ∧ after (.twnPair none) p (res 24 0 0x24 3 4 0x1803) = true ∧ after (.twnPair none) ready (res 24 0 0x24 3 4 0x18F0) = true ∧
    after (.twnUnpair false) u (fun t => twnRole t == 0 && !on TWN_CTRL_EN t && res 24 0 0x24 4 0 0 t) = true ∧ after (.twnUnpair false) (put [(TWN_STATUS_PARTNER_FIT, 1)] u) (res 24 0 0x24 4 4 0x1803) = true := by decide +kernel

/-! ### The cascade -/

/-- A headwater with member 7 (fleet owners 1792 to 2047), CLM in RUN. -/
def headw (l : List (Fld × Nat)) (lost : Option Nat) : State :=
  let z := put ([(CAS_CTRL_EN, 1), (CAS_CTRL_ROLE, 1), (CAS_STATUS_STATE, 6), (CAS_STATUS_PRESENT, 0x80), (CLM_CTRL_EN, 1), (CLM_STATUS_STATE, 2)] ++ l) ready
  { z with cas := { z.cas with members := [(7, { eui := eui9, group := 9, u := 0, lostAt := lost })] } }

/-- A tributary, member 7, in a state. -/
def trib (st : Nat) (l : List (Fld × Nat)) : State :=
  put ([(CAS_CTRL_EN, 1), (CAS_CTRL_ROLE, 2), (CAS_CTRL_MEMBER, 7), (CAS_STATUS_STATE, st), (CLM_CTRL_EN, 1), (CLM_STATUS_STATE, 2)] ++ l) ready

/-- Cascade, the headwater: heartbeats, members, joins, reconciliation, eviction at 60 s and before, stop notices, progress. -/
theorem witness_CascadeHead :
    let s := headw [] none
    let c := { claim5 with owner := 1793 }
    let z := headw [(STP_STATUS_STATE, 2)] (some (10 ^ 11 - 30000000000))
    let q := { z with clm := { z.clm with claims := [(3, c), (4, claim5)], paths := [(5, [4]), (1793, [3])] } }
    let p := headw [(STP_STATUS_STATE, 1), (STP_STATUS_PERMIT, 1), (STP_STATUS_INA, 1), (STP_STATUS_INB, 1)] none
    heads s = true ∧ (tfind 7 s.cas.members).isSome = true ∧ claim? 3 q = some c ∧ c.owner / 256 = 7 ∧ claim5.owner / 256 ≠ 7 ∧ 30000000000 ≤ z.clk.frc - (10 ^ 11 - 30000000000) ∧ lane z = 2 ∧ lane s ≠ 2 ∧ s.held = [] ∧ clmState s ≠ 0 ∧
    s.clm.claims.any (fun p => p.2.owner / 256 == 7) = false ∧ q.clm.claims.any (fun p => p.2.owner / 256 == 7) = true ∧ casOn p = true ∧ rd CAS_LAT p < 2 ^ 32 ∧ shadowing p = false ∧ lane p = 1 ∧ 1 % 256 - bits (1 % 256) 5 1 * 32 ≠ 0 ∧
    joinCause 6 1 0 0 s.site.epoch 0 0 0 0 s = 0 ∧ joinCause 7 1 0 0 s.site.epoch 0 0 0 0 s = 0x1902 ∧ 1793 / 256 = 7 ∧
    after .heartbeatTx s (fun t => t.out == [.heartbeat 20000000000 400]) = true ∧ after (.reconciliation 7 [3, 4] [] []) q (fun t => (claim? 3 t).isNone && (claim? 4 t).isSome && t.out.contains (.reconciled 7)) = true ∧
    after (.casEvict 7) q (fun t => t.cas.members == [] && (claim? 3 t).isNone && (claim? 4 t).isSome && res 25 0 0x24 3 0 0 t) = true ∧ after (.casEvict 7) s (res 25 0 0x24 3 4 0x1906) = true ∧
    after (.latencyMeasure [(7, none)]) s (fun t => bit (rd CAS_STATUS_UNREACH t) 7) = true ∧ after (.latencyMeasure [(7, some 70000)]) s (fun t => rd CAS_LAT t == 0xFFFFFFFF) = true ∧
    after (.cascadeLinkFrame true (.leave 7)) s (fun t => t.cas.members == [] && t.out == [.cas (some 7) (.leaveAnswer 0)]) = true ∧ after (.cascadeLinkFrame true (.leave 7)) q (fun t => t.out == [.cas (some 7) (.leaveAnswer 0x1904)]) = true ∧
    after (.cascadeStopNotice 7 true 1) p (fun t => lane t == 2 && bit (rd STP_STATUS_ACTIVE t) 5) = true ∧ after (.cascadeLinkFrame true (.join 7 eui9 1 0 0 0 0 0 0 0)) s (fun t => t.out == [.cas (some 7) (.refused 0x1902)]) = true ∧
    after (.cascadeLinkFrame true (.join 6 eui9 1 0 0 s.site.epoch 0 0 0 0)) s (fun t => (tfind 6 t.cas.members).isSome && bit (rd CAS_STATUS_PRESENT t) 6) = true ∧
    after (.cascadeLinkFrame true (.progress 7 [(1793, 3, 100, 50), (5, 4, 1, 1)])) s (fun t => t.clm.prog == [(1793, { claim := 3, station := 100, hpl := 50 })]) = true ∧ after (.cascadeLinkFrame false (.leave 7)) s (fun t => t.cas == s.cas) = true := by decide +kernel

/-- Cascade, a tributary: joining with and without presence, its time-out, alignment at 10 s and before, heartbeats, isolation at HW_LEASE, reconciliation, leaving, the replica. -/
theorem witness_CascadeTrib :
    let s := trib 3 []
    let i := { trib 4 [] with cas := { (trib 4 []).cas with freed := [3] } }
    let o := { trib 0 [] with key := (present (trib 0 [])).key }
    let j := fun f => { trib 1 [] with cas := { (trib 1 []).cas with joinAt := some f } }
    let al := fun f => { trib 2 [] with cas := { (trib 2 []).cas with alignedFrom := some f }, air := { (trib 2 []).air with withheld := true } }
    let b := fun f => { s with cas := { s.cas with beatAt := some f }, clm := { s.clm with claims := [(3, { claim5 with owner := 1793 })], forwarded := [(1793, 7, 1)] } }
    isTrib s = true ∧ 2 ≤ casState s ∧ casState i = 4 ∧ since (b (10 ^ 11 - hwLease s)).cas.beatAt (hwLease s) s = true ∧ since (b (10 ^ 11 - hwLease s + 1)).cas.beatAt (hwLease s) s = false ∧ casState (trib 5 []) = 5 ∧ windowOpen o = true ∧ windowOpen s = false ∧
    isTrib ready = false ∧ casState o = 0 ∧ since (j (10 ^ 11 - 500000000)).cas.joinAt 500000000 s = true ∧ 5000000000 ≤ s.clk.frc - (10 ^ 11 - 5000000000) ∧ s.clk.frc - (10 ^ 11 - 4999999999) < 5000000000 ∧ heads s = false ∧ on CLM_CTRL_EN s = true ∧
    after (.heartbeatRx true 20000000000 5) i (fun t => casState t == 5 && t.out.contains (.reconcile [3] [])) = true ∧ after (.heartbeatRx false 0 0) i (fun t => casState t == 4) = true ∧
    after .headwaterLost (b (10 ^ 11 - hwLease s)) (fun t => casState t == 4 && clmState t == 3 && t.cas.orphans == [(1793, 7)] && t.clm.claims.length == 1) = true ∧ after .headwaterLost (b (10 ^ 11 - hwLease s + 1)) (fun t => casState t == 3) = true ∧
    after (.reconciliation 0 [] [] [(4, { claim5 with owner := 1793 })]) (trib 5 []) (fun t => casState t == 3 && clmState t == 2 && (claim? 4 t).isSome) = true ∧ after .casJoin o (fun t => casState t == 1 && t.out == [.cas none (joinFrameOf o)]) = true ∧
    after .casJoin s (res 25 0 0x24 1 4 0x19F0) = true ∧ after .casJoin (present ready) (res 25 0 0x24 1 4 0x1908) = true ∧ after .casLeave ready (res 25 0 0x24 2 4 0x1908) = true ∧ after .casLeave s (fun t => t.out == [.cas none (.leave 7)]) = true ∧
    after .casJoinTimeout (j (10 ^ 11 - 500000000)) (fun t => casState t == 0 && res 25 0 0x24 1 1 0x1901 t) = true ∧ after .alignHold (al (10 ^ 11 - 5000000000)) (fun t => casState t == 3 && !t.air.withheld) = true ∧
    after .alignHold (al (10 ^ 11 - 4999999999)) (fun t => casState t == 2) = true ∧ after (.cascadeLinkFrame true (.accept [eui9] [])) (trib 1 []) (fun t => casState t == 2 && t.cas.heads == [eui9] && t.air.withheld) = true ∧
    after (.cascadeLinkFrame true (.refused 0x1904)) (trib 1 []) (fun t => casState t == 0 && res 25 0 0x24 1 4 0x1904 t) = true ∧ after (.cascadeLinkFrame true (.leaveAnswer 0)) s (fun t => casState t == 0 && clmState t == 0) = true ∧
    after (.cascadeLinkFrame true (.leaveAnswer 0x1904)) s (fun t => casState t == 3 && res 25 0 0x24 2 4 0x1904 t) = true ∧ after (.cascadeLinkFrame true (.replica 9 (some claim5))) s (fun t => claim? 9 t == some claim5) = true ∧
    after (.cascadeLinkFrame true (.replica 3 none)) (b 0) (fun t => t.clm.claims == []) = true ∧ after (.cascadeLinkFrame true (.result [0, 0, 0, 0])) s (fun t => casState t == 3) = true := by decide +kernel

/-! ### Power and resets -/

/-- A module in a PWR state (0 Watch, 1 Ready, 2 Run), with some registers. -/
def pwrIn (st : Nat) (l : List (Fld × Nat)) : State := put ([(PWR_STATUS_STATE, st)] ++ l) ready

/-- PowerAndResets, the commands: RUN in Ready with and without site time, in Run, in Watch, in a thermal stop and while Watch is being entered; READY and WATCH in and out of PERMIT; RESET in PERMIT. -/
theorem witness_PowerCommands :
    let r := pwrIn 1 []
    let n := { r with clk := { r.clk with siteSet := false } }
    let en := { r with pwr := { r.pwr with entering := true } }
    let w := pwrIn 0 []
    let b := { pwrIn 2 [] with air := { (pwrIn 2 []).air with burstEnd := some 20000000001 } }
    let th := pwrIn 1 [(PWR_STATUS_THERM_STOP, 1)]
    let p := pwrIn 2 [(STP_STATUS_STATE, 1)]
    awake r = true ∧ inWatch w = true ∧ r.pwr.thermalWatch = false ∧ bursting b = true ∧ bursting (pwrIn 2 []) = false ∧ lane r ≠ 1 ∧ lane p = 1 ∧ on PWR_STATUS_THERM_STOP r = false ∧
    after .pwrRun r (fun t => pwrState t == 2 && res 1 0 0x0C 1 0 0 t) = true ∧ after .pwrRun w (fun t => pwrState t == 2 && res 1 0 0x0C 1 0 0 t && rd PWR_CNT_WAKE t == 1) = true ∧
    after .pwrRun n (fun t => pwrState t == 1 && on PWR_STATUS_RUN_PENDING t && t.pwr.runCmd) = true ∧ after .pwrRun en (fun t => pwrState t == 1 && on PWR_STATUS_RUN_PENDING t) = true ∧
    after .pwrRun (pwrIn 2 []) (res 1 0 0x0C 1 4 0x01F4) = true ∧ after .pwrRun th (fun t => res 1 0 0x0C 1 4 0x0103 t && rd PWR_CNT_CMD_REFUSED t == 1) = true ∧
    after .pwrReady (pwrIn 2 []) (fun t => pwrState t == 1 && res 1 0 0x0C 2 0 0 t) = true ∧ after .pwrReady b (fun t => pwrState t == 2 && t.pwr.stopping) = true ∧ after .pwrReady w (fun t => pwrState t == 1) = true ∧
    after .pwrReady r (res 1 0 0x0C 2 4 0x01F4) = true ∧ after .pwrReady p (fun t => pwrState t == 2 && res 1 0 0x0C 2 4 0x0101 t) = true ∧ after .pwrWatch p (res 1 0 0x0C 3 4 0x0101) = true ∧ after .pwrWatch (pwrIn 2 []) (res 1 0 0x0C 3 4 0x0102) = true ∧
    after .pwrWatch (put [(CCX_CTRL_EN, 6)] r) (fun t => t.pwr.entering && t.pwr.savedEn == 6 && rd CCX_CTRL_EN t == 0 && res 1 0 0x0C 3 0 0 t) = true ∧ after (.pwrReset {}) p (fun t => lane t == 1 && res 1 0 0x0C 4 4 0x0101 t) = true := by decide +kernel

/-- PowerAndResets, Watch and wake: the entry with nothing, a wake (CAN0 and DI15) and a RUN pending; wakes enabled and not; RUN entry; AUTO_RUN. -/
theorem witness_Wake :
    let en := fun (w : Option Nat) (l : List (Fld × Nat)) => { pwrIn 1 l with pwr := { (pwrIn 1 l).pwr with entering := true, pendingWake := w } }
    let w := fun (l : List (Fld × Nat)) => pwrIn 0 l
    let q := pwrIn 1 [(PWR_STATUS_RUN_PENDING, 1)]
    let n := { pwrIn 1 [] with clk := { (pwrIn 1 []).clk with siteSet := false } }
    coresIdle (en none []) = true ∧ isWakeSource 1 = true ∧ isWakeSource 31 = true ∧ isWakeSource 7 = false ∧ mayRun q = true ∧ q.pwr.off = false ∧ q.pwr.entering = false ∧ mayRun n = false ∧
    wakeBit PWR_WAKE_EN_DI PWR_WAKE_EN_SRC 31 (w [(PWR_WAKE_EN_DI, 0x8000)]) = true ∧ wakeBit PWR_WAKE_EN_DI PWR_WAKE_EN_SRC 1 (w [(PWR_WAKE_EN_SRC, 0)]) = false ∧ wakeBit PWR_WAKE_TGT_DI PWR_WAKE_TGT_SRC 1 (w [(PWR_WAKE_TGT_SRC, 2)]) = true ∧
    after .watchEntryDone (en none []) (fun t => pwrState t == 0 && !t.pwr.entering && t.pwr.watchAt == 20000000000) = true ∧
    after .watchEntryDone (en none [(PWR_STATUS_RUN_PENDING, 1)]) (fun t => pwrState t == 2 && rd PWR_CNT_WAKE t == 1) = true ∧
    after .watchEntryDone (en (some 1) []) (fun t => pwrState t == 1 && rd PWR_WAKE_SRC_SRC t == 2) = true ∧ after (.wake 31) (w [(PWR_WAKE_EN_DI, 0x8000)]) (fun t => pwrState t == 1 && rd PWR_WAKE_SRC_DI t == 0x8000) = true ∧
    after (.wake 1) (w [(PWR_WAKE_EN_SRC, 2), (PWR_WAKE_TGT_SRC, 2)]) (fun t => pwrState t == 2) = true ∧ after (.wake 1) (w [(PWR_WAKE_EN_SRC, 0)]) (fun t => pwrState t == 0) = true ∧ after (.wake 1) (en none [(PWR_WAKE_EN_SRC, 2)]) (fun t => t.pwr.pendingWake == some 1) = true ∧
    after .runEntry q (fun t => pwrState t == 2 && !on PWR_STATUS_RUN_PENDING t) = true ∧ after .autoRunSet (pwrIn 1 []) (fun t => pwrState t == 2) = true ∧ after .autoRunSet n (fun t => pwrState t == 1 && on PWR_STATUS_RUN_PENDING t) = true := by decide +kernel

/-- PowerAndResets, supplies and temperature: 8.49 V and 8.5 V; readings at T_GOV, one below T_STOP, at T_STOP, below T_GOV. -/
theorem witness_Temperature :
    let r := put [(PWR_CTRL_GOV_EN, 1), (PWR_THERM_T_GOV, 115), (PWR_THERM_T_STOP, 140), (PWR_THERM_T_OFF, 150)] (pwrIn 2 [])
    r.pwr.romFail = false ∧ r.held = [] ∧ r.pwr.govRows = [] ∧ rd PWR_THERM_T_OFF r = 150 ∧ on PWR_CTRL_GOV_EN r = true ∧ shadowing r = false ∧ on PWR_STATUS_THERM_STOP (put [(PWR_STATUS_THERM_STOP, 1)] r) = true ∧
    after (.supplyWarn 849) r (fun t => rd PWR_SUPPLY_LOGIC t == 849 && t.stp.program && rd PWR_CNT_SUPPLY_WARN t == 1) = true ∧ after (.supplyWarn 850) r (fun t => rd PWR_CNT_SUPPLY_WARN t == 0) = true ∧
    after (.temperatureReading 115 1200 2400 {}) r (fun t => rd AIR_TXPWR_GOV t == 2 && rd PWR_STATUS_CORE_STEP t == 0 && rd PWR_SUPPLY_LOGIC t == 1200 && rd PWR_STATUS_TEMP t == 115) = true ∧
    after (.temperatureReading 139 1200 2400 {}) r (fun t => rd AIR_TXPWR_GOV t == 24 && rd PWR_STATUS_CORE_STEP t == 3) = true ∧
    after (.temperatureReading 140 1200 2400 {}) r (fun t => pwrState t == 1 && on PWR_STATUS_THERM_STOP t && rd PWR_CNT_THERM_STOP t == 1) = true ∧
    after (.temperatureReading 114 1200 2400 {}) (put [(PWR_STATUS_THERM_STOP, 1)] r) (fun t => !on PWR_STATUS_THERM_STOP t) = true := by decide +kernel

/-- PowerAndResets, resets: the premises of each kind; a double fault 10 s old; a ROM that has failed; a trial 600 s old and one a second short of it; power loss. -/
theorem witness_Resets :
    let r := pwrIn 1 []
    let d := put [(EVT_CTRL_DF_RESET, 10), (STP_STATUS_FAULT, 2)] r
    let df := { d with evt := { d.evt with dfAt := 10 ^ 11 - 5000000000 } }
    let f := { r with pwr := { r.pwr with romFail := true } }
    let a := { r with upd := { r.upd with resetDue := true } }
    let b : BootPtr := { seq := 4, kinds := [{ conf := 0, trial := some 1 }, {}, {}] }
    let z := fun (n : Nat) => { r with upd := { r.upd with bootA := some b, readyAt := some 0 }, clk := { r.clk with frc := n } }
    let p := put [(STP_STATUS_STATE, 1), (AIR_CTRL_TX_EN, 1)] (z (3 * 10 ^ 11))
    let o := { r with pwr := { r.pwr with off := true }, stw := { r.stw with sessions := [(77, sess)] }, mem := [(5, 1)] }
    rd EVT_CTRL_DF_RESET df ≠ 0 ∧ doubleFaulted df = true ∧ df.evt.dfAt + 500000000 * rd EVT_CTRL_DF_RESET df ≤ df.clk.frc ∧ fwGood (bootKind 0 df).conf {} = true ∧ anyTrial df = false ∧ f.pwr.romFail = true ∧ anyTrial f = false ∧
    a.upd.resetDue = true ∧ stewardUp a = true ∧ (bootKind 0 (z 0)).trial = some 1 ∧ (bootPtr (z 0)).kinds.length = 3 ∧ mustRevert 0 (z (3 * 10 ^ 11)) = true ∧ mustRevert 0 (z (3 * 10 ^ 11 - 1)) = false ∧ lane (z 0) ≠ 1 ∧ bursting (z (3 * 10 ^ 11)) = false ∧
    lane p = 1 ∧ mayBurst p = true ∧ p.twn.burstDue = false ∧ mustRevert 0 p = true ∧ o.pwr.off = true ∧ r.pwr.off = false ∧
    after .powerLoss { o with pwr := r.pwr } (fun t => t.pwr.off && t.mem == [] && t.stw.sessions == []) = true ∧ after (.pinReset {}) o (fun t => t.pwr.off) = true ∧ after (.trialRevert 0 {}) (z (3 * 10 ^ 11 - 1)) (fun t => bootPtr t == b) = true ∧
    after (.trialRevert 0 {}) p (fun t => lane t == 2 && bootPtr t == b) = true ∧ after (.romRetry { fw0 := false, fw1 := false }) f (fun t => t.pwr.romFail && rd STW_BOOT_STAGE t == 4) = true ∧
    after (.pinReset { fw0 := false, fw1 := false }) r (fun t => t.pwr.romFail && rd STW_BOOT_STAGE t == 4 && lane t == 0) = true := by decide +kernel

/-- ResetLeaves and StepKeepsMemory: the memory right after reset is in canonical form; StepKeepsSettled: nothing is left to be taken. -/
theorem reset_inv : Memory.wf State.reset.mem = true ∧ Settled State.reset := by decide +kernel

/-- The pin resets the module: start-up, Ready, the kind shown. -/
theorem test_pin_reset : after (.pinReset {}) (pwrIn 2 []) (fun t => pwrState t == 1 && rd PWR_STATUS_LAST_RESET t == 2 && !t.pwr.romFail) = true := by decide +kernel

end Sys2Proof.Tests
end

namespace Sys2Proof.Machine

/-! ### Stores to main SRAM (Table ISA-3, R9, R248) -/

/-- Byte k of a little-endian number (R9). -/
theorem leBytes_getD (w x k : Nat) (h : k < w) : (leBytes w x).getD k 0 = BitVec.ofNat 8 (x / 256 ^ k) := by
  induction w generalizing x k with
  | zero => omega
  | succ w ih =>
    cases k with
    | zero => simp [leBytes]
    | succ k =>
      have e : x / 256 / 256 ^ k = x / 256 ^ (k + 1) := by rw [Nat.div_div_eq_div_mul, Nat.pow_succ, Nat.mul_comm]
      rw [leBytes, List.getD_cons_succ, ih _ _ (by omega), e]

/-- What a store instruction of w bytes does, on a core that executes and reaches its place: the bytes stored, every other byte, the cores and the marks. -/
theorem storeInstr_stores {n a ofs sc w : Nat} {s : State} (h : Executes n s) (hs : Settled s) (field : Bool) (hf : (field && n == 16) = false) (f : Core → Nat)
    (hr : Reaches n (effAddr (coreOf n s) a ofs sc) w true s) :
    let at_ := effAddr (coreOf n s) a ofs sc
    ∃ t, run (storeInstr n a ofs sc w field f) s = .next t ∧
      (∀ k, k < w → byteAt t.mem (at_ + k) = BitVec.ofNat 8 (f (coreOf n s) / 256 ^ k)) ∧
      (∀ p, p < at_ ∨ at_ + w ≤ p → byteAt t.mem p = byteAt s.mem p) ∧
      coreOf n t = (coreOf n s).step ∧ (∀ m, m ≠ n → coreOf m t = coreOf m s) ∧ t.ecc = s.ecc := by
  refine ⟨_, storeInstr_run h hs field hf f hr, fun k hk => ?_, fun p hp => ?_, retire_core n (fun c => c) s, fun m hm => retire_other hm (fun c => c) s, rfl⟩
  · exact (byteAt_setBytes_in _ _ _ _ (by simpa using hk)).trans (leBytes_getD _ _ _ hk)
  · exact byteAt_setBytes_out _ _ _ _ (by simpa using hp)

/-- Settles O7: each of the six stores is a store instruction of its width, in its form on field cores for FST and VST. -/
theorem storesToMain : Obligations.StoresToMain := by
  intro n d a ofs s hs h
  have core {sc w : Nat} (f : Core → Nat) := storeInstr_stores (a := a) (ofs := ofs) (sc := sc) (w := w) h hs false rfl f
  have field {sc w : Nat} (f : Core → Nat) (hn : n ≠ 16) := storeInstr_stores (a := a) (ofs := ofs) (sc := sc) (w := w) h hs true (by simpa using hn) f
  exact ⟨core _, core _, core _, core _, fun hr hn => field _ hn hr, fun hr hn => field _ hn hr⟩

end Sys2Proof.Machine

namespace Sys2Proof.Machine

/-! ### Field maps (R12 to R14) -/

/-- A register lies only in a block of Table IDX-2. -/
theorem isBlk_of_regAt {n off : Nat} {r : Reg} (h : regAt n off = some r) : isBlk (groupOf n) := by
  refine Decidable.by_contra fun hb => ?_
  simp only [isBlk, List.mem_cons, List.not_mem_nil, or_false, not_or] at hb
  simp [regAt, regsOfBlock, hb] at h

/-- The fields of a register start at bits of its word, no two at the same. -/
def Reg.sound (r : Reg) : Bool := decide (r.fields.map FDef.lo).Nodup && r.fields.all (fun f => decide (f.lo < 32))

theorem regsOfBlock_sound (b : Nat) : (regsOfBlock b).all Reg.sound = true := by
  unfold regsOfBlock
  split <;> decide +kernel

theorem regAt_sound {n off : Nat} {r : Reg} (h : regAt n off = some r) : (r.fields.map FDef.lo).Nodup ∧ ∀ f ∈ r.fields, f.lo < 32 := by
  have hr := List.all_eq_true.1 (regsOfBlock_sound (groupOf n)) r (List.mem_of_find?_eq_some h)
  simpa [Reg.sound] using hr

theorem fldOf_key_inj {n off : Nat} {f g : FDef} (h : (fldOf n off f).key = (fldOf n off g).key) : f.lo = g.lo := by
  simp only [fldOf] at h; omega

/-! ### One field of a write (Table SCP-5, R14, R15) -/

/-- What a field holds after a write of bits x, where its block's shadowed fields commit at once or not. -/
def FDef.taken (f : FDef) (now : Bool) (old x : Nat) : Nat :=
  match f.acc with
  | .ro => old
  | .wo => old
  | .w1c => (old - (old &&& x)) % 2 ^ f.width
  | .w1s => (old ||| x) % 2 ^ f.width
  | .rw => if f.cls = .shadowed ∧ now = false then old else x

variable {n off v : Nat} {now : Bool}

theorem putField_same (hb : isBlk (groupOf n)) (s : State) (f : FDef) :
    rd (fldOf n off f) (putField n off v now s f) = f.taken now (rd (fldOf n off f) s) (bits v f.lo f.width) := by
  have hx : bits v f.lo f.width % 2 ^ f.width = bits v f.lo f.width := Nat.mod_mod _ _
  unfold putField FDef.taken
  cases f.acc with
  | ro | wo => rfl
  | w1c | w1s => exact rd_wr_same _ _ _ hb
  | rw =>
    by_cases hc : f.cls = .shadowed
    · cases now
      · simp only [hc]; rfl
      · simp only [hc]; exact (rd_wr_same _ _ _ hb).trans hx
    · simp only [hc]; exact (rd_wr_same _ _ _ hb).trans hx

/-- The write of a field leaves every other field as it was. -/
theorem putField_other (hb : isBlk (groupOf n)) (s : State) (f : FDef) (g : Fld) (h : groupOf n ≠ g.blk ∨ (fldOf n off f).key ≠ g.key) :
    rd g (putField n off v now s f) = rd g s := by
  have other (x : Nat) (t : State) : rd g (wr (fldOf n off f) x t) = rd g t := rd_wr_other _ _ _ _ hb h
  unfold putField
  cases f.acc with
  | ro | wo => rfl
  | w1c | w1s => exact other _ _
  | rw =>
    dsimp only
    split
    · split
      · exact other _ _
      · exact rfl
    · exact other _ _

theorem putField_held (s : State) (f : FDef) (hf : f.acc = .rw ∧ f.cls = .shadowed) :
    tfind (groupOf n * 2 ^ 32 + (fldOf n off f).key) (putField n off v false s f).held = some (bits v f.lo f.width) := by
  obtain ⟨ha, hc⟩ := hf
  simp only [putField, ha, hc]
  exact tfind_tins_same _ _ _

/-- The write of a field leaves the writes held for other fields. -/
theorem putField_held_other (s : State) (f : FDef) {k : Nat} (h : k ≠ groupOf n * 2 ^ 32 + (fldOf n off f).key) :
    tfind k (putField n off v now s f).held = tfind k s.held := by
  unfold putField
  cases f.acc with
  | ro | wo => rfl
  | w1c | w1s => exact congrArg _ (wr_held _ _ _)
  | rw =>
    dsimp only
    split
    · split
      · exact (congrArg _ (wr_held _ _ _)).trans (tfind_tdel_other h _)
      · exact tfind_tins_other h _ _
    · exact congrArg _ (wr_held _ _ _)

theorem putField_keeps (s : State) (f : FDef) : Keeps (blkPart (groupOf n)).toList s (putField n off v now s f) := by
  have own (x : Nat) (t : State) : Keeps (blkPart (groupOf n)).toList t (wr (fldOf n off f) x t) := Keeps.wr _ _ _ (fun _ hp => Option.mem_toList.2 hp)
  have held (x : Tbl Nat) : Keeps (blkPart (groupOf n)).toList s { s with held := x } := ⟨rfl, fun p _ => by cases p <;> rfl⟩
  unfold putField
  cases f.acc with
  | ro | wo => exact Keeps.refl _ _
  | w1c | w1s => exact own _ _
  | rw =>
    dsimp only
    split
    · split
      · exact (held _).trans (own _ _)
      · exact held _
    · exact own _ _

/-! ### All fields of a write -/

/-- Every field of a list takes its bits of a word. -/
def putFields (n off v : Nat) (now : Bool) (fs : List FDef) (s : State) : State := fs.foldl (fun s f => putField n off v now s f) s

theorem putFields_keeps (fs : List FDef) (s : State) : Keeps (blkPart (groupOf n)).toList s (putFields n off v now fs s) :=
  Keeps.foldl putField_keeps fs s

theorem putFields_other (hb : isBlk (groupOf n)) (fs : List FDef) (s : State) (g : Fld) (h : ∀ f ∈ fs, groupOf n ≠ g.blk ∨ (fldOf n off f).key ≠ g.key) :
    rd g (putFields n off v now fs s) = rd g s := by
  induction fs generalizing s with
  | nil => rfl
  | cons a fs ih => exact (ih _ (fun f hf => h f (.tail _ hf))).trans (putField_other hb s a g (h a (.head _)))

theorem putFields_held_other (fs : List FDef) (s : State) {k : Nat} (h : ∀ f ∈ fs, k ≠ groupOf n * 2 ^ 32 + (fldOf n off f).key) :
    tfind k (putFields n off v now fs s).held = tfind k s.held := by
  induction fs generalizing s with
  | nil => rfl
  | cons a fs ih => exact (ih _ (fun f hf => h f (.tail _ hf))).trans (putField_held_other s a (h a (.head _)))

/-- Each field of a register takes its own bits. -/
theorem putFields_same (hb : isBlk (groupOf n)) (fs : List FDef) (s : State) (hn : (fs.map FDef.lo).Nodup) (f : FDef) (hf : f ∈ fs) :
    rd (fldOf n off f) (putFields n off v now fs s) = f.taken now (rd (fldOf n off f) s) (bits v f.lo f.width) := by
  induction fs generalizing s with
  | nil => cases hf
  | cons a fs ih =>
    obtain ⟨ha, hn⟩ := List.nodup_cons.1 hn
    have step : putFields n off v now (a :: fs) s = putFields n off v now fs (putField n off v now s a) := rfl
    rw [step]
    rcases List.mem_cons.1 hf with rfl | hf
    · rw [putFields_other hb, putField_same hb]
      exact fun g hg => .inr fun e => ha (fldOf_key_inj e ▸ List.mem_map_of_mem hg)
    · rw [ih _ hn hf, putField_other hb]
      exact .inr fun e => ha (fldOf_key_inj e ▸ List.mem_map_of_mem hf)

/-- The write of a shadowed field that does not commit at once is held. -/
theorem putFields_held (fs : List FDef) (s : State) (hn : (fs.map FDef.lo).Nodup) (f : FDef) (hf : f ∈ fs) (hs : f.acc = .rw ∧ f.cls = .shadowed) :
    tfind (groupOf n * 2 ^ 32 + (fldOf n off f).key) (putFields n off v false fs s).held = some (bits v f.lo f.width) := by
  induction fs generalizing s with
  | nil => cases hf
  | cons a fs ih =>
    obtain ⟨ha, hn⟩ := List.nodup_cons.1 hn
    have step : putFields n off v false (a :: fs) s = putFields n off v false fs (putField n off v false s a) := rfl
    rw [step]
    rcases List.mem_cons.1 hf with rfl | hf
    · rw [putFields_held_other, putField_held s f hs]
      exact fun g hg e => ha (fldOf_key_inj (Nat.add_left_cancel e) ▸ List.mem_map_of_mem hg)
    · exact ih _ hn hf

/-! ### A write that meets no refusal but R16's -/

/-- A register of block n that the writer may write, and a word that its field map takes (R13, R377, R476, R495, R219). -/
structure Writable (who n off v : Nat) (r : Reg) (s : State) : Prop where
  blk : n < 31
  low : off < 0x10000
  align : off % 4 = 0
  reg : regAt n off = some r
  group : groupOf n ∉ [2, 3, 24, 25]
  power : s.pwr.off = false
  shown : hidden n off = false
  writer : who = 16 ∨ ¬(26 ≤ n ∧ n ≤ 29) ∧ (who = 17 → n ≠ 30) ∧ taken n off s = false
  word : badWord n off v = false
  output : changesOutput n off v s = false

variable {who : Nat} {r : Reg} {s : State}

theorem blkOfAddr_addrOf (h : off < 0x10000) : blkOfAddr (addrOf n off) = n := by unfold blkOfAddr addrOf; omega

theorem offOfAddr_addrOf (h : off < 0x10000) : offOfAddr (addrOf n off) = off := by unfold offOfAddr addrOf; omega

/-- Such a write goes past every check up to that of the H-class fields (R16). -/
theorem Writable.writeControl (h : Writable who n off v r s) :
    (writeControl who (addrOf n off) v s).2 =
      if activeAt n off s && changesHeld n off v s then cfgRefuse (groupOf n) (instOf n) (cfgEvent n) off s
      else match badFlume n off v s with
        | some f => flumeRefused f s
        | none => acceptWord n off v s := by
  obtain ⟨hn, ho, ha, hr, hg, hp, hs, hw, hbw, hco⟩ := h
  have in_space : ¬(addrOf n off < 0xE0000000 ∨ 0xE01F0000 ≤ addrOf n off) ∧ addrOf n off % 4 = 0 := by unfold addrOf; omega
  have n2 : n ≠ 2 := by rintro rfl; exact hg (by decide)
  have n3 : n ≠ 3 := by rintro rfl; exact hg (by decide)
  have owner : (who != 16 && decide (26 ≤ n ∧ n ≤ 29)) = false ∧ (who == 17 && n == 30) = false ∧ ¬(who ≠ 16 ∧ taken n off s = true) := by
    rcases hw with rfl | ⟨h1, h2, h3⟩
    · simp
    · simp only [h1, h3, decide_false, Bool.and_false, Bool.false_eq_true, and_false, not_false_eq_true, and_true, true_and, Bool.and_eq_false_iff, beq_eq_false_iff_ne]
      exact Decidable.not_or_of_imp h2
  unfold Machine.writeControl
  simp only [blkOfAddr_addrOf ho, offOfAddr_addrOf ho, hp, in_space, owner, hs, hr, hbw, hco, n2, n3,
    bne_self_eq_false, decide_false, Bool.or_self, Bool.false_eq_true, false_and, if_false, Option.isNone_some]
  split
  · rfl
  · cases badFlume n off v s <;> rfl

/-- Only the register that enables a flume, which has an effect of its own, is refused as a bad flume. -/
theorem badFlume_of_plain (h : special n off v s = none) : badFlume n off v s = none := by
  refine if_neg ?_
  rintro ⟨rfl, h1, h2, h3, -⟩
  have h0 : off ≠ 0 ∧ off ≠ 0xC := by omega
  simp [special, groupOf, h0, h1, h2, h3] at h

/-- A write with no effect of its own: every field takes its bits, and the active of a pair sends it to its partner. -/
theorem acceptWord_plain (hr : regAt n off = some r) (h : special n off v s = none) :
    ∃ x o, acceptWord n off v s = { putFields n off v (commitsAtOnce n off s) r.fields s with twn := x, out := o } := by
  have all : r.fields.filter (fun f => !([] : List Nat).contains f.lo) = r.fields := List.filter_eq_self.2 fun f _ => by simp
  unfold acceptWord
  simp only [hr, h, all]
  split
  · obtain ⟨x, o, e⟩ := issue_frame (.write (addrOf n off) v) (putFields n off v (commitsAtOnce n off s) r.fields s)
    exact ⟨x, _, e⟩
  · exact ⟨_, _, rfl⟩

/-! ### A refused write (R16, R18, Table SCP-7) -/

theorem cfgRefuse_other {b : Nat} (hb : isBlk b) (i e o : Nat) (s : State) (f : Fld) (h : ¬(f.blk = b ∧ f.key / 32 = 0x10000 * i + 0xFF0)) :
    rd f (cfgRefuse b i e o s) = rd f s := by
  have far (lo : Nat) (hl : lo < 32) : (fldAt b i 0xFF0 lo 16).blk ≠ f.blk ∨ (fldAt b i 0xFF0 lo 16).key ≠ f.key := by simp only [fldAt]; omega
  exact (rd_wr_other _ _ _ _ hb (far 16 (by decide))).trans (rd_wr_other _ _ _ _ hb (far 0 (by decide)))

theorem cfgRefuse_count {b : Nat} (hb : isBlk b) (i e o : Nat) (s : State) : CountsUp (fldAt b i 0xFF0 0 16) 1 s (cfgRefuse b i e o s) := by
  have h : rd (fldAt b i 0xFF0 0 16) (cfgRefuse b i e o s) = _ := rd_wr_other _ _ _ _ hb (.inr (by simp only [fldAt]; omega))
  unfold CountsUp
  rw [h, count, rd_wr_same _ _ _ hb, Nat.mod_eq_of_lt]
  simp only [fldAt]; omega

theorem cfgRefuse_offset {b : Nat} (hb : isBlk b) (i e : Nat) {o : Nat} (ho : o < 0x10000) (s : State) : rd (fldAt b i 0xFF0 16 16) (cfgRefuse b i e o s) = o :=
  (rd_wr_same _ _ _ hb).trans (Nat.mod_eq_of_lt ho)

theorem cfgRefuse_keeps (b i e o : Nat) (s : State) : Keeps (blkPart b).toList s (cfgRefuse b i e o s) := by
  have own : ∀ p, blkPart b = some p → p ∈ (blkPart b).toList := fun _ => Option.mem_toList.2
  exact ((Keeps.count (fldAt b i 0xFF0 0 16) 1 s own).trans (Keeps.wr (fldAt b i 0xFF0 16 16) o _ own)).trans (Keeps.raise _ e _)

/-! ### What a command leaves, from what its own effect leaves -/

/-- t is the outcome of a command in state s whose own effect ends in v: what EVT, Millrace, a pair and a cascade do afterwards leaves the other blocks' registers, SOL, the other blocks' held writes and every part. -/
structure Leaves (s v t : State) : Prop where
  reg : ∀ f : Fld, f.blk ∉ [2, 3, 24, 25] → rd f t = rd f v
  held : ∀ k, k / 2 ^ 32 ≠ 2 → tfind k t.held = tfind k v.held
  keeps : ∀ ps, Keeps ps { s with out := [] } v → Keeps ps s t
  sol : t.sol = v.sol

theorem run_leaves (f : State → State) (s : State) : ∃ t, run f s = .next t ∧ Leaves s (f { s with out := [] }) t := by
  refine run_answers f s _ fun u x y o ap _ => ⟨fun g hg => ?_, ap.held, fun ps h => Keeps.sent ap h x y _, ap.sol⟩
  simp only [List.mem_cons, List.not_mem_nil, or_false, not_or] at hg
  exact rd_sent ap g x y _ hg.1 hg.2.1 hg.2.2.1 hg.2.2.2

/-- The frame of one block, as the statements write it. -/
theorem Keeps.others {b : Nat} {s t : State} (h : Keeps (blkPart b).toList s t) : (∀ p, blkPart b ≠ some p → p.same t s) ∧ t.pending = s.pending :=
  ⟨fun p hp => h.2 p (fun m => hp (Option.mem_toList.1 m)), h.1⟩

/-! ### Register writes (R14 to R18) -/

theorem Writable.refused (h : Writable who n off v r s) (hc : (activeAt n off s && changesHeld n off v s) = true) :
    (Machine.writeControl who (addrOf n off) v s).2 = cfgRefuse (groupOf n) (instOf n) (cfgEvent n) off s := by
  rw [h.writeControl, if_pos hc]

theorem Writable.plain (h : Writable who n off v r s) (hc : (activeAt n off s && changesHeld n off v s) = false) (hs : special n off v s = none) :
    ∃ x o, (Machine.writeControl who (addrOf n off) v s).2 = { putFields n off v (commitsAtOnce n off s) r.fields s with twn := x, out := o } := by
  rw [h.writeControl, if_neg (by simp [hc]), badFlume_of_plain hs]
  exact acceptWord_plain h.reg hs

/-- What a medium holds decides nothing about a write. -/
theorem Writable.quiet (h : Writable who n off v r s) : Writable who n off v r { s with out := [] } := { h with }

/-- A write refused under R16 changes its block's CFG_REFUSED alone. -/
theorem registerWrite_refused (h : Writable who n off v r s) (hv : v < 2 ^ 32) (hc : (activeAt n off s && changesHeld n off v s) = true) :
    Answers (.registerWrite who (addrOf n off) v) s (fun t =>
      (∀ f : Fld, f.blk ∉ [2, 3, 24, 25] → ¬(f.blk = groupOf n ∧ f.key / 32 = 0x10000 * instOf n + 0xFF0) → rd f t = rd f s) ∧
      CountsUp (fldAt (groupOf n) (instOf n) 0xFF0 0 16) 1 s t ∧ rd (fldAt (groupOf n) (instOf n) 0xFF0 16 16) t = off ∧
      (∀ p, blkPart (groupOf n) ≠ some p → p.same t s) ∧ t.pending = s.pending) := by
  have hb := isBlk_of_regAt h.reg
  obtain ⟨t, e, l⟩ := run_leaves (fun s => (writeControl who (addrOf n off) (v % 2 ^ 32) s).2) s
  rw [Nat.mod_eq_of_lt hv, h.quiet.refused hc] at l
  refine ⟨t, e, fun f hf hne => (l.reg f hf).trans (cfgRefuse_other hb _ _ _ _ f hne), ?_, ?_, (l.keeps _ (cfgRefuse_keeps _ _ _ _ _)).others⟩
  · exact (l.reg _ h.group).trans (cfgRefuse_count hb _ _ _ _)
  · exact (l.reg _ h.group).trans (cfgRefuse_offset hb _ _ h.low _)

/-- A write with no effect of its own, not refused, gives every field of its register its bits and changes nothing else. -/
theorem registerWrite_plain (h : Writable who n off v r s) (hv : v < 2 ^ 32) (hc : (activeAt n off s && changesHeld n off v s) = false) (hs : special n off v s = none) :
    Answers (.registerWrite who (addrOf n off) v) s (fun t =>
      (∀ f ∈ r.fields, rd (fldOf n off f) t = f.taken (commitsAtOnce n off s) (rd (fldOf n off f) s) (bits v f.lo f.width) ∧
        (f.acc = .rw ∧ f.cls = .shadowed → commitsAtOnce n off s = false → tfind (groupOf n * 2 ^ 32 + (fldOf n off f).key) t.held = some (bits v f.lo f.width))) ∧
      (∀ f : Fld, f.blk ∉ [2, 3, 24, 25] → ¬(f.blk = groupOf n ∧ f.key / 32 = 0x10000 * instOf n + off) → rd f t = rd f s) ∧
      (∀ p, blkPart (groupOf n) ≠ some p → p.same t s) ∧ t.pending = s.pending) := by
  have hb := isBlk_of_regAt h.reg
  obtain ⟨nodup, low⟩ := regAt_sound h.reg
  obtain ⟨t, e, l⟩ := run_leaves (fun s => (writeControl who (addrOf n off) (v % 2 ^ 32) s).2) s
  obtain ⟨x, o, effect⟩ := h.quiet.plain hc hs
  rw [Nat.mod_eq_of_lt hv, effect] at l
  have not_evt : groupOf n ≠ 2 := fun e => h.group (e ▸ .head _)
  have reg (f : Fld) (hf : f.blk ∉ [2, 3, 24, 25]) : rd f t = rd f (putFields n off v (commitsAtOnce n off s) r.fields { s with out := [] }) := by
    refine (l.reg f hf).trans ?_
    simp only [List.mem_cons, List.not_mem_nil, or_false, not_or] at hf
    exact rd_sent (Apart.rfl' _) f x _ o hf.1 hf.2.1 hf.2.2.1 hf.2.2.2
  refine ⟨t, e, fun f hf => ⟨(reg _ h.group).trans (putFields_same hb _ _ nodup f hf), fun hsh now => ?_⟩, fun g hg hne => ?_, ?_⟩
  · refine (l.held _ ?_).trans ?_
    · have hl := low f hf
      have hn := h.blk
      have ho := h.low
      simp only [fldOf, instOf]; omega
    · rw [show commitsAtOnce n off { s with out := [] } = false from now]
      exact putFields_held _ _ nodup f hf hsh
  · refine (reg g hg).trans (putFields_other hb _ _ g fun f hf => ?_)
    have hl := low f hf
    simp only [fldOf]; omega
  · have h1 := putFields_keeps (n := n) (off := off) (v := v) (now := commitsAtOnce n off s) r.fields { s with out := [] }
    exact (l.keeps _ (h1.trans ⟨rfl, fun p _ => by cases p <;> rfl⟩)).others

/-! ### Commit points (R15) -/

/-- The one write held, for a block, takes effect, and nothing else changes. -/
theorem commitBlk_single {b key x : Nat} {s : State} (hk : key < 2 ^ 32) (h : s.held = [(b * 2 ^ 32 + key, x)]) :
    commitBlk b s = wr ⟨b, key, 32, 0⟩ x { s with held := [] } := by
  have hb : (b * 0x100000000 + key) / 0x100000000 = b := by omega
  have hm : (b * 0x100000000 + key) % 0x100000000 = key := by omega
  simp [commitBlk, h, hb, hm, tdel]

/-- The block groups whose held writes all take effect at one commit point. -/
theorem commitPart_whole {b : Nat} (h : b ∈ [5, 6, 7, 8, 9, 10, 11, 17, 23, 26, 27, 28, 29]) (part : Nat) (s : State) : commitPart b part s = commitBlk b s := by
  simp only [List.mem_cons, List.not_mem_nil, or_false] at h
  rcases h with rfl | rfl | rfl | rfl | rfl | rfl | rfl | rfl | rfl | rfl | rfl | rfl | rfl <;> rfl

theorem isBlk_of_whole : ∀ b ∈ [5, 6, 7, 8, 9, 10, 11, 17, 23, 26, 27, 28, 29], isBlk b ∧ b ∉ [2, 3, 24, 25] := by decide

theorem commitPoint_single {b part key x : Nat} {s : State} (hb : b ∈ [5, 6, 7, 8, 9, 10, 11, 17, 23, 26, 27, 28, 29]) (hk : key < 2 ^ 32) (hh : s.held = [(b * 2 ^ 32 + key, x)]) :
    Answers (.commitPoint b part) s (fun t => rd ⟨b, key, 32, 0⟩ t = x % 2 ^ 32 ∧ tfind (b * 2 ^ 32 + key) t.held = none ∧
      (∀ f : Fld, f.blk ∉ [2, 3, 24, 25] → ¬(f.blk = b ∧ f.key = key) → rd f t = rd f s) ∧ ∀ p, blkPart b ≠ some p → p.same t s) := by
  obtain ⟨known, still⟩ := isBlk_of_whole b hb
  have effect : commitPart b part { s with out := [] } = wr ⟨b, key, 32, 0⟩ x { s with out := [], held := [] } :=
    (commitPart_whole hb _ _).trans (commitBlk_single (s := { s with out := [] }) hk hh)
  obtain ⟨t, e, l⟩ := run_leaves (commitPart b part) s
  rw [effect] at l
  refine ⟨t, e, (l.reg _ still).trans (rd_wr_same _ _ _ known), (l.held _ ?_).trans ?_, fun f hf hne => (l.reg f hf).trans ?_, ?_⟩
  · have : b ≠ 2 := fun e => still (e ▸ .head _)
    omega
  · rw [wr_held]; rfl
  · exact rd_wr_other _ _ _ _ known (by simp only; omega)
  · have released : Keeps (blkPart b).toList { s with out := [] } { s with out := [], held := [] } := ⟨rfl, fun p _ => by cases p <;> rfl⟩
    exact (l.keeps _ (released.trans (Keeps.wr _ _ _ fun _ => Option.mem_toList.2))).others.1

end Sys2Proof.Machine

namespace Sys2Proof.Machine
set_option Elab.async false -- as in Laws/State.lean

/-! ### Tables with entries taken out -/

theorem tfind_eq_none {α : Type} {k : Nat} {t : Tbl α} : tfind k t = none ↔ ∀ p ∈ t, p.1 ≠ k := by
  induction t with
  | nil => simp [tfind]
  | cons p t ih =>
    obtain ⟨a, x⟩ := p
    by_cases h : a = k <;> simp [tfind, h, ih]

theorem tfind_filter_none {α : Type} {k : Nat} {t : Tbl α} (h : tfind k t = none) (f : Nat × α → Bool) : tfind k (t.filter f) = none :=
  tfind_eq_none.2 fun p hp => tfind_eq_none.1 h p (List.mem_filter.1 hp).1

/-! ### What the start of an air cycle leaves of SOL and of the held writes -/

/-- From s to t no register write has come to be held, and SOL is as it was. -/
structure Calm (s t : State) : Prop where
  held : ∀ k, tfind k s.held = none → tfind k t.held = none
  sol : t.sol = s.sol

variable {s t x y : State}

theorem Calm.refl (s : State) : Calm s s := ⟨fun _ h => h, rfl⟩

theorem Calm.trans (h : Calm s t) (g : Calm t x) : Calm s x := ⟨fun k hk => g.held k (h.held k hk), g.sol.trans h.sol⟩

/-- An update of another component. -/
theorem Calm.same (h : Calm s t) (hh : x.held = t.held := by rfl) (hs : x.sol = t.sol := by rfl) : Calm s x :=
  ⟨fun k hk => hh ▸ h.held k hk, hs.trans h.sol⟩

theorem Calm.release (h : Calm s t) {f : Nat × Nat → Bool} : Calm s { t with held := t.held.filter f } :=
  ⟨fun k hk => tfind_filter_none (h.held k hk) f, h.sol⟩

/-! A condition, a list of steps. -/

theorem Calm.ite {c : Prop} [Decidable c] (hx : Calm s x) (hy : Calm s y) : Calm s (if c then x else y) := by split <;> assumption

/-- A step taken on a condition. -/
theorem Calm.when {c : Prop} [Decidable c] (hx : Calm s x) (f : Calm s x → Calm s y) : Calm s (if c then y else x) := .ite (f hx) hx

/-- A step left out on a condition. -/
theorem Calm.unless {c : Prop} [Decidable c] (hx : Calm s x) (f : Calm s x → Calm s y) : Calm s (if c then x else y) := .ite hx (f hx)

theorem Calm.foldl {α : Type} {g : State → α → State} (h : Calm s t) (hg : ∀ {t a}, Calm s t → Calm s (g t a)) {l : List α} : Calm s (l.foldl g t) := by
  induction l generalizing t with
  | nil => exact h
  | cons a l ih => exact ih (hg h)

theorem Calm.foldr {α : Type} {g : α → State → State} (h : Calm s t) (hg : ∀ {t a}, Calm s t → Calm s (g a t)) {l : List α} : Calm s (l.foldr g t) := by
  induction l with
  | nil => exact h
  | cons a l ih => exact hg ih

section
variable {e n k a q v w who st p id : Nat} {b : Bool} {i : Int} {l bs : List Byte}

/-! Registers, reports, media and the components of the state. -/

theorem Calm.wr (h : Calm s t) {f : Fld} (hf : f.blk ≠ 7 := by nofun) : Calm s (wr f v t) := h.same (wr_held f v t) (wr_sol f v t hf)
theorem Calm.count (h : Calm s t) {f : Fld} (hf : f.blk ≠ 7 := by nofun) : Calm s (count f v t) := h.wr hf
theorem Calm.countWrap (h : Calm s t) {f : Fld} (hf : f.blk ≠ 7 := by nofun) : Calm s (countWrap f v t) := h.wr hf
theorem Calm.wr64 (h : Calm s t) {f g : Fld} (hf : f.blk ≠ 7 := by nofun) (hg : g.blk ≠ 7 := by nofun) : Calm s (wr64 f g v t) := (h.wr hf).wr hg
theorem Calm.note {r : Note} (h : Calm s t) : Calm s (note r t) := h.same
theorem Calm.raise (h : Calm s t) : Calm s (raise e t) := h.note
theorem Calm.raiseAlarm (h : Calm s t) : Calm s (raiseAlarm e t) := h.note
theorem Calm.report (h : Calm s t) : Calm s (report e n t) := h.note
theorem Calm.emit {r : Emit} (h : Calm s t) : Calm s (emit r t) := h.same
theorem Calm.fresh (h : Calm s t) : Calm s (fresh t).2 := h.same
theorem Calm.setMem {r : List Host.Cell} (h : Calm s t) : Calm s (t.setMem r) := h.same
theorem Calm.setMark {r : Option WordErr} (h : Calm s t) : Calm s (setMark a r t) := h.same
theorem Calm.setFlume {r : Flume} (h : Calm s t) : Calm s (setFlume n r t) := h.same
theorem Calm.setRef {r : Ref} (h : Calm s t) : Calm s (setRef r t) := h.same
theorem Calm.setAir {r : Air} (h : Calm s t) : Calm s (setAir r t) := h.same
theorem Calm.setStp {r : Stp} (h : Calm s t) : Calm s (setStp r t) := h.same
theorem Calm.setPwr {r : Pwr} (h : Calm s t) : Calm s (setPwr r t) := h.same
theorem Calm.setWkr {r : Wkr} (h : Calm s t) : Calm s (setWkr r t) := h.same
theorem Calm.setCan {r : CanPort} (h : Calm s t) : Calm s (setCan p r t) := h.same
theorem Calm.setAxis {r : Axis} (h : Calm s t) : Calm s (setAxis n r t) := h.same
theorem Calm.setSess {r : Session} (h : Calm s t) : Calm s (setSess id r t) := h.same

theorem Calm.cmdResQuiet {blk inst off cmd : Nat} (h : Calm s t) (hb : blk ≠ 7 := by nofun) : Calm s (cmdResQuiet blk inst off cmd n e t) :=
  ((h.wr hb).wr hb).wr hb
theorem Calm.cmdRes {blk inst off cmd : Nat} (h : Calm s t) (hb : blk ≠ 7 := by nofun) : Calm s (cmdRes blk inst off w cmd n e t) := (h.cmdResQuiet hb).raise

theorem Calm.commitFld (h : Calm s t) {f : Fld} (hf : f.blk ≠ 7 := by nofun) : Calm s (commitFld f t) := by
  unfold Machine.commitFld
  dsimp only
  split
  · exact h
  · exact h.release.wr hf

theorem Calm.commitBlk (h : Calm s t) (hb : n ≠ 7 := by nofun) : Calm s (commitBlk n t) := h.foldl fun h => h.release.wr hb

/-! The memory controller. -/

theorem Calm.memError (h : Calm s t) : Calm s (memError e a q who t) :=
  .report (.ite h.wr.wr.wr.wr.wr (.ite h.wr.wr.wr.wr.wr (.when h.count .raise)))

theorem Calm.lineLost (h : Calm s t) : Calm s (lineLost n a q who t) :=
  .raise (.memError (.count (.same (h.foldl (g := fun s w => Machine.setMark w (some .poisoned) s) .setMark))))

theorem Calm.rebuildWord (h : Calm s t) : Calm s (rebuildWord w q who t) :=
  .raise (.memError (.count (.when h.setMark .same)))

theorem Calm.decodeLine (h : Calm s t) : Calm s (decodeLine n a q who t) := by
  unfold Machine.decodeLine
  split
  · exact .ite h.lineLost h.count
  · exact .ite h.lineLost h.rebuildWord
  · exact h.lineLost

theorem Calm.eccRead (h : Calm s t) : Calm s (eccRead a q who t).2 := by
  unfold Machine.eccRead
  split
  · exact h.memError
  · exact h.decodeLine

theorem Calm.markStore (h : Calm s t) : Calm s (markStore w b who t) := by
  unfold Machine.markStore
  split
  · exact h
  · exact .ite h.setMark h.count.memError
  · exact .ite h.setMark (.when h.decodeLine .setMark)

theorem Calm.memWrite (h : Calm s t) : Calm s (memWrite a bs who t) := .setMem (h.foldl .markStore)

/-! Flumes. -/

theorem Calm.watermark (h : Calm s t) : Calm s (watermark n t) := by
  have drive {u : State} {b : Bool} (h : Calm s u) : Calm s (drivePins n b u) := h.foldl fun h => .ite h.same h
  exact .ite h (.ite (drive h.setFlume).raise (.ite (drive h.setFlume).raise h))

theorem Calm.countDrop (h : Calm s t) : Calm s (countDrop n k t) := .count (.count h)

theorem Calm.putWord {d : Word} (h : Calm s t) : Calm s (putWord n p d t) := .memWrite h

theorem Calm.addLoss (h : Calm s t) : Calm s (addLoss n v k b t) := by
  unfold Machine.addLoss
  dsimp only
  split
  · exact h.putWord
  · exact h.putWord.setFlume.count.count.raise

theorem Calm.spill (h : Calm s t) : Calm s (spill n b t) := .watermark (.addLoss (.countDrop (.setFlume h)))

theorem Calm.pushWord {d : Word} (h : Calm s t) : Calm s (pushWord n d b t).2 := by
  unfold Machine.pushWord
  have hc : Calm s (commitFlume n t) := h.commitFld.commitFld
  split
  · dsimp only
    split
    · exact h.countDrop
    · exact h.countDrop.setFlume.report.raise
  · dsimp only
    split
    · dsimp only
      exact hc.setFlume.count
    · split
      · dsimp only
        exact hc.setFlume.countDrop.addLoss.watermark
      · split
        · exact hc.spill
        · exact .watermark (.when hc.putWord.setFlume .countWrap)

theorem Calm.pushRecord : ∀ {d : List Word} {t : State}, Calm s t → Calm s (pushRecord n d t).2
  | [], _, h => h
  | [_], _, h => h.pushWord
  | x :: y :: d, t, h => (h.pushWord.pushRecord : Calm s (Machine.pushRecord n (y :: d) (Machine.pushWord n x false t).2).2)

theorem Calm.pushBytes (h : Calm s t) : Calm s (pushBytes n bs t).2 := h.pushRecord

/-! AIR, PRO and PWR. -/

theorem Calm.airRefresh (h : Calm s t) : Calm s (airRefresh t) := .ite h.wr h.wr.wr.raise

theorem Calm.enterPro (h : Calm s t) : Calm s (enterPro st t) := .ite h h.wr.raise

theorem Calm.showPro (h : Calm s t) : Calm s (showPro t) := .ite h.enterPro h

theorem Calm.proStopEpoch (h : Calm s t) : Calm s (proStopEpoch t) := .when h.same fun h => h.enterPro.raise

theorem Calm.dropFrame {d : DFrame} {f : Fld} {o : Option Nat} (h : Calm s t) (hf : f.blk ≠ 7) : Calm s (dropFrame d f e o t) := by
  cases o
  · exact (h.setAir.setAir.count hf).report
  · exact (h.setAir.setAir.raise.count hf).report

theorem Calm.dropFrames {f : Fld} {o : Option Nat} (h : Calm s t) (hf : f.blk ≠ 7 := by nofun) : Calm s (dropFrames f e o t) :=
  .foldr h.setAir fun h => h.dropFrame hf

theorem Calm.enterPower (h : Calm s t) : Calm s (enterPower st t) := .ite h (.airRefresh (.when h.wr.raise fun h => h.dropFrames))

theorem Calm.pwrPoll (h : Calm s t) : Calm s (pwrPoll t) := .ite (.ite h (.ite h.setPwr h.setPwr.enterPower)) h

theorem Calm.issue {r : MirRec} (h : Calm s t) : Calm s (issue r t) := .emit (.wr h.same)

theorem Calm.snapAll (h : Calm s t) : Calm s (snapAll n t) := h.same

/-! Axes and outputs. -/

theorem Calm.axsStopEpoch (h : Calm s t) : Calm s (axsStopEpoch t) := by
  have enter {u : State} (h : Calm s u) {n st : Nat} : Calm s (enterAxis n st u) := .ite h h.wr.wr.raise
  exact h.foldl fun h => .when h fun h => .cmdRes (.wr (.raise (enter h.setAxis.wr.wr.count)))

theorem Calm.dioStopEpoch (h : Calm s t) : Calm s (dioStopEpoch t) := by
  have held {u : State} (h : Calm s u) : Calm s (showOut u) := h.wr
  refine held (h.foldl fun h => ?_)
  split
  · exact .wr h.same
  · exact h

/-! Stop frames. -/

theorem Calm.stopMic (h : Calm s t) : Calm s (stopMic n l bs t).2 := by
  unfold Machine.stopMic
  split
  · exact h
  · exact h.fresh

theorem Calm.ethCount (h : Calm s t) : Calm s (ethCount p k n t) := .when h.wr fun h => h.wr.raise

theorem Calm.ethStop (h : Calm s t) : Calm s (ethStop p k n t) :=
  .unless h fun h => .foldl (.when h.stopMic .ethCount) .emit

theorem Calm.canStop {d : List Byte} (h : Calm s t) : Calm s (canStop p n id b d t) := by
  have awake : Calm s (canUnsleep p t) := .when h.wr fun h => .unless h fun h => h.wr.raise
  exact .ite h (.ite h.count.report awake.setCan)

theorem Calm.portStops (h : Calm s t) : Calm s (portStops k n t) :=
  .foldl (.foldl h .ethStop) fun h => .unless h fun h => h.stopMic.canStop

/-! The stop lane. -/

theorem Calm.showStat (h : Calm s t) : Calm s (showStat t) := .wr (.wr h)

theorem Calm.enterLane (h : Calm s t) : Calm s (enterLane st t) := .showPro (.airRefresh (.showStat (.unless h fun h => h.wr.wr.raise)))

theorem Calm.cascadeNotice (h : Calm s t) : Calm s (cascadeNotice b t) := .when h .emit

theorem Calm.startBurst (h : Calm s t) : Calm s (startBurst n t) := .airRefresh (.setAir h.setStp)

theorem Calm.stopEpoch (h : Calm s t) : Calm s (stopEpoch n t) :=
  .cascadeNotice (.dioStopEpoch (.axsStopEpoch (.proStopEpoch (.portStops
    (.when h.enterLane.raise.wr.wr.wr64.wr.count.dropFrames fun h => h.setStp.startBurst)))))

theorem Calm.releaseDone (h : Calm s t) : Calm s (releaseDone st e t) := by
  have respond {u : State} {id seq code f : Nat} {d : List Byte} (h : Calm s u) : Calm s (respond id seq code st e f d u) := by
    unfold Machine.respond
    split
    · exact h
    · exact h.setSess.emit
  exact h.cmdRes.foldl fun h => h.foldl respond

/-- Sources looked at again: a stop epoch, or a RELEASE cancelled. -/
theorem Calm.react (h : Calm s t) : Calm s (react t) :=
  .unless h fun h => .when (.ite (.stopEpoch (.unless h.wr .wr)) (.unless (.unless h.wr .wr) .cascadeNotice)) fun h => h.enterLane.releaseDone

theorem Calm.stopCycle (h : Calm s t) : Calm s (stopCycle t) := .when (.unless h fun h => h.commitBlk.showStat) .portStops

/-! Port time. -/

theorem Calm.checkApart (h : Calm s t) : Calm s (checkApart t) := .ite h.wr.count.report.raiseAlarm (.when h fun h => h.wr.raise)

theorem Calm.gclResync (h : Calm s t) : Calm s (gclResync t) := by
  refine h.foldl fun h => ?_
  split
  · exact .when h fun h => h.ethCount.raise
  · exact h

theorem Calm.followSite (h : Calm s t) : Calm s (followSite t) :=
  .ite h.checkApart (.ite h.same.count.report.raise.gclResync.checkApart h.fresh.same.checkApart)

/-! Partners. -/

theorem Calm.showPtr (h : Calm s t) : Calm s (showPtr p t) := by
  unfold Machine.showPtr
  exact h.wr.wr.wr.wr

theorem Calm.setPtr {r : Ptr} (h : Calm s t) : Calm s (setPtr p r t) := h.setWkr.showPtr

theorem Calm.putEntry (h : Calm s t) : Calm s (putEntry p a n i t) := .memWrite h

theorem Calm.rescueCall (h : Calm s t) : Calm s (rescueCall p t) := .setWkr h

theorem Calm.enterRescue (h : Calm s t) : Calm s (enterRescue p t) := by
  unfold Machine.enterRescue
  split
  · exact h.setPtr.count.report.raise.rescueCall
  · exact h

theorem Calm.cancelOrders (h : Calm s t) : Calm s (cancelOrders n t) := by
  have done {u : State} {o : Order} {a e c : Nat} (h : Calm s u) : Calm s (orderDone o a e c u) := .when h.pushBytes fun h => h.count.raise
  exact h.foldl fun h => done h.setAir

theorem Calm.freePtr (h : Calm s t) : Calm s (freePtr p t) := h.cancelOrders.setAir.setWkr.showPtr

theorem Calm.judgeMiss (h : Calm s t) : Calm s (judgeMiss n p t) := by
  unfold Machine.judgeMiss
  split
  · exact h
  · split
    · exact h
    · refine .ite h (.ite h.setPtr ?_)
      split
      · exact .ite h.freePtr.count.raise h.setPtr
      · exact .ite h.setPtr (.when h.setPtr.count.putEntry .enterRescue)
      · exact h.setPtr

theorem Calm.wkrCycle (h : Calm s t) : Calm s (wkrCycle t) := by
  refine .ite h ?_
  extract_lets c committed judged queued _ called
  have hj : Calm s judged := .when h.commitBlk fun h => h.foldl .judgeMiss
  have hc : Calm s called := .setWkr (hj.foldl .setAir)
  split
  · refine .when ?_ fun h => h.setWkr.count.emit
    split
    · exact hc.setWkr.setPtr
    · exact hc.setWkr
  · exact hc

/-! The reference station. -/

theorem Calm.commitRef (h : Calm s t) : Calm s (commitRef t) := .release (h.foldl fun h => h.wr)

theorem Calm.enterRef (h : Calm s t) : Calm s (enterRef st t) := .ite h h.wr.raise

theorem Calm.bumpSerial (h : Calm s t) : Calm s (bumpSerial t) := h.countWrap.raise

theorem Calm.swapAntenna (h : Calm s t) : Calm s (swapAntenna n t) := h.setRef.wr.count.bumpSerial.raise

theorem Calm.followRefAnt (h : Calm s t) : Calm s (followRefAnt n t) := .when h .swapAntenna

theorem Calm.clearMap (h : Calm s t) : Calm s (clearMap t) := by
  have cleared : Calm s (Machine.wr REF_MPM_STATUS_MATURE 0 (Machine.wr REF_MPM_STATUS_SHADOW 0 (clearMapMem t))) := h.setMem.wr.wr
  refine .wr ?_
  split
  · exact cleared.memWrite
  · exact cleared

theorem Calm.adoptPos {q : Int × Int × Int} (h : Calm s t) : Calm s (adoptPos q t) := .when h.setRef.bumpSerial .clearMap

theorem Calm.startSurvey (h : Calm s t) : Calm s (startSurvey t) := h.setRef.wr.wr.enterRef

theorem Calm.runPosLoad {q : Option (Int × Int × Int)} (h : Calm s t) : Calm s (runPosLoad q t) := by
  unfold Machine.runPosLoad
  cases q
  · exact h.cmdResQuiet
  · exact .ite h.cmdResQuiet h.adoptPos.cmdResQuiet

theorem Calm.saveMap (h : Calm s t) : Calm s (saveMap b t) := .ite h.report h.memWrite.same.wr.raise

theorem Calm.runTimeAccept (h : Calm s t) : Calm s (runTimeAccept t) := by
  have steer {u : State} (h : Calm s u) {i : Int} : Calm s (steer i u) := .wr h.fresh.same
  exact .ite (steer h.setRef.setRef.wr.raiseAlarm).cmdResQuiet h.cmdResQuiet

theorem Calm.refCmdRun {q : Option (Int × Int × Int)} (h : Calm s t) : Calm s (refCmdRun q t) := by
  unfold Machine.refCmdRun
  dsimp only
  split
  · exact .ite h.setRef.startSurvey.cmdResQuiet h.setRef.cmdResQuiet
  · exact h.setRef.runPosLoad
  · exact h.setRef.clearMap.cmdResQuiet
  · exact h.setRef.saveMap.cmdResQuiet
  · exact h.setRef.runTimeAccept
  · exact h.setRef

theorem Calm.monitorTest {q : Option (Int × Int × Int)} (h : Calm s t) : Calm s (monitorTest q t) := by
  refine .ite h.wr ?_
  cases q
  · exact .when h .wr
  · exact .ite (.ite h.setRef.wr.count.raise (.when h.setRef .wr)) (.ite (.when h.setRef.wr .raise) (.when h.setRef .wr))

theorem Calm.refStates (h : Calm s t) : Calm s (refStates t) := by
  unfold Machine.refStates
  dsimp only
  split
  · exact .ite h.enterRef (.when h .startSurvey)
  · exact .when h fun h => h.report.enterRef
  · exact .ite h.report.enterRef (.when h .enterRef)
  · exact .ite h.report.enterRef (.when h .enterRef)
  · exact .when h .enterRef
  · exact h

theorem Calm.readCell (h : Calm s t) : Calm s (readCell a t).2 := by
  unfold Machine.readCell
  dsimp only
  split <;> exact h.eccRead

theorem Calm.obsEntry {g : Sig} (h : Calm s t) : Calm s (obsEntry a g t).2 := by
  have cell : Calm s (matureCell a g t).2 := by
    unfold Machine.matureCell
    split
    · exact h
    · exact h.readCell
  unfold Machine.obsEntry
  split
  rename_i hm
  rw [hm] at cell
  dsimp only
  split
  · exact cell.fresh
  · exact cell

theorem Calm.obsEntries : ∀ {l : List Sig} {t : State}, Calm s t → Calm s (obsEntries a l t).2
  | [], _, h => h
  | g :: l, t, h => (h.obsEntry.obsEntries : Calm s (Machine.obsEntries a l (Machine.obsEntry a g t).2).2)

theorem Calm.refRecord {m : Meas} (h : Calm s t) : Calm s (refRecord m t) :=
  .ite h.setRef.pushBytes (.when h.setRef fun h => h.obsEntries.pushBytes)

/-- What REF does after its commit point. -/
theorem Calm.refCycle {m : Option Meas} (h : Calm s (Machine.commitRef t)) : Calm s (refCycle m t) := by
  have swapped := h.followRefAnt (n := rd REF_CTRL_REF_ANT t)
  refine .ite swapped (.ite swapped.refCmdRun ?_)
  extract_lets adopted x run _ tested swappedAgain last
  have ha : Calm s adopted := by
    dsimp only [adopted]
    split
    · exact swapped.adoptPos
    · exact swapped
  have ht : Calm s tested := by
    dsimp only [tested]
    split
    · exact ha.refCmdRun.setRef.setRef.wr.wr.monitorTest
    · exact ha.refCmdRun
  have hl : Calm s last := (Calm.when ht .swapAntenna).refStates
  split
  · exact hl.refRecord
  · exact hl

end

/-! ### What the start of an air cycle does to the held writes and to SOL (R7, R15, R27, R94) -/

theorem commits_held {b k : Nat} (l : Tbl Nat) (s : State) (h : k ∈ keys l ∨ tfind k s.held = none) :
    tfind k (l.foldl (fun s p => wr ⟨b, p.1 % 0x100000000, 32, 0⟩ p.2 { s with held := tdel p.1 s.held }) s).held = none := by
  induction l generalizing s with
  | nil => simpa [keys] using h
  | cons p l ih =>
    refine ih _ ?_
    rw [wr_held]
    by_cases hk : p.1 = k
    · exact .inr (hk ▸ tfind_tdel_same _ _)
    · have gone : tfind k s.held = none → tfind k (tdel p.1 s.held) = none := fun h => tfind_filter_none h _
      exact h.imp (fun h => (List.mem_cons.1 h).resolve_left (Ne.symm hk)) gone

/-- After its commit point a block holds no write, and no write has come to be held. -/
theorem commitBlk_held {b k : Nat} (s : State) (h : k / 2 ^ 32 = b ∨ tfind k s.held = none) : tfind k (commitBlk b s).held = none := by
  refine commits_held _ s ?_
  by_cases hn : tfind k s.held = none
  · exact .inr hn
  · obtain ⟨p, hp, rfl⟩ : ∃ p ∈ s.held, p.1 = k := by simpa [tfind_eq_none] using hn
    exact .inl (List.mem_map_of_mem (List.mem_filter.2 ⟨hp, by simpa using h.resolve_right hn⟩))

theorem commitBlk_of_none (b : Nat) {s : State} (h : s.held = []) : commitBlk b s = s := by simp [commitBlk, h]

theorem commitRef_held {k : Nat} (hk : k / 2 ^ 32 = 6) (s : State) : tfind k (commitRef s).held = none :=
  tfind_eq_none.2 fun p hp e => absurd hk (by simpa [e] using (List.mem_filter.1 hp).2)

theorem eq_nil_of_tfind {α : Type} {l : Tbl α} (h : ∀ k, tfind k l = none) : l = [] :=
  List.eq_nil_iff_forall_not_mem.2 fun p hp => tfind_eq_none.1 (h p.1) p hp rfl

theorem solCycle_held {k : Nat} (s : State) (h : k / 2 ^ 32 = 7 ∨ tfind k s.held = none) : tfind k (solCycle s).held = none :=
  commitBlk_held _ (by simpa [setSol] using h)

/-- The tallies are no register. -/
theorem rd_tally (f : Fld) (c : Nat × Nat × Nat) (s : State) (hf : f.blk = 7) : rd f (setSol { s.sol with tally := c } s) = rd f s := by
  simp only [rd, hf, regsAt, setSol]

/-- SOL_STATUS shows the tallies of the cycle now complete, which start afresh. -/
theorem solCycle_shows {s : State} (h : s.held = []) :
    (solCycle s).sol.tally = (0, 0, 0) ∧ rd SOL_STATUS_ACTIVE (solCycle s) = s.sol.tally.1 % 2 ^ SOL_STATUS_ACTIVE.width ∧
      rd SOL_STATUS_FIXED (solCycle s) = s.sol.tally.2.1 % 2 ^ SOL_STATUS_FIXED.width ∧ rd SOL_STATUS_MARKED (solCycle s) = s.sol.tally.2.2 % 2 ^ SOL_STATUS_MARKED.width := by
  have sol : isBlk 7 := by decide
  unfold solCycle
  rw [commitBlk_of_none 7 (by simpa [setSol] using h)]
  rw [rd_tally SOL_STATUS_ACTIVE _ _ rfl, rd_tally SOL_STATUS_FIXED _ _ rfl, rd_tally SOL_STATUS_MARKED _ _ rfl]
  refine ⟨rfl, rd_wr_same _ _ _ sol, ?_, ?_⟩
  · rw [rd_wr_other _ _ _ _ sol (by decide), rd_wr_same _ _ _ sol]
  · rw [rd_wr_other _ _ _ _ sol (by decide), rd_wr_other _ _ _ _ sol (by decide), rd_wr_same _ _ _ sol]

/-- The state in which SOL's cycle has begun: AIR, TWN, CAS and REF have taken their held writes. -/
def solBegun (m : Option Meas) (s : State) : State := solCycle (refCycle m (commitBlk 25 (commitBlk 24 (commitBlk 10 s))))

theorem cycleStart_calm {m : Option Meas} {s : State} (hp : s.pwr.off = false) (ht : s.clk.siteSet = true) : Calm (solBegun m s) (cycleStart m s) := by
  unfold cycleStart
  rw [if_neg (by simp [hp, ht])]
  exact (Calm.when (Calm.refl _).snapAll.wkrCycle.stopCycle .issue).followSite.pwrPoll.airRefresh.react

theorem refCycle_calm (m : Option Meas) (s : State) : Calm s (refCycle m (commitBlk 25 (commitBlk 24 (commitBlk 10 s)))) :=
  (Calm.refl s).commitBlk.commitBlk.commitBlk.commitRef.refCycle

theorem solBegun_held {k : Nat} (hk : k / 2 ^ 32 ∈ [6, 7, 10, 24, 25]) (m : Option Meas) (s : State) : tfind k (solBegun m s).held = none := by
  have later {u : State} (h : Calm u (commitRef (commitBlk 25 (commitBlk 24 (commitBlk 10 s))))) (hu : tfind k u.held = none) : tfind k (solBegun m s).held = none :=
    solCycle_held _ (.inr (h.refCycle.held k hu))
  simp only [List.mem_cons, List.not_mem_nil, or_false] at hk
  rcases hk with h6 | h7 | h10 | h24 | h25
  · exact later (.refl _) (commitRef_held h6 _)
  · exact solCycle_held _ (.inl h7)
  · exact later (Calm.refl _).commitBlk.commitBlk.commitRef (commitBlk_held _ (.inl h10))
  · exact later (Calm.refl _).commitBlk.commitRef (commitBlk_held _ (.inl h24))
  · exact later (Calm.refl _).commitRef (commitBlk_held _ (.inl h25))

theorem solBegun_shows (m : Option Meas) {s : State} (h : s.held = []) :
    (solBegun m s).sol.tally = (0, 0, 0) ∧ rd SOL_STATUS_ACTIVE (solBegun m s) = s.sol.tally.1 % 2 ^ SOL_STATUS_ACTIVE.width ∧
      rd SOL_STATUS_FIXED (solBegun m s) = s.sol.tally.2.1 % 2 ^ SOL_STATUS_FIXED.width ∧
      rd SOL_STATUS_MARKED (solBegun m s) = s.sol.tally.2.2 % 2 ^ SOL_STATUS_MARKED.width := by
  have calm := refCycle_calm m s
  unfold solBegun
  have shows := solCycle_shows (eq_nil_of_tfind fun k => calm.held k (h ▸ rfl))
  rwa [calm.sol] at shows

end Sys2Proof.Machine

namespace Sys2Proof.Machine

/-! ### The start of an air cycle as a command -/

/-- With the module off or site time not set, nothing happens. -/
theorem cycleStart_idle (m : Option Meas) {s : State} (h : s.pwr.off = true ∨ s.clk.siteSet = false) : Answers (.cycleStart m) s (fun t => Keeps [] s t) := by
  obtain ⟨t, e, l⟩ := run_leaves (cycleStart m) s
  have idle : cycleStart m { s with out := [] } = { s with out := [] } := if_pos (by simpa using h)
  rw [idle] at l
  exact ⟨t, e, l.keeps _ (Keeps.refl _ _)⟩

theorem cycleStart_runs (m : Option Meas) {s : State} (hp : s.pwr.off = false) (ht : s.clk.siteSet = true) :
    Answers (.cycleStart m) s (fun t => (∀ k, k / 2 ^ 32 ∈ [6, 7, 10, 24, 25] → tfind k t.held = none) ∧
      (s.held = [] → t.sol.tally = (0, 0, 0) ∧ rd SOL_STATUS_ACTIVE t = s.sol.tally.1 % 2 ^ SOL_STATUS_ACTIVE.width ∧ rd SOL_STATUS_FIXED t = s.sol.tally.2.1 % 2 ^ SOL_STATUS_FIXED.width ∧
        rd SOL_STATUS_MARKED t = s.sol.tally.2.2 % 2 ^ SOL_STATUS_MARKED.width)) := by
  obtain ⟨t, e, l⟩ := run_leaves (cycleStart m) s
  have calm : Calm (solBegun m { s with out := [] }) (cycleStart m { s with out := [] }) := cycleStart_calm hp ht
  have sol : t.sol = (solBegun m { s with out := [] }).sol := l.sol.trans calm.sol
  have status (f : Fld) (hf : f.blk = 7) : rd f t = rd f (solBegun m { s with out := [] }) := by simp only [rd, hf, regsAt, sol]
  refine ⟨t, e, fun k hk => (l.held k ?_).trans (calm.held k (solBegun_held hk m _)), fun hh => ?_⟩
  · intro h2
    rw [h2] at hk
    exact absurd hk (by decide)
  · rw [sol, status _ rfl, status _ rfl, status _ rfl]
    exact solBegun_shows m (s := { s with out := [] }) hh

/-- Settles O43: the writes by whether R16 refuses them, the commit point of a block, and the start of an air cycle. -/
theorem registerWrites : Obligations.RegisterWrites := by
  refine ⟨?_, fun b part key x s hb hk hh => commitPoint_single hb hk hh, fun m s => ⟨cycleStart_idle m, cycleStart_runs m⟩⟩
  intro who n off v r s hn ho ha _ hv hr hg hp hs hw hb hc
  have h : Writable who n off v r s := ⟨hn, ho, ha, hr, hg, hp, hs, hw, hb, hc⟩
  refine ⟨registerWrite_refused h hv, fun hf hn => ?_⟩
  obtain ⟨t, e, fields, rest⟩ := registerWrite_plain h hv hf hn
  refine ⟨t, e, fun f hf => ?_, rest⟩
  obtain ⟨value, held⟩ := fields f hf
  unfold FDef.taken at value
  cases ha : f.acc with
  | ro | wo | w1c | w1s => simpa only [ha] using value
  | rw =>
    simp only [ha] at value
    by_cases hs : f.cls = .shadowed ∧ commitsAtOnce n off s = false
    · rw [if_pos hs] at value
      have key := held ⟨ha, hs.1⟩ hs.2
      simp only [fldOf, ← Nat.add_assoc] at key
      exact (if_pos hs).mpr ⟨value, key⟩
    · rw [if_neg hs] at value
      exact (if_neg hs).mpr value

end Sys2Proof.Machine

namespace Sys2Proof.Machine

/-! ### RTCM output to the caster's clients (R54, R62) -/

/-- REF at work in Ready with no client of its caster, its count of clients dropped at v (0xB4, a register of 32 bits). -/
def refWithDrops (v : Nat) : State :=
  { pwr := { regs := [(PWR_STATUS_STATE.key, 1)] }, ref := { regs := [(REF_CTRL_EN.key, 1), (REF_CNT_NTRIP_DROP.key, v)] } }

theorem refWithDrops_on (v : Nat) : on REF_CTRL_EN (refWithDrops v) = true ∧ awake (refWithDrops v) = true ∧ rd REF_CNT_NTRIP_DROP (refWithDrops v) = v :=
  ⟨rfl, rfl, rfl⟩

/-- Where no client waits, none is dropped, and the register is not written. -/
theorem dropSlow_without_clients {s : State} (h : s.ref.clients = []) : rd REF_CNT_NTRIP_DROP (dropSlow s) = rd REF_CNT_NTRIP_DROP s := by
  unfold dropSlow
  rw [h]
  exact rd_wr_other REF_NTRIP_STATUS_CLIENTS REF_CNT_NTRIP_DROP _ _ (by decide) (by decide)

theorem rtcmOut_without_clients (msgs : List Byte) (taken : List (Nat × Nat)) {s : State} (h : s.ref.clients = []) :
    rd REF_CNT_NTRIP_DROP (rtcmOut msgs taken s) = rd REF_CNT_NTRIP_DROP s := by
  unfold rtcmOut
  split
  · rfl
  · exact dropSlow_without_clients (by simp [emit, setRef, h])

/-- An epoch without bytes for the downlink is the caster's and the serial outputs' alone. -/
theorem rtcmEpoch_without_air (msgs : List Byte) (taken : List (Nat × Nat)) (s : State) : rtcmEpoch msgs [] taken s = rtcmOut msgs taken s := by
  unfold rtcmEpoch
  split <;> rfl

/-- Refutes O47 in its clause on RTCM output: with no client to drop it still asks that the count be min(count + 0, 2^32 - 1), so that it lies
within 32 bits. A State may hold any number in a register's table, and an epoch that drops nobody leaves 2^32 there. -/
theorem not_referenceStation : ¬ Obligations.ReferenceStation := by
  intro h
  obtain ⟨enabled, up, drops⟩ := refWithDrops_on (2 ^ 32)
  obtain ⟨-, -, station, -⟩ := h
  obtain ⟨-, -, -, rtcm, -⟩ := station (refWithDrops (2 ^ 32)) enabled up
  obtain ⟨t, answer, -, -, counted, -⟩ := rtcm [] [] []
  obtain ⟨u, effect, leaves⟩ := run_leaves (rtcmEpoch [] [] []) (refWithDrops (2 ^ 32))
  obtain rfl : t = u := Host.Outcome.next.inj (answer.symm.trans effect)
  have kept : rd REF_CNT_NTRIP_DROP t = 2 ^ 32 := by
    rw [leaves.reg _ (by decide), rtcmEpoch_without_air, rtcmOut_without_clients [] [] rfl]
    exact drops
  have held_to : rd REF_CNT_NTRIP_DROP t = min (2 ^ 32 + 0) (2 ^ 32 - 1) := drops ▸ counted
  omega

end Sys2Proof.Machine

namespace Sys2Proof.Machine

/-! ### Bits -/

theorem bit_eq_testBit (v i : Nat) : bit v i = v.testBit i := by
  rw [bit, Nat.testBit_eq_decide_div_mod_eq]; rfl

/-- Adding a power of two whose bit is clear sets that bit and no other. -/
theorem bit_add_two_pow {v i : Nat} (h : bit v i = false) (j : Nat) : bit (v + 2 ^ i) j = (decide (i = j) || bit v j) := by
  simp only [bit_eq_testBit, Nat.add_comm v] at h ⊢
  rcases Nat.lt_trichotomy j i with lt | rfl | gt
  · rw [Nat.testBit_two_pow_add_gt lt]; simp [show i ≠ j by omega]
  · rw [Nat.testBit_two_pow_add_eq, h]; simp
  · obtain ⟨k, rfl⟩ := Nat.exists_eq_add_of_lt gt
    have clear : v / 2 ^ i % 2 = 0 := by simpa [Nat.testBit_eq_decide_div_mod_eq] using h
    have high : (2 ^ i + v) / 2 ^ (i + 1) = v / 2 ^ (i + 1) := by
      rw [Nat.pow_succ, ← Nat.div_div_eq_div_mul, ← Nat.div_div_eq_div_mul, Nat.add_div_left _ (Nat.two_pow_pos i)]; omega
    rw [show i + k + 1 = k + (i + 1) by omega, Nat.testBit_add, Nat.testBit_add, high, decide_eq_false (by omega), Bool.false_or]

theorem setBits_one (v i : Nat) : setBits v i 1 (b2n true) = if bit v i then v else v + 2 ^ i := by
  have le : v / 2 ^ i * 2 ^ i ≤ v := Nat.div_mul_le_self v _
  unfold setBits bits b2n bit
  rcases Nat.mod_two_eq_zero_or_one (v / 2 ^ i) with clear | set
  · simp [clear]
  · have quotient_pos : 0 < v / 2 ^ i := Nat.pos_of_ne_zero fun zero => by
      rw [zero] at set
      exact absurd set (by decide)
    have : 2 ^ i ≤ v := Nat.le_trans (Nat.le_mul_of_pos_left _ quotient_pos) le
    simp [set, Nat.sub_add_cancel this]

/-- Setting a bit sets it and clears no other. -/
theorem bit_setBits_one {v i j : Nat} (h : i = j ∨ bit v j = true) : bit (setBits v i 1 (b2n true)) j = true := by
  rw [setBits_one]
  split
  next set => exact h.elim (fun e => e ▸ set) id
  next clear => rw [bit_add_two_pow (by simpa using clear)]; simpa using h

/-- The low bits of a number cut to a width. -/
theorem bit_mod_two_pow {v w j : Nat} (h : j < w) : bit (v % 2 ^ w) j = bit v j := by
  simp [bit_eq_testBit, Nat.testBit_mod_two_pow, h]

/-! ### What EVT takes pends (R559) -/

/-- From s to t EVT's enable is as it was, and no event that was pending has ceased to. -/
structure Heeds (s t : State) : Prop where
  enable : rd EVT_CTRL_EN t = rd EVT_CTRL_EN s
  pend : ∀ e, e < 256 → Pended e s → Pended e t

section
variable {s t u : State}

theorem Heeds.refl (s : State) : Heeds s s := ⟨rfl, fun _ _ h => h⟩

theorem Heeds.trans (h : Heeds s t) (g : Heeds t u) : Heeds s u :=
  ⟨g.enable.trans h.enable, fun e he hp => g.pend e he (h.pend e he hp)⟩

/-- An update that leaves EVT's registers. -/
theorem Heeds.same (h : Heeds s t) (hr : u.evt.regs = t.evt.regs := by rfl) : Heeds s u :=
  h.trans ⟨by simp only [rd, regsAt, EVT_CTRL_EN, hr], fun e _ hp => by simpa only [Pended, rd, regsAt, EVT_PEND, hr] using hp⟩

/-- A register of a block, and in EVT neither its enable nor one of its pending registers. -/
abbrev Aside (f : Fld) : Prop := isBlk f.blk ∧ (f.blk = 2 → f.key ≠ 0 ∧ (f.key < 0x800 ∨ 0xC00 ≤ f.key))

theorem Heeds.wr (h : Heeds s t) {f : Fld} {v : Nat} (hf : Aside f := by decide) : Heeds s (wr f v t) := by
  obtain ⟨blk, aside⟩ := hf
  have other (g : Fld) (hg : g.blk = 2) (hk : g.key = 0 ∨ 0x800 ≤ g.key ∧ g.key < 0xC00) : rd g (Machine.wr f v t) = rd g t := rd_wr_other _ _ _ _ blk (by omega)
  refine h.trans ⟨other _ rfl (.inl rfl), fun e he hp => ?_⟩
  have pends : rd (EVT_PEND (e / 32)) (Machine.wr f v t) = rd (EVT_PEND (e / 32)) t := other _ rfl (.inr (by simp only [EVT_PEND]; omega))
  rwa [Pended, pends]

theorem Heeds.count (h : Heeds s t) {f : Fld} {n : Nat} (hf : Aside f := by decide) : Heeds s (count f n t) := h.wr hf

theorem Heeds.raise {e : Nat} (h : Heeds s t) : Heeds s (raise e t) := h.same

theorem Heeds.ite {c : Prop} [Decidable c] {x y : State} (hx : Heeds s x) (hy : Heeds s y) : Heeds s (if c then x else y) := by split <;> assumption

theorem Heeds.foldl {α : Type} {g : State → α → State} {l : List α} (h : Heeds s t) (hg : ∀ t, ∀ a ∈ l, Heeds s t → Heeds s (g t a)) : Heeds s (l.foldl g t) := by
  induction l generalizing t with
  | nil => exact h
  | cons a l ih => exact ih (hg t a (.head _) h) fun t a ha => hg t a (.tail _ ha)

/-! Staging (R570 to R577). -/

theorem Heeds.commitFld (h : Heeds s t) {f : Fld} (hf : Aside f) : Heeds s (commitFld f t) := by
  unfold Machine.commitFld
  dsimp only
  split
  · exact h
  · exact .wr h.same hf

theorem Heeds.putStaged {cls kind source error : Nat} {data : List Byte} (h : Heeds s t) : Heeds s (putStaged cls kind source error data t) := by
  have committed {u : State} (h : Heeds s u) : Heeds s ([EVT_CTRL_PAGE_MS, EVT_CREDIT_ALARM_RES, EVT_CREDIT_LOG_LIM, EVT_CREDIT_TRACE_LIM].foldl (fun s f => Machine.commitFld f s) u) :=
    h.foldl fun _ f hf h => h.commitFld (by revert f; decide)
  have counted {u : State} (h : Heeds s u) : Heeds s (Machine.count (classCount cls) 1 u) := h.count (by unfold classCount; split <;> decide)
  exact .ite (counted (committed h.same)).raise (counted (committed h.same))

theorem Heeds.lossBegins (h : Heeds s t) : Heeds s (lossBegins t) := .ite h (.raise h.same)

theorem Heeds.coalesceLog {a f l : Nat} (h : Heeds s t) : Heeds s (coalesceLog a f l t) := .lossBegins (.count h.same)

theorem Heeds.dropTrace {f l : Nat} (h : Heeds s t) : Heeds s (dropTrace f l t) := .lossBegins (.count h.same)

theorem Heeds.evictTrace (h : Heeds s t) : Heeds s (evictTrace t) := by
  unfold Machine.evictTrace
  split
  · exact .dropTrace h.same
  · exact h

theorem Heeds.drainLogs {n : Nat} (h : Heeds s t) : Heeds s (drainLogs n t) := by
  induction n generalizing t with
  | zero => exact h
  | succ n ih =>
    unfold Machine.drainLogs
    split
    · exact h
    · exact .ite (ih (.putStaged (.ite h.same (.evictTrace h.same)))) h

theorem Heeds.drainTraces (h : Heeds s t) : Heeds s (drainTraces t) := by
  unfold Machine.drainTraces
  split
  · exact h
  · exact .ite (.putStaged h.same) h

theorem Heeds.stage {cls kind source error : Nat} {data : List Byte} (h : Heeds s t) : Heeds s (stage cls kind source error data t) := by
  have alarm : Heeds s (stageAlarm kind source error data t) := by
    refine .ite (.putStaged h.same) (.ite (.putStaged (.evictTrace h.same)) ?_)
    split
    · exact .putStaged (.coalesceLog h.same)
    · exact .count h.same
  have log : Heeds s (stageLog kind source error data t) := .ite (.putStaged (.ite h.drainLogs h.drainLogs.evictTrace)) h.drainLogs.coalesceLog
  have trace : Heeds s (stageTrace kind source error data t) := .ite h.drainTraces.putStaged h.drainTraces.dropTrace
  unfold Machine.stage
  extract_lets staged
  have done : Heeds s staged := by
    dsimp only [staged]
    split
    · exact alarm
    · exact log
    · exact trace
    · exact h
  exact .ite done.same done

/-! Offering an event to Millrace (R312). -/

theorem Heeds.makeReady {q : Nat} (h : Heeds s t) : Heeds s (makeReady q t) := by
  unfold Machine.makeReady
  split
  · exact h
  · extract_lets holds ready counted
    have hr : Heeds s ready := h.same
    have hc : Heeds s counted := .ite hr.count hr
    exact hc.same

theorem Heeds.promote {f : Nat} (h : Heeds s t) : Heeds s (promote f t) := by
  unfold Machine.promote
  split
  · exact .ite h.makeReady h
  · exact h

theorem Heeds.postItem {op f : Nat} {a : Word} {src : ItemSrc} {i : Option Inbox} (h : Heeds s t) : Heeds s (postItem op f a src i t).2 := by
  have counted {u : State} (h : Heeds s u) : Heeds s (Machine.count MRC_CNT_POSTED 1 u) := h.count
  exact .promote (.ite (counted h.same).raise (counted h.same))

theorem Heeds.offerEvent {e n c : Nat} (h : Heeds s t) : Heeds s (offerEvent e n c t) := by
  refine .ite ?_ h
  unfold Machine.postRoute
  split
  · exact h.same.count.raise
  · exact .ite h.count.raise h.postItem

/-! Occurrences and errors. -/

theorem Heeds.fillErr {n c d : Nat} (h : Heeds s t) : Heeds s (fillErr n c d t) := by
  have record {u : State} (h : Heeds s u) {w v : Nat} : Heeds s (Machine.wr (EVT_ERR n w) v u) := h.wr ⟨show (2 : Nat) ∈ _ by decide, fun _ => by simp only [EVT_ERR]; omega⟩
  have filled {w : Nat} : Heeds s ((errWords c d t).zipIdx.foldl (fun s p => Machine.wr (EVT_ERR n (w + p.2)) p.1 s) t) := h.foldl fun _ _ _ h => record h
  exact .ite filled (.ite filled (.ite (record h).raise (record h)))

/-- The pending bit of an event is set, and those of the others in its register stand. -/
theorem occur_sets {e a : Nat} (s : State) (h : a = e ∨ Pended a s) : Pended a (setRunBit EVT_PEND e true s) := by
  have blk : isBlk 2 := by decide
  unfold setRunBit Pended
  rw [rd_wr _ _ _ _ blk]
  split
  next same =>
    have reg : a / 32 = e / 32 := by simp only [EVT_PEND] at same; omega
    rw [show (EVT_PEND (e / 32)).width = 32 from rfl, bit_mod_two_pow (by omega)]
    refine bit_setBits_one (h.imp (fun h => by omega) fun h => ?_)
    rwa [← reg]
  next other => exact h.resolve_left fun h => other ⟨rfl, by rw [h]⟩

/-- With EVT enabled an event pends; what follows is its count, Millrace's offer and its record. -/
theorem heeds_pended {e : Nat} {a : Bool} (hs : on EVT_CTRL_EN s = true) : Heeds (setRunBit EVT_PEND e true s) (occur e a s) := by
  have counted : Heeds (setRunBit EVT_PEND e true s) (Machine.count (EVT_COUNT e) 1 (setRunBit EVT_PEND e true s)) :=
    (Heeds.refl _).count ⟨show (2 : Nat) ∈ _ by decide, fun _ => by simp only [EVT_COUNT]; omega⟩
  unfold Machine.occur
  rw [if_neg (by simp [hs])]
  exact .stage (.ite counted.same counted.offerEvent)

theorem Heeds.occur {e : Nat} {a : Bool} (h : Heeds s t) : Heeds s (occur e a t) := by
  have enable : rd EVT_CTRL_EN (setRunBit EVT_PEND e true t) = rd EVT_CTRL_EN t :=
    rd_wr_other _ _ _ _ (show (2 : Nat) ∈ _ by decide) (.inr (by simp only [EVT_PEND, EVT_CTRL_EN]; omega))
  have pended : Heeds t (setRunBit EVT_PEND e true t) := ⟨enable, fun _ _ hp => occur_sets t (.inr hp)⟩
  cases on_off : on EVT_CTRL_EN t
  · unfold Machine.occur
    rwa [if_pos (by simp [on_off])]
  · exact h.trans (pended.trans (heeds_pended on_off))

theorem occur_pends {e : Nat} {a : Bool} (he : e < 256) (hs : on EVT_CTRL_EN s = true) : Pended e (occur e a s) :=
  (heeds_pended hs).pend e he (occur_sets s (.inl rfl))

theorem Heeds.takeNote {x : Note} (h : Heeds s t) : Heeds s (takeNote x t) := by
  cases x with
  | event e a => exact h.occur
  | error n c d a => exact h.fillErr.stage
  | record => exact h.stage

theorem heeds_takeNotes (l : List Note) (s : State) : Heeds s (l.foldl (fun s x => Machine.takeNote x s) s) :=
  (Heeds.refl s).foldl fun _ _ _ g => g.takeNote

theorem heeds_settleN (n : Nat) (s : State) : Heeds s (settleN n s) := by
  induction n generalizing s with
  | zero => exact (Heeds.refl s).same
  | succ n ih =>
    unfold settleN
    split
    · exact .refl s
    · exact (Heeds.trans (.same (.refl s)) (heeds_takeNotes _ { s with notes := [] })).trans (ih _)

theorem takeNotes_pends {l : List Note} {e : Nat} {a : Bool} (he : e < 256) (hs : on EVT_CTRL_EN s = true) (hl : .event e a ∈ l) :
    Pended e (l.foldl (fun s x => Machine.takeNote x s) s) := by
  induction l generalizing s with
  | nil => cases hl
  | cons x l ih =>
    rcases List.mem_cons.1 hl with rfl | hl
    · exact (heeds_takeNotes l _).pend e he (occur_pends he hs)
    · exact ih (by rw [on, ((Heeds.refl s).takeNote (x := x)).enable]; exact hs) hl

/-- With EVT enabled, every event that has been reported pends once EVT has taken the reports. -/
theorem settle_pends {e : Nat} {a : Bool} (he : e < 256) (hs : on EVT_CTRL_EN s = true) (hn : .event e a ∈ s.notes) : Pended e (settle s) := by
  unfold settle settleN
  split
  next none => simp [none] at hn
  next some => exact (heeds_settleN 2 _).pend e he (takeNotes_pends he hs hn)

/-- With EVT enabled, an event that a command's own effect reports pends after the command. -/
theorem run_pends {f : State → State} {e : Nat} {a : Bool} (ht : run f s = .next t) (he : e < 256)
    (hs : on EVT_CTRL_EN (f { s with out := [] }) = true) (hn : .event e a ∈ (f { s with out := [] }).notes) : Pended e t := by
  obtain ⟨y, o, sent⟩ := cascadeSend_frame s (settle (f { s with out := [] }))
  obtain ⟨x, p, mirrored⟩ := mirrorSend_frame s (cascadeSend s (settle (f { s with out := [] })))
  have last : t = _ := (Host.Outcome.next.inj ht).symm.trans mirrored
  rw [last, sent]
  exact settle_pends he hs hn
end
end Sys2Proof.Machine

namespace Sys2Proof.Machine

/-! ### What CLM and PRO do with a published epoch (R91, R92) leaves SOL -/

section
variable {s t : State} {a b e k n q v x o : Nat}

theorem Calm.setClm {r : Clm} (h : Calm s t) : Calm s (setClm r t) := h.same
theorem Calm.setChan {c : Chan} (h : Calm s t) : Calm s (setChan n c t) := h.same

theorem Calm.proDone (h : Calm s t) : Calm s (proDone a b n k e x t) := .ite h.pushRecord h.pushRecord.count.raise

theorem Calm.cutQueue {c : Option Claim} {l : List Seg} {p : Option Int} (h : Calm s t) : Calm s (cutQueue n k c p l t).2 := by
  induction l generalizing p t with
  | nil => exact h
  | cons g l ih =>
    unfold Machine.cutQueue
    split
    · exact ih h
    · dsimp only
      split
      · exact ih h
      · exact ih h.proDone

theorem Calm.claimCut (h : Calm s t) : Calm s (claimCut k o t) := by
  unfold Machine.claimCut
  refine .ite h ?_
  dsimp only
  split
  · exact h
  · exact h.cutQueue.setChan

theorem Calm.clmResult {m : Option Nat} {r : Req} {y : Res} (h : Calm s t) : Calm s (clmResult m r n y t) := by
  have counted : Calm s (if y.status = 4 then (if 0x809 ≤ y.error ∧ y.error ≤ 0x80B then Machine.count CLM_CNT_CONFLICT 1 t else Machine.count CLM_CNT_INVALID 1 t)
    else if y.status = 0 ∧ r.op ≤ 2 then Machine.count CLM_CNT_GRANT 1 t else t) := .ite (.ite h.count h.count) (.ite h.count h)
  unfold Machine.clmResult
  cases m
  · exact counted.pushRecord
  · exact counted.emit

theorem Calm.finishWaits (h : Calm s t) : Calm s (finishWaits t) := h.setClm.foldl fun h => h.clmResult

theorem Calm.freeIt (h : Calm s t) : Calm s (freeIt k t) := by
  unfold Machine.freeIt
  split
  · exact h
  · exact h.setClm.setClm.claimCut.finishWaits

theorem Calm.clmNote (h : Calm s t) : Calm s (clmNote k o n e t) := .ite h.emit (.ite h.pushRecord h.pushRecord.count)

theorem Calm.takeEcho (h : Calm s t) : Calm s (takeEcho o n t) := by
  unfold Machine.takeEcho
  refine .ite h ?_
  extract_lets old echo echoed
  have he : Calm s echoed := .ite h.setClm h
  exact .ite he.emit (.ite he (.ite he (he.foldl fun h => h.freeIt.raise.clmNote)))

theorem Calm.geomEntry (h : Calm s t) : Calm s (geomEntry n t).2 := by
  unfold Machine.geomEntry
  extract_lets at_ read
  have hr : Calm s read.2 := by
    dsimp only [read]
    split
    · exact h
    · exact h.eccRead
  split <;> exact hr

theorem Calm.project {i j : Int} {p : Option Int} {r : Option Int × State} (h : Calm s t) (hr : project n i j p t = r) : Calm s r.2 := by
  have entry : Calm s (Machine.geomEntry n t).2 := h.geomEntry
  subst hr
  unfold Machine.project
  split
  next _ none => rwa [none] at entry
  next _ _ _ some => rwa [some] at entry

theorem Calm.takeSolution {i j y z : Int} (h : Calm s t) : Calm s (takeSolution n k x i j y z t) := by
  unfold Machine.takeSolution
  split
  · exact h
  · refine .ite h.setChan ?_
    split
    · exact h.setChan
    · dsimp only
      split
      next u off => exact (h.project off).setChan.count.report.raise
      next p u near => exact (h.project near).setChan
end
end Sys2Proof.Machine

namespace Sys2Proof.Machine

/-! ### What an epoch leaves of SOL (R77 to R85) -/

/-- From s to t SOL has the same payloads waiting, solutions unfinished, tallies and published records, and the counts of missing observations and of deadlines stand. -/
structure Tended (s t : State) : Prop where
  obs : t.sol.obs = s.sol.obs
  open_ : t.sol.open_ = s.sol.open_
  tally : t.sol.tally = s.sol.tally
  newest : t.sol.newest = s.sol.newest
  missing : rd SOL_CNT_MISSING t = rd SOL_CNT_MISSING s
  deadline : rd SOL_CNT_DEADLINE t = rd SOL_CNT_DEADLINE s

section
variable {s t u : State}

theorem Tended.refl (s : State) : Tended s s := ⟨rfl, rfl, rfl, rfl, rfl, rfl⟩

theorem Tended.trans (h : Tended s t) (g : Tended t u) : Tended s u :=
  ⟨g.obs.trans h.obs, g.open_.trans h.open_, g.tally.trans h.tally, g.newest.trans h.newest, g.missing.trans h.missing, g.deadline.trans h.deadline⟩

/-- An update outside SOL. -/
theorem Tended.same (h : Tended s t) (hu : u.sol = t.sol := by rfl) : Tended s u :=
  h.trans ⟨by rw [hu], by rw [hu], by rw [hu], by rw [hu], by simp only [rd, regsAt, SOL_CNT_MISSING, hu], by simp only [rd, regsAt, SOL_CNT_DEADLINE, hu]⟩

theorem Tended.raise {e : Nat} (h : Tended s t) : Tended s (raise e t) := h.same
theorem Tended.solError {c m : Nat} (h : Tended s t) : Tended s (solError c m t) := h.same

/-- An update of the parts of SOL that an epoch works on: its filters and the record of its work. -/
theorem Tended.setSol (h : Tended s t) {f : Tbl Filt} {r : Option RefRec} {m : Option Nat} {w : List (Nat × Nat × Nat)} :
    Tended s (setSol { t.sol with filt := f, ref := r, missed := m, work := w } t) := h.trans ⟨rfl, rfl, rfl, rfl, rfl, rfl⟩

theorem Tended.setFilt {m : Nat} {f : Filt} (h : Tended s t) : Tended s (setFilt m f t) := h.setSol

theorem Tended.ite {c : Prop} [Decidable c] {x y : State} (hx : Tended s x) (hy : Tended s y) : Tended s (if c then x else y) := by split <;> assumption

/-- The parts of SOL beside its registers are no registers. -/
theorem wr_sol_parts (f : Fld) (v : Nat) (s : State) :
    (wr f v s).sol.obs = s.sol.obs ∧ (wr f v s).sol.open_ = s.sol.open_ ∧ (wr f v s).sol.tally = s.sol.tally ∧ (wr f v s).sol.newest = s.sol.newest ∧
      (wr f v s).sol.filt = s.sol.filt ∧ (wr f v s).sol.missed = s.sol.missed := by
  unfold wr setRegs
  split <;> exact ⟨rfl, rfl, rfl, rfl, rfl, rfl⟩

/-- A write to a register of SOL other than the two counts. -/
theorem Tended.wr (h : Tended s t) {f : Fld} {v : Nat} (hb : f.blk = 7 := by rfl) (hf : f.key ≠ 0x1000 ∧ f.key ≠ 0x1280 := by decide) : Tended s (wr f v t) := by
  have blk : isBlk f.blk := by rw [hb]; decide
  obtain ⟨obs, open_, tally, newest, -, -⟩ := wr_sol_parts f v t
  exact h.trans ⟨obs, open_, tally, newest, rd_wr_other _ _ _ _ blk (.inr hf.1), rd_wr_other _ _ _ _ blk (.inr hf.2)⟩

theorem Tended.count (h : Tended s t) {f : Fld} {n : Nat} (hb : f.blk = 7 := by rfl) (hf : f.key ≠ 0x1000 ∧ f.key ≠ 0x1280 := by decide) : Tended s (count f n t) := h.wr hb hf

theorem Tended.foldl {α β : Type} {g : β → α → β} {p : β → State} (hg : ∀ x a, Tended s (p x) → Tended s (p (g x a))) (l : List α) {x : β} (h : Tended s (p x)) :
    Tended s (p (l.foldl g x)) := by
  induction l generalizing x with
  | nil => exact h
  | cons a l ih => exact ih (hg x a h)

variable {m n : Nat}

theorem Tended.latchEntry (h : Tended s t) : Tended s (latchEntry m t) := .ite h.setFilt h

theorem Tended.takeMarks {b : List Byte} {z : Solve} (h : Tended s t) : Tended s (takeMarks m b z n t).2 :=
  Tended.foldl (p := Prod.snd) (fun acc i h => by
    dsimp only
    split
    · exact h.solError
    · split
      · exact h.count.solError.raise
      · exact h) _ h

theorem Tended.setState {st : Nat} (hm : m < 256) (h : Tended s t) : Tended s (setState m st t) :=
  .ite h.setFilt (.raise (.wr h.setFilt rfl (by simp only [SOL_FIXCHG]; omega)))

theorem Tended.solCmdRes {c st e : Nat} (h : Tended s t) : Tended s (cmdRes 7 0 0x24 75 c st e t) := h.wr.wr.wr.raise

theorem Tended.runMachCmd (h : Tended s t) : Tended s (runMachCmd m t).2 := by
  unfold Machine.runMachCmd
  dsimp only
  split
  · exact h
  · exact h.setFilt.count.raise.wr.solCmdRes

theorem Tended.addWork {a r : Nat} (h : Tended s t) : Tended s (addWork a r t) := .ite h.setSol.wr.wr.raise h.setSol.wr.wr

theorem Tended.gnssUpdate {p : Payload} {z : Solve} {stage : Nat} {x : Epoch} (h : Tended s t) : Tended s (gnssUpdate m p z stage x t).2 := by
  unfold Machine.gnssUpdate
  split
  · exact h
  · extract_lets unpaired counted most depth adopted
    have hc : Tended s counted := h.count
    split
    · exact hc
    · split
      · split
        · exact hc.count.raise.setFilt.count.raise
        · exact hc.count.raise.setFilt
      · exact (Tended.ite hc.count.raise hc).setFilt

theorem epoch_tends {cyc stage cmd : Nat} {b : Option (List Byte)} {z : Solve} (hm : m < 256) (s : State) :
    ∃ u, Tended s u ∧ Tended (if b.isNone then Machine.count SOL_CNT_MISSING 1 u else u) (epoch m cyc b z stage cmd s).2 := by
  unfold epoch
  extract_lets latched _ _ _ _ cleared _ _ cause p _ counted lost bb marks marked _ _ _ _ _ x gnss _ updated
  have hu : Tended s cleared := (Tended.refl s).latchEntry.setFilt
  have hc : Tended (if b.isNone then Machine.count SOL_CNT_MISSING 1 cleared else cleared) counted := by
    dsimp only [counted]
    split
    · exact .refl _
    · exact .ite (Tended.refl _).count.raise (.refl _)
  refine ⟨cleared, hu, ?_⟩
  generalize (if b.isNone = true then Machine.count SOL_CNT_MISSING 1 cleared else cleared) = v at hc ⊢
  have hk : Tended v marked := hc.takeMarks
  have hg : Tended v updated := by
    dsimp only [updated, gnss]
    split
    · exact hk.gnssUpdate
    · exact hk
  split
  · exact hk.setFilt.setState hm
  · exact hg.setFilt.setState hm

/-! ### The flags of an epoch (Table SOL-13) -/

theorem addFlag_sets (i : Nat) (x : Epoch) : bit (addFlag i x).flags i = true := by
  unfold addFlag
  split
  next set => exact set
  next clear => rw [bit_add_two_pow (by simpa using clear)]; simp

theorem addFlag_keeps {j : Nat} {x : Epoch} (h : bit x.flags j = true) (i : Nat) : bit (addFlag i x).flags j = true := by
  unfold addFlag
  split
  · exact h
  next clear => rw [bit_add_two_pow (by simpa using clear), h, Bool.or_true]

theorem addError_flags (e : Nat) (x : Epoch) : (addError e x).flags = x.flags := by
  unfold addError
  split <;> rfl

theorem keeps_flag_if {j : Nat} {c : Prop} [Decidable c] {x : Epoch} (h : bit x.flags j = true) (i : Nat) : bit (if c then addFlag i x else x).flags j = true := by
  split
  · exact addFlag_keeps h i
  · exact h

/-- An epoch without an observation has MISSING set, whatever else it has. -/
theorem epoch_missing {cyc stage cmd : Nat} {z : Solve} (s : State) : bit (epoch m cyc none z stage cmd s).1.flags 0 = true := by
  unfold epoch
  extract_lets _ _ _ _ _ _ _ _ _ _ told _ lost _ _ _ marked _ _ _ wants x gnss solved _ _ due _ _ _ _ sighted moved
  have told_missing : bit told.flags 0 = true := addFlag_sets 0 _
  have unsolved : wants = false := rfl
  have kept : solved.flags = told.flags := by
    dsimp only [solved, gnss, x]
    rw [unsolved]
    rfl
  have due_missing : bit due.flags 0 = true := keeps_flag_if (kept ▸ told_missing) 7
  have sighted_missing : bit sighted.flags 0 = true := by
    dsimp only [sighted]
    split
    · exact due_missing
    · exact addFlag_keeps due_missing 10
  split
  · exact addFlag_keeps (x := marked) told_missing 6
  · exact keeps_flag_if (x := moved) (keeps_flag_if sighted_missing 11) 2
end
end Sys2Proof.Machine

namespace Sys2Proof.Machine

/-! ### The solution record (Table SOL-13) -/

theorem leAt_leBytes (n v : Nat) (l : List Byte) : leAt (leBytes n v ++ l) 0 n = v % 256 ^ n := by
  rw [leAt, slice, List.drop_zero, List.take_left' (leBytes_length n v), ofLe_leBytes]

theorem leAt_skip (k v : Nat) (l : List Byte) {i n : Nat} (h : k ≤ i) : leAt (leBytes k v ++ l) i n = leAt l (i - k) n := by
  rw [leAt, leAt, slice, slice, List.drop_append, leBytes_length, List.drop_eq_nil_of_le (by simpa using h), List.nil_append]

/-- r is a solution record of m for a cycle: its 64 bytes, and its first fields, the fix state and the flags among them. -/
structure SolutionRecord (r : List Byte) (cyc m st flags : Nat) : Prop where
  length : r.length = 64
  cycle : leAt r 0 4 = cyc % 2 ^ 32
  fleet : leAt r 4 1 = m % 256
  state : leAt r 5 1 = st % 256
  flags : leAt r 6 2 = flags % 2 ^ 16

theorem solution_record (m cyc : Nat) (b : List Byte) (z : Solve) (x : Epoch) (s : State) : SolutionRecord (solution m cyc b z x s).1 cyc m (filt m s).st x.flags := by
  unfold solution
  extract_lets
  simp only [List.append_assoc]
  constructor
  · simp only [List.length_append, leBytes_length]
  · exact leAt_leBytes _ _ _
  · rw [leAt_skip _ _ _ (by decide)]; exact leAt_leBytes _ _ _
  · rw [leAt_skip _ _ _ (by decide), leAt_skip _ _ _ (by decide)]; exact leAt_leBytes _ _ _
  · rw [leAt_skip _ _ _ (by decide), leAt_skip _ _ _ (by decide), leAt_skip _ _ _ (by decide)]; exact leAt_leBytes _ _ _

/-! ### An epoch published (R87, R90 to R92) -/

/-- From s to t SOL is as Tended has it, but that one more observation was missing, where unseen holds, and one more solution late, where overdue holds. -/
structure Counts (unseen overdue : Bool) (s t : State) : Prop where
  obs : t.sol.obs = s.sol.obs
  open_ : t.sol.open_ = s.sol.open_
  tally : t.sol.tally = s.sol.tally
  newest : t.sol.newest = s.sol.newest
  missing : if unseen then CountsUp SOL_CNT_MISSING 1 s t else rd SOL_CNT_MISSING t = rd SOL_CNT_MISSING s
  deadline : if overdue then CountsUp SOL_CNT_DEADLINE 1 s t else rd SOL_CNT_DEADLINE t = rd SOL_CNT_DEADLINE s

theorem count_countsUp {f : Fld} (hb : isBlk f.blk) (n : Nat) (s : State) : CountsUp f n s (count f n s) := by
  rw [CountsUp, count, rd_wr_same _ _ _ hb]
  exact Nat.mod_eq_of_lt (by have := Nat.two_pow_pos f.width; omega)

section
variable {unseen overdue : Bool} {s t u : State}

theorem Tended.counts (h : Tended s t) (g : Counts unseen overdue t u) : Counts unseen overdue s u := by
  refine ⟨g.obs.trans h.obs, g.open_.trans h.open_, g.tally.trans h.tally, g.newest.trans h.newest, ?_, ?_⟩
  · simpa only [CountsUp, h.missing] using g.missing
  · simpa only [CountsUp, h.deadline] using g.deadline

theorem Counts.tended (h : Counts unseen overdue s t) (g : Tended t u) : Counts unseen overdue s u := by
  refine ⟨g.obs.trans h.obs, g.open_.trans h.open_, g.tally.trans h.tally, g.newest.trans h.newest, ?_, ?_⟩
  · simpa only [CountsUp, g.missing] using h.missing
  · simpa only [CountsUp, g.deadline] using h.deadline

theorem counts_missing (unseen : Bool) (s : State) : Counts unseen false s (if unseen then count SOL_CNT_MISSING 1 s else s) := by
  cases unseen
  · exact ⟨rfl, rfl, rfl, rfl, rfl, rfl⟩
  · obtain ⟨obs, open_, tally, newest, -, -⟩ := wr_sol_parts SOL_CNT_MISSING (min (rd SOL_CNT_MISSING s + 1) (2 ^ SOL_CNT_MISSING.width - 1)) s
    exact ⟨obs, open_, tally, newest, count_countsUp (by decide) 1 s, rd_wr_other _ _ _ _ (by decide) (by decide)⟩

theorem Counts.late (h : Counts unseen false s t) (overdue : Bool) : Counts unseen overdue s (if overdue then raise 70 (count SOL_CNT_DEADLINE 1 t) else t) := by
  cases overdue
  · exact h
  · obtain ⟨obs, open_, tally, newest, -, -⟩ := wr_sol_parts SOL_CNT_DEADLINE (min (rd SOL_CNT_DEADLINE t + 1) (2 ^ SOL_CNT_DEADLINE.width - 1)) t
    obtain ⟨obs₀, open₀, tally₀, newest₀, missing₀, deadline₀⟩ := h
    have stands : rd SOL_CNT_MISSING (raise 70 (count SOL_CNT_DEADLINE 1 t)) = rd SOL_CNT_MISSING t := rd_wr_other _ _ _ _ (by decide) (by decide)
    have counted : rd SOL_CNT_DEADLINE (raise 70 (count SOL_CNT_DEADLINE 1 t)) = _ := count_countsUp (by decide) 1 t
    have counted_of : CountsUp SOL_CNT_DEADLINE 1 s (raise 70 (count SOL_CNT_DEADLINE 1 t)) := by
      rw [CountsUp, ← show rd SOL_CNT_DEADLINE t = rd SOL_CNT_DEADLINE s from deadline₀]; exact counted
    show Counts unseen true s (raise 70 (count SOL_CNT_DEADLINE 1 t))
    exact ⟨obs.trans obs₀, open_.trans open₀, tally.trans tally₀, newest.trans newest₀, by simpa only [CountsUp, stands] using missing₀, counted_of⟩

/-- What publishing an epoch of o does to SOL and to the counts, and what its record holds. -/
structure Published (o : ObsIn) (unseen overdue : Bool) (s t : State) : Prop where
  obs : t.sol.obs = s.sol.obs
  open_ : t.sol.open_ = s.sol.open_
  tally : t.sol.tally.1 = s.sol.tally.1 + 1
  missing : unseen = true → CountsUp SOL_CNT_MISSING 1 s t
  deadline : overdue = true → CountsUp SOL_CNT_DEADLINE 1 s t
  newest : ∃ r flags, tfind o.fleet t.sol.newest = some r ∧ SolutionRecord r o.cycle o.fleet (filt o.fleet t).st flags ∧
    (unseen = true → bit flags 0 = true) ∧ (overdue = true → bit flags 12 = true)

theorem publish_publishes {o : ObsIn} (ho : o.fleet < 256) (b : Option (List Byte)) (z : Solve) (stage : Nat) (late : Bool) (s : State) :
    Published o b.isNone late s (publish o b z stage late s) := by
  unfold publish
  extract_lets m c r x counted st _ tallied measured record _ stored pushed planned told
  obtain ⟨u, latched, lived⟩ := epoch_tends (cyc := o.cycle) (stage := stage) (cmd := c.1) (b := b) (z := z) ho c.2
  have hc : Counts b.isNone late s counted := ((((Tended.refl s).runMachCmd.trans latched).counts (counts_missing _ u)).tended lived).late late
  have hw : Tended tallied measured := (Tended.refl tallied).addWork.wr
  have after : Calm stored (takeEcho (ownerOf m told) (echoOf b) told) := (Calm.refl stored).pushBytes.takeSolution.pushBytes.takeEcho
  generalize takeEcho (ownerOf m told) (echoOf b) told = t at after
  have sol := after.sol
  have reg (f : Fld) (hf : f.blk = 7) : rd f t = rd f stored := by simp only [rd, hf, regsAt, sol]
  have flag_missing (h : b.isNone = true) : bit x.flags 0 = true := by
    obtain rfl := Option.isNone_iff_eq_none.1 h
    have unseen : bit r.1.flags 0 = true := epoch_missing c.2
    dsimp only [x]
    split
    · rw [addError_flags]; exact addFlag_keeps unseen 12
    · exact unseen
  have flag_late (h : late = true) : bit x.flags 12 = true := by
    dsimp only [x]
    rw [if_pos h, addError_flags]
    exact addFlag_sets 12 _
  have newest : tfind o.fleet t.sol.newest = some record.1 := by rw [sol]; exact tfind_tins_same _ _ _
  have state : filt o.fleet t = filt o.fleet measured := by rw [filt, sol]; rfl
  refine ⟨?_, ?_, ?_, fun h => ?_, fun h => ?_, record.1, x.flags, newest, ?_, flag_missing, flag_late⟩
  · rw [sol]; exact hw.obs.trans hc.obs
  · rw [sol]; exact hw.open_.trans hc.open_
  · rw [sol, ← hc.tally]; exact congrArg Prod.fst hw.tally
  · have counted := hc.missing
    rw [if_pos h] at counted
    exact (reg _ rfl).trans (hw.missing.trans counted)
  · have counted := hc.deadline
    rw [if_pos h] at counted
    exact (reg _ rfl).trans (hw.deadline.trans counted)
  · rw [state]
    exact solution_record _ _ _ _ _ _
end
end Sys2Proof.Machine

namespace Sys2Proof.Machine

/-! ### The end of a slot and a deadline (R87, R90) -/

theorem engineTake_empty {n : Nat} {s : State} (h : (flume n s).tags = []) : engineTake n s = (none, s) := by
  simp [engineTake, flumeLen, h, skipMarks]

theorem takeRefs_empty {s : State} (h : (flume (rd SOL_FLUME_REF_IN s) s).tags = []) (n : Nat) : takeRefs n s = s := by
  cases n
  · rfl
  · rw [takeRefs, engineTake_empty h]

theorem Keeps.setSol (x : Sol) (s : State) : Keeps [.sol] s (setSol x s) := ⟨rfl, fun p hp => by cases p <;> first | rfl | exact absurd (.head _) hp⟩

/-- The epoch of a machine of which no observation has come. -/
def unseenObs (m sl : Nat) (s : State) : ObsIn := { fleet := m, cycle := cycleNo s, slot := sl, regular := true, update := true, payload := [] }

/-- A slot of one member, with no reference record, no observation and no unfinished solution waiting. -/
structure LoneSlot (sl m : Nat) (l : List Solve) (z : Solve) (s : State) : Prop where
  on_ : solOn s = true
  refs : (flume (rd SOL_FLUME_REF_IN s) s).tags = []
  obs : s.sol.obs = []
  open_ : s.sol.open_ = []
  members : slotMembers sl (cycleNo s) s = [m]
  solved : l.find? (fun z => z.fleet == m) = some z

/-- What closes a slot: the frames that came in it as spare ones, and then nothing of it waits any more. -/
def closeSlot (sl : Nat) (l : List Solve) (t : State) : State :=
  let u := (t.sol.obs.filter (fun o => o.slot == sl && !o.regular)).foldl (fun s o => spareFrame o (l.find? (fun z => z.fleet == o.fleet)) s) t
  setSol { u.sol with obs := u.sol.obs.filter (fun o => o.slot != sl) } u

theorem closeSlot_empty (sl : Nat) (l : List Solve) {t : State} (h : t.sol.obs = []) : closeSlot sl l t = t := by
  simp only [closeSlot, h, List.filter_nil, List.foldl_nil]
  rw [← h]
  rfl

/-- At the end of such a slot its member's epoch is published, or waits where its solution is unfinished. -/
theorem LoneSlot.slotEnd {sl m : Nat} {l : List Solve} {z : Solve} {s : State} (h : LoneSlot sl m l z s) (hm : m < 256) :
    slotEnd sl l s = if z.ready then publish (unseenObs m sl s) none z 0 false s else setSol { s.sol with open_ := [unseenObs m sl s] } s := by
  obtain ⟨on_, refs, obs, open_, members, solved⟩ := h
  have closes : Machine.slotEnd sl l s = closeSlot sl l (if z.ready then publish (unseenObs m sl s) none z 0 false s else setSol { s.sol with open_ := [unseenObs m sl s] } s) := by
    simp only [Machine.slotEnd, closeSlot, on_, takeRefs_empty refs, members, List.foldl_cons, List.foldl_nil, solved, obs, open_, List.find?_nil, List.nil_append, Option.map_none,
      Option.getD_none, Bool.not_true, Bool.false_eq_true, if_false, unseenObs]
  rw [closes]
  refine closeSlot_empty sl l ?_
  split
  · exact (publish_publishes hm none z 0 false s).obs.trans obs
  · exact obs

theorem SolutionRecord.flag {r : List Byte} {cyc m st flags j : Nat} (h : SolutionRecord r cyc m st flags) (hj : j < 16) (hf : bit flags j = true) : bit (leAt r 6 2) j = true := by
  rw [h.flags, bit_mod_two_pow hj, hf]

theorem cycleNo_lt (s : State) : cycleNo s < 2 ^ 32 := Nat.mod_lt _ (by decide)

section
variable {s t v : State}

/-- SOL after a command is as its own effect left it. -/
theorem Leaves.rd_sol (h : Leaves s v t) (f : Fld) (hf : f.blk = 7 := by rfl) : rd f t = rd f v := h.reg f (by rw [hf]; decide)

theorem Leaves.filt (h : Leaves s v t) (m : Nat) : filt m t = filt m v := by rw [Machine.filt, h.sol, Machine.filt]

/-- R87 for a member of which no observation has come. -/
theorem slotEnd_lone {sl m : Nat} {l : List Solve} {z : Solve} (h : LoneSlot sl m l z s) (hm : m < 256) :
    (z.ready = true → Answers (.slotEnd sl l) s (fun t => ∃ r, tfind m t.sol.newest = some r ∧ r.length = 64 ∧ leAt r 0 4 = cycleNo s ∧ leAt r 4 1 = m ∧
      leAt r 5 1 = (filt m t).st % 256 ∧ bit (leAt r 6 2) 0 = true ∧ CountsUp SOL_CNT_MISSING 1 s t ∧ t.sol.tally.1 = s.sol.tally.1 + 1 ∧ t.sol.open_ = [])) ∧
    (z.ready = false → Answers (.slotEnd sl l) s (fun t => t.sol.open_ = [unseenObs m sl s] ∧ t.sol.newest = s.sol.newest ∧ Keeps [.sol] s t)) := by
  obtain ⟨t, e, leaves⟩ := run_leaves (slotEnd sl l) s
  have quiet : LoneSlot sl m l z { s with out := [] } := ⟨h.on_, h.refs, h.obs, h.open_, h.members, h.solved⟩
  rw [quiet.slotEnd hm] at leaves
  constructor
  · intro ready
    rw [if_pos ready] at leaves
    obtain ⟨-, open_, tally, missing, -, r, flags, newest, rec_, unseen, -⟩ := publish_publishes (o := unseenObs m sl { s with out := [] }) hm none z 0 false { s with out := [] }
    have missing := missing rfl
    refine ⟨t, e, r, ?_, rec_.length, ?_, ?_, ?_, rec_.flag (by decide) (unseen rfl), ?_, ?_, ?_⟩
    · rw [leaves.sol]; exact newest
    · exact rec_.cycle.trans (Nat.mod_eq_of_lt (cycleNo_lt s))
    · exact rec_.fleet.trans (Nat.mod_eq_of_lt hm)
    · rw [leaves.filt]; exact rec_.state
    · exact (leaves.rd_sol _).trans missing
    · rw [leaves.sol]; exact tally
    · rw [leaves.sol]; exact open_.trans h.open_
  · intro unready
    rw [if_neg (by simp [unready])] at leaves
    refine ⟨t, e, ?_, ?_, leaves.keeps _ (Keeps.setSol _ _)⟩
    · rw [leaves.sol]; rfl
    · rw [leaves.sol]; rfl

/-- While SOL does not run, the end of a slot drops what came in it. -/
theorem slotEnd_off (sl : Nat) (l : List Solve) (h : solOn s = false) :
    Answers (.slotEnd sl l) s (fun t => t.sol.obs = s.sol.obs.filter (fun o => o.slot != sl) ∧ t.sol.newest = s.sol.newest ∧ Keeps [.sol] s t) := by
  obtain ⟨t, e, leaves⟩ := run_leaves (slotEnd sl l) s
  have off : solOn { s with out := [] } = false := h
  simp only [slotEnd, off, Bool.not_false, if_true] at leaves
  refine ⟨t, e, ?_, ?_, leaves.keeps _ (Keeps.setSol _ _)⟩ <;> rw [leaves.sol] <;> rfl

/-- R90: an unfinished solution goes out late. -/
theorem solDeadline_open {z : Solve} {stage : Nat} {o : ObsIn} (ho : s.sol.open_.find? (fun o => o.fleet == z.fleet) = some o) (hm : o.fleet < 256) :
    Answers (.solDeadline z stage) s (fun t => t.sol.open_ = s.sol.open_.filter (fun o => o.fleet != z.fleet) ∧
      (∃ r, tfind z.fleet t.sol.newest = some r ∧ r.length = 64 ∧ leAt r 0 4 = o.cycle % 2 ^ 32 ∧ leAt r 4 1 = z.fleet ∧ bit (leAt r 6 2) 12 = true) ∧
      CountsUp SOL_CNT_DEADLINE 1 s t) := by
  obtain ⟨t, e, leaves⟩ := run_leaves (solDeadline z stage) s
  have same : o.fleet = z.fleet := by simpa using List.find?_some ho
  have published := publish_publishes hm (if o.payload = [] then none else some o.payload) z (min stage 2) true
    (setSol { s.sol with open_ := s.sol.open_.filter (fun o => o.fleet != z.fleet) } { s with out := [] })
  have effect : solDeadline z stage { s with out := [] } = publish o (if o.payload = [] then none else some o.payload) z (min stage 2) true
    (setSol { s.sol with open_ := s.sol.open_.filter (fun o => o.fleet != z.fleet) } { s with out := [] }) := by simp only [solDeadline, ho]
  rw [effect] at leaves
  generalize publish _ _ _ _ _ _ = v at leaves published
  obtain ⟨-, open_, -, -, deadline, r, flags, newest, rec_, -, late⟩ := published
  refine ⟨t, e, ?_, ⟨r, ?_, rec_.length, rec_.cycle, ?_, rec_.flag (by decide) (late rfl)⟩, ?_⟩
  · rw [leaves.sol]; exact open_
  · rw [leaves.sol, ← same]; exact newest
  · rw [← same]; exact rec_.fleet.trans (Nat.mod_eq_of_lt hm)
  · exact (leaves.rd_sol _).trans (deadline rfl)

theorem solDeadline_none {z : Solve} {stage : Nat} (h : s.sol.open_.find? (fun o => o.fleet == z.fleet) = none) : Answers (.solDeadline z stage) s (fun t => Keeps [] s t) := by
  obtain ⟨t, e, leaves⟩ := run_leaves (solDeadline z stage) s
  simp only [solDeadline, h] at leaves
  exact ⟨t, e, leaves.keeps _ (Keeps.refl _ _)⟩

/-! ### A cycle without a reference record (R635) -/

theorem rd_enterSol (st : Nat) (s : State) (h : st < 4) : rd SOL_STATUS_STATE (enterSol st s) = st := by
  unfold enterSol
  split
  next same => exact same
  · exact (rd_wr_same _ _ _ (by decide)).trans (Nat.mod_eq_of_lt h)

theorem enterSol_missed (st : Nat) (s : State) : (enterSol st s).sol.missed = s.sol.missed := by
  unfold enterSol
  split
  · rfl
  · obtain ⟨-, -, -, -, -, missed⟩ := wr_sol_parts SOL_STATUS_STATE st s
    exact missed

theorem enterSol_evt (st : Nat) (s : State) : (enterSol st s).evt = s.evt := by
  unfold enterSol
  split
  · rfl
  · exact wr_evt _ _ _ (by decide)

theorem mem_enterSol_notes {x : Note} (st : Nat) {s : State} (h : x ∈ s.notes) : x ∈ (enterSol st s).notes := by
  unfold enterSol
  split
  · exact h
  · exact List.mem_append_left _ (by rwa [wr_notes])

theorem Keeps.enterSol (st : Nat) (s : State) : Keeps [.sol] s (enterSol st s) := by
  unfold Machine.enterSol
  split
  · exact .refl _ _
  · exact (Keeps.wr _ _ _ (by decide)).trans (.raise _ _ _)

/-- What a cycle's reference record missing does. -/
def recordMissed (s : State) : State :=
  enterSol 2 (raise 72 (solError 0x04 (cycleNo s % 65536) (setSol { s.sol with missed := some (cycleNo s) } s)))

theorem refMissing_empty (hs : solOn s = true) (hf : (flume (rd SOL_FLUME_REF_IN s) s).tags = []) (hr : ∀ r, s.sol.ref = some r → r.cycle ≠ cycleNo s) :
    refMissing s = if s.sol.missed = some (cycleNo s) then s else recordMissed s := by
  simp only [refMissing, hs, takeRefs_empty hf, Bool.not_true, Bool.false_eq_true, if_false, recordMissed]
  cases newest : s.sol.ref with
  | none => simp only [Bool.false_or, beq_iff_eq]
  | some r => simp only [beq_eq_false_iff_ne.2 (hr r newest), Bool.false_or, beq_iff_eq]

theorem solRefMissing_answers (hs : solOn s = true) (hf : (flume (rd SOL_FLUME_REF_IN s) s).tags = []) (hr : ∀ r, s.sol.ref = some r → r.cycle ≠ cycleNo s) :
    (s.sol.missed ≠ some (cycleNo s) → Answers .solRefMissing s (fun t => rd SOL_STATUS_STATE t = 2 ∧ t.sol.missed = some (cycleNo s) ∧
      (on EVT_CTRL_EN s = true → Pended 72 t) ∧ Keeps [.sol] s t)) ∧
    (s.sol.missed = some (cycleNo s) → Answers .solRefMissing s (fun t => Keeps [] s t)) := by
  obtain ⟨t, e, leaves⟩ := run_leaves refMissing s
  have effect := refMissing_empty (s := { s with out := [] }) hs hf hr
  constructor
  · intro fresh
    rw [if_neg (show ¬ ({ s with out := [] } : State).sol.missed = some (cycleNo { s with out := [] }) from fresh)] at effect
    rw [effect] at leaves
    refine ⟨t, e, ?_, ?_, fun evt => ?_, leaves.keeps _ ?_⟩
    · exact (leaves.rd_sol _).trans (rd_enterSol 2 _ (by decide))
    · rw [leaves.sol, recordMissed, enterSol_missed]; rfl
    · refine run_pends (e := 72) (a := false) e (by decide) ?_ ?_
      · have same : (recordMissed { s with out := [] }).evt = s.evt := enterSol_evt _ _
        rw [effect]
        exact (show on EVT_CTRL_EN (recordMissed { s with out := [] }) = on EVT_CTRL_EN s by simp only [on, rd, regsAt, EVT_CTRL_EN, same]).trans evt
      · rw [effect]
        exact mem_enterSol_notes 2 (List.mem_append_right _ (.head _))
    · exact ((Keeps.setSol _ _).trans (.report _ _ _ _)).trans ((Keeps.raise _ _ _).trans (.enterSol _ _))
  · intro known
    rw [effect, if_pos (show ({ s with out := [] } : State).sol.missed = some (cycleNo { s with out := [] }) from known)] at leaves
    exact ⟨t, e, leaves.keeps _ (Keeps.refl _ _)⟩

/-! ### Commands (R95, R634) -/

theorem solCmdDone_shows (m cmd status error : Nat) (s : State) (hm : m < 256) (hc : cmd < 16) (hs : status < 8) (he : error < 0x10000) :
    Result 7 0 0x24 cmd status error (solCmdDone m cmd status error s) ∧ rd SOL_CMD_RES_FLEET (solCmdDone m cmd status error s) = m := by
  have blk : isBlk 7 := by decide
  have shows (f : Fld) : rd f (solCmdDone m cmd status error s) =
      rd f (wr (fldAt 7 0 0x24 0 3) status (wr (fldAt 7 0 0x24 4 4) cmd (wr (fldAt 7 0 0x24 16 16) error (wr SOL_CMD_RES_FLEET m s)))) := rfl
  refine ⟨⟨?_, ?_, ?_⟩, ?_⟩ <;> rw [shows]
  · rw [rd_wr_other _ _ _ _ blk (by decide), rd_wr_same _ _ _ blk]; exact Nat.mod_eq_of_lt hc
  · rw [rd_wr_same _ _ _ blk]; exact Nat.mod_eq_of_lt hs
  · rw [rd_wr_other _ _ _ _ blk (by decide), rd_wr_other _ _ _ _ blk (by decide), rd_wr_same _ _ _ blk]; exact Nat.mod_eq_of_lt he
  · rw [rd_wr_other _ _ _ _ blk (by decide), rd_wr_other _ _ _ _ blk (by decide), rd_wr_other _ _ _ _ blk (by decide), rd_wr_same _ _ _ blk]; exact Nat.mod_eq_of_lt hm

theorem Keeps.solCmdDone (m cmd status error : Nat) (s : State) : Keeps [.sol] s (solCmdDone m cmd status error s) := by
  have own (f : Fld) (v : Nat) (s : State) (hf : f.blk = 7) : Keeps [.sol] s (Machine.wr f v s) := Keeps.wr _ _ _ (by rw [hf]; decide)
  exact ((own _ _ _ rfl).trans (own _ _ _ rfl)).trans ((own _ _ _ rfl).trans ((own _ _ _ rfl).trans (.raise _ _ _)))

theorem wr_filt (n : Nat) (f : Fld) (v : Nat) (s : State) : filt n (wr f v s) = filt n s := by
  obtain ⟨-, -, -, -, same, -⟩ := wr_sol_parts f v s
  rw [Machine.filt, Machine.filt, same]

theorem solCmdDone_filt (n m cmd status error : Nat) (s : State) : filt n (solCmdDone m cmd status error s) = filt n s := by
  have raised (s : State) : filt n (raise 75 s) = filt n s := rfl
  rw [solCmdDone, cmdRes, cmdResQuiet, raised, wr_filt, wr_filt, wr_filt, wr_filt]

/-- R95: a command for an index that is not MEMBER. -/
theorem machCmd_refused {c m : Nat} (hm : m < 256) (hc : c < 16) (h : isMember m s = false) :
    let t := machCmd c m s
    filt m t = filt m s ∧ Result 7 0 0x24 c 4 0x0709 t ∧ rd SOL_CMD_RES_FLEET t = m ∧ Keeps [.sol] s t := by
  have refused : machCmd c m s = solCmdDone m c 4 0x0709 s := by simp [machCmd, h]
  obtain ⟨result, fleet⟩ := solCmdDone_shows m c 4 0x0709 s hm hc (by decide) (by decide)
  rw [refused]
  exact ⟨solCmdDone_filt _ _ _ _ _ _, result, fleet, Keeps.solCmdDone _ _ _ _ _⟩

theorem filt_setFilt_same (m : Nat) (f : Filt) (s : State) : filt m (setFilt m f s) = f := tget_tset_same _ _ _ _

theorem filt_setFilt_other {m n : Nat} (h : n ≠ m) (f : Filt) (s : State) : filt n (setFilt m f s) = filt n s := tget_tset_other h _ _ _

/-- R634: a command for a MEMBER waits, and one that waited before it ends CANCELLED. -/
theorem machCmd_waits {c m : Nat} (hm : m < 256) (h : isMember m s = true) :
    let t := machCmd c m s
    filt m t = { filt m s with cmd := c } ∧ (∀ n, n ≠ m → filt n t = filt n s) ∧
      ((filt m s).cmd ≠ 0 → (filt m s).cmd < 16 → Result 7 0 0x24 (filt m s).cmd 2 0 t ∧ rd SOL_CMD_RES_FLEET t = m) ∧ Keeps [.sol] s t := by
  have waits : machCmd c m s = if (filt m s).cmd ≠ 0 then setFilt m { filt m (solCmdDone m (filt m s).cmd 2 0 s) with cmd := c } (solCmdDone m (filt m s).cmd 2 0 s)
      else setFilt m { filt m s with cmd := c } s := by
    simp only [machCmd, h, Bool.not_true, Bool.false_eq_true, if_false]
    split <;> rfl
  rw [waits, solCmdDone_filt]
  split
  next older =>
    refine ⟨filt_setFilt_same _ _ _, fun n hn => (filt_setFilt_other hn _ _).trans (solCmdDone_filt _ _ _ _ _ _), fun _ hc => ?_, (Keeps.solCmdDone _ _ _ _ _).trans (Keeps.setSol _ _)⟩
    exact solCmdDone_shows m (filt m s).cmd 2 0 s hm hc (by decide) (by decide)
  next idle => exact ⟨filt_setFilt_same _ _ _, fun n hn => filt_setFilt_other hn _ _, fun older => absurd older idle, Keeps.setSol _ _⟩

theorem machCmd_answers {c m : Nat} {i : Instr} (hm : m < 256) (hi : (c, i) ∈ [(1, .resetAmb m), (2, .resetAll m)]) :
    (isMember m s = false → Answers i s (fun t => filt m t = filt m s ∧ Result 7 0 0x24 c 4 0x0709 t ∧ rd SOL_CMD_RES_FLEET t = m ∧ Keeps [.sol] s t)) ∧
    (isMember m s = true → Answers i s (fun t => filt m t = { filt m s with cmd := c } ∧ (∀ n, n ≠ m → filt n t = filt n s) ∧
      ((filt m s).cmd ≠ 0 → (filt m s).cmd < 16 → Result 7 0 0x24 (filt m s).cmd 2 0 t ∧ rd SOL_CMD_RES_FLEET t = m) ∧ Keeps [.sol] s t)) := by
  have command : exec i s = run (machCmd c m) s ∧ c < 16 := by
    simp only [List.mem_cons, Prod.mk.injEq, List.not_mem_nil, or_false] at hi
    rcases hi with ⟨rfl, rfl⟩ | ⟨rfl, rfl⟩
    · exact ⟨congrArg (fun n => run (machCmd 1 n) s) (Nat.mod_eq_of_lt hm), by decide⟩
    · exact ⟨congrArg (fun n => run (machCmd 2 n) s) (Nat.mod_eq_of_lt hm), by decide⟩
  obtain ⟨effect, hc⟩ := command
  obtain ⟨t, e, leaves⟩ := run_leaves (machCmd c m) s
  have result (cmd status error : Nat) (h : Result 7 0 0x24 cmd status error (machCmd c m { s with out := [] })) : Result 7 0 0x24 cmd status error t := by
    obtain ⟨command, status, error⟩ := h
    exact ⟨(leaves.rd_sol _).trans command, (leaves.rd_sol _).trans status, (leaves.rd_sol _).trans error⟩
  constructor
  · intro h
    obtain ⟨same, refused, fleet, frame⟩ := machCmd_refused (s := { s with out := [] }) hm hc h
    exact ⟨t, effect.trans e, (leaves.filt m).trans same, result _ _ _ refused, (leaves.rd_sol _).trans fleet, leaves.keeps _ frame⟩
  · intro h
    obtain ⟨own, others, cancelled, frame⟩ := machCmd_waits (s := { s with out := [] }) (c := c) hm h
    refine ⟨t, effect.trans e, (leaves.filt m).trans own, fun n hn => (leaves.filt n).trans (others n hn), fun older width => ?_, leaves.keeps _ frame⟩
    obtain ⟨ended, fleet⟩ := cancelled older width
    exact ⟨result _ _ _ ended, (leaves.rd_sol _).trans fleet⟩

theorem solLatClear_answers (s : State) : Answers .solLatClear s (fun t => rd SOL_LAT_MAX t = 0 ∧ t.sol.newest = s.sol.newest ∧ Keeps [.sol] s t) := by
  obtain ⟨t, e, leaves⟩ := run_leaves (wr SOL_LAT_MAX 0) s
  refine ⟨t, e, ?_, ?_, leaves.keeps _ (Keeps.wr _ _ _ (by decide))⟩
  · exact (leaves.rd_sol _).trans (rd_wr_same _ _ _ (by decide))
  · rw [leaves.sol]; rfl
end

/-- Settles O48: the end of a slot, a deadline, a cycle without its reference record, and SOL's commands. -/
theorem solver : Obligations.Solver := by
  refine ⟨?_, fun sl l s => slotEnd_off sl l, fun z stage s => ⟨fun o => solDeadline_open, solDeadline_none⟩,
    fun s => solRefMissing_answers, fun c m i s => machCmd_answers, solLatClear_answers⟩
  intro sl m l z s on_ refs obs open_ hm _ members solved
  exact slotEnd_lone ⟨on_, refs, obs, open_, members, solved⟩ hm

end Sys2Proof.Machine

namespace Sys2Proof.Machine

/-! ### What a push into a flume leaves (R336 to R353) -/

/-- From s to t no part has changed but main SRAM, the flumes and the marks of words in error: all that a push into a flume can reach. -/
def Stored (s t : State) : Prop := Keeps [.mem, .flm, .ecc] s t

section
variable {s t x y : State} {a n k p q v w who : Nat} {b : Bool}

theorem Stored.refl (s : State) : Stored s s := Keeps.refl _ s

theorem Stored.pro (h : Stored s t) : t.pro = s.pro := h.2 .pro (by decide)

/-- An update of those three parts, of the held writes and of the reports. -/
theorem Stored.same (h : Stored s t) {m : List Host.Cell} {f : Flm} {e : MemSt} {d : Tbl Nat} {l : List Note} :
    Stored s { t with mem := m, flm := f, ecc := e, held := d, notes := l } :=
  Keeps.trans h ⟨rfl, fun p hp => by
    cases p
    case mem | flm | ecc => exact absurd (by decide) hp
    all_goals rfl⟩

theorem Stored.ite {c : Prop} [Decidable c] (hx : Stored s x) (hy : Stored s y) : Stored s (if c then x else y) := by split <;> assumption

theorem Stored.foldl {α : Type} {g : State → α → State} (h : Stored s t) (hg : ∀ {t a}, Stored s t → Stored s (g t a)) {l : List α} : Stored s (l.foldl g t) := by
  induction l generalizing t with
  | nil => exact h
  | cons a l ih => exact ih (hg h)

/-- A write of a register of the flumes or of the memory controller. -/
theorem Stored.wr (h : Stored s t) {f : Fld} (hf : (f.blk == 4 || f.blk == 5) = true := by rfl) : Stored s (wr f v t) := by
  have own : ∀ p, blkPart f.blk = some p → p ∈ [Part.mem, .flm, .ecc] := by
    simp only [Bool.or_eq_true, beq_iff_eq] at hf
    rcases hf with e | e <;> rw [e] <;> decide
  exact Keeps.trans h (Keeps.wr f v t own)

theorem Stored.count (h : Stored s t) {f : Fld} (hf : (f.blk == 4 || f.blk == 5) = true := by rfl) : Stored s (count f v t) := h.wr hf

/-! The memory controller. -/

theorem Stored.memError (h : Stored s t) : Stored s (memError k a q who t) :=
  .same (.ite h.wr.wr.wr.wr.wr (.ite h.wr.wr.wr.wr.wr (.ite h.count.same h.count)))

theorem Stored.lineLost (h : Stored s t) : Stored s (lineLost n a q who t) :=
  .same (.memError (.count (.same (h.foldl (g := fun s w => setMark w (some .poisoned) s) fun h => h.same))))

theorem Stored.rebuildWord (h : Stored s t) : Stored s (rebuildWord w q who t) :=
  .same (.memError (.count (.ite h.same h.same)))

theorem Stored.decodeLine (h : Stored s t) : Stored s (decodeLine n a q who t) := by
  unfold Machine.decodeLine
  split
  · exact .ite h.lineLost h.count
  · exact .ite h.lineLost h.rebuildWord
  · exact h.lineLost

theorem Stored.markStore (h : Stored s t) : Stored s (markStore w b who t) := by
  unfold Machine.markStore
  split
  · exact h
  · exact .ite h.same h.count.memError
  · exact .ite h.same (.ite h.decodeLine.same h.decodeLine)

theorem Stored.putWord {d : Word} (h : Stored s t) : Stored s (putWord n p d t) := .same (h.foldl .markStore)

/-! The flume. -/

theorem Stored.commitFlume (h : Stored s t) : Stored s (commitFlume n t) := by
  have commit {u : State} (h : Stored s u) {f : Fld} (hf : (f.blk == 4 || f.blk == 5) = true) : Stored s (commitFld f u) := by
    unfold commitFld
    dsimp only
    split
    · exact h
    · exact .wr h.same hf
  exact commit (commit h rfl) rfl

theorem Stored.watermark (h : Stored s t) : Stored s (watermark n t) := by
  have drive {u : State} (h : Stored s u) {b : Bool} : Stored s (drivePins n b u) := h.foldl fun h => .ite h.same h
  exact .ite h (.ite (drive h.same).same (.ite (drive h.same).same h))

theorem Stored.addLoss (h : Stored s t) : Stored s (addLoss n v k b t) := by
  unfold Machine.addLoss
  dsimp only
  split
  · exact h.putWord
  · exact h.putWord.same.count.count.same

theorem Stored.spill (h : Stored s t) : Stored s (spill n b t) := .watermark (.addLoss (.count (.count h.same)))

theorem Stored.pushWord {d : Word} (h : Stored s t) : Stored s (pushWord n d b t).2 := by
  have committed : Stored s (Machine.commitFlume n t) := h.commitFlume
  unfold Machine.pushWord
  split
  · dsimp only
    split
    · exact h.count.count
    · exact h.count.count.same
  · dsimp only
    split
    · exact committed.same.count
    · split
      · exact committed.same.count.count.addLoss.watermark
      · split
        · exact committed.spill
        · have placed {p : Nat} {f : Flume} : Stored s (setFlume n f (Machine.putWord n p d (Machine.commitFlume n t))) := committed.putWord.same
          exact .watermark (.ite (.wr placed) placed)

theorem Stored.pushRecord {l : List Word} (h : Stored s t) : Stored s (pushRecord n l t).2 := by
  induction l generalizing t with
  | nil => exact h
  | cons d l ih =>
    cases l with
    | nil => exact h.pushWord
    | cons e l => exact ih h.pushWord
end
end Sys2Proof.Machine

namespace Sys2Proof.Machine

/-! ### What keeps a channel (Table PRO-9, R135, R136) -/

/-- From s to t channel n is as it was, and so are the registers of PRO from 0x1000 up: those of the channels (Table PRO-9) and of the fences. -/
structure Steady (n : Nat) (s t : State) : Prop where
  chan : chan? n t = chan? n s
  reg : ∀ f : Fld, f.blk = 9 → 0x20000 ≤ f.key → rd f t = rd f s

section
variable {s t x y : State} {n : Nat}

theorem Steady.refl (n : Nat) (s : State) : Steady n s s := ⟨rfl, fun _ _ _ => rfl⟩

theorem Steady.trans (h : Steady n s t) (g : Steady n t x) : Steady n s x := ⟨g.chan.trans h.chan, fun f hb hk => (g.reg f hb hk).trans (h.reg f hb hk)⟩

/-- An update outside PRO. -/
theorem Steady.same (h : Steady n s t) (hp : x.pro = t.pro := by rfl) : Steady n s x :=
  h.trans ⟨by simp only [chan?, hp], fun f hb _ => by simp only [rd, hb, regsAt, hp]⟩

theorem Steady.raise (h : Steady n s t) {e : Nat} : Steady n s (raise e t) := h.same
theorem Steady.report (h : Steady n s t) {c d : Nat} : Steady n s (report c d t) := h.same

theorem Steady.ite {c : Prop} [Decidable c] (hx : Steady n s x) (hy : Steady n s y) : Steady n s (if c then x else y) := by split <;> assumption

theorem Steady.foldl {α : Type} {g : State → α → State} {l : List α} (h : Steady n s t) (hg : ∀ t, ∀ a ∈ l, Steady n s t → Steady n s (g t a)) : Steady n s (l.foldl g t) := by
  induction l generalizing t with
  | nil => exact h
  | cons a l ih => exact ih (hg t a (.head _) h) fun t a ha => hg t a (.tail _ ha)

theorem chans_wr (f : Fld) (v : Nat) (s : State) : (wr f v s).pro.chans = s.pro.chans := by
  unfold wr setRegs
  split <;> rfl

/-- A write of a register below 0x1000. -/
theorem Steady.wr (h : Steady n s t) {f : Fld} {v : Nat} (hb : isBlk f.blk := by decide) (hk : f.key < 0x20000 := by decide) : Steady n s (wr f v t) :=
  h.trans ⟨by simp only [chan?, chans_wr], fun g _ hg => rd_wr_other f g v t hb (.inr (by omega))⟩

theorem Steady.count (h : Steady n s t) {f : Fld} {v : Nat} (hb : isBlk f.blk := by decide) (hk : f.key < 0x20000 := by decide) : Steady n s (count f v t) := h.wr hb hk

theorem chan?_setChan_same (n : Nat) (c : Chan) (s : State) : chan? n (setChan n c s) = some c := tfind_tins_same _ _ _

theorem chan?_setChan_other {m n : Nat} (h : n ≠ m) (c : Chan) (s : State) : chan? n (setChan m c s) = chan? n s := tfind_tins_other h _ _

/-- An update of another channel. -/
theorem Steady.setChan {m : Nat} {c : Chan} (h : Steady n s t) (hm : n ≠ m) : Steady n s (setChan m c t) :=
  h.trans ⟨chan?_setChan_other hm c t, fun f hb _ => by simp only [rd, hb, regsAt, Machine.setChan]⟩

theorem Steady.setClm {c : Clm} (h : Steady n s t) : Steady n s (setClm c t) := h.same

variable {m status kind chn tag error index : Nat} {g : Seg}

theorem Steady.proDone (h : Steady n s t) : Steady n s (proDone status kind chn tag error index t) := by
  have pushed {f : Nat} {l : List Word} : Steady n s (pushRecord f l t).2 := h.same (Stored.refl t).pushRecord.pro
  exact .ite pushed pushed.count.raise

theorem Steady.segDone (h : Steady n s t) : Steady n s (segDone m g status error t) := h.proDone

theorem Steady.regLimits (h : Steady n s t) (m : Nat) : regLimits m t = regLimits m s := by
  have limit (f : Fld) (hb : f.blk = 9) (hk : 0x20000 ≤ f.key) : rd f t = rd f s := h.reg f hb hk
  simp only [Machine.regLimits, limit (PRO_CH_ACC_A_MAX m) rfl (Nat.le_add_right_of_le (by decide)), limit (PRO_CH_ACC_D_MAX m) rfl (Nat.le_add_right_of_le (by decide)),
    limit (PRO_CH_JERK_J_MAX m) rfl (Nat.le_add_right_of_le (by decide)), limit (PRO_CH_STOP_D_STOP m) rfl (Nat.le_add_right_of_le (by decide)),
    limit (PRO_CH_STOP_J_STOP m) rfl (Nat.le_add_right_of_le (by decide))]

/-! ### The tick of a machine channel (R137, R142) -/

theorem Steady.takeLimits {c : Chan} (h : Steady n s t) : Steady n s (takeLimits m c t).2 := by
  unfold Machine.takeLimits
  dsimp only
  split
  · split
    · exact h.count.raise
    · exact h
  · exact h

theorem Steady.passSegs {f : Nat} {c : Chan} (h : Steady n s t) : Steady n s (passSegs m f c t).2 := by
  induction f generalizing c t with
  | zero => exact h
  | succ f ih =>
    unfold Machine.passSegs
    split
    · exact h
    next g rest _ =>
      extract_lets _ _ _ _ done
      have hd : Steady n s done := h.segDone
      split
      · exact h
      · split
        · exact hd
        · exact ih (.ite hd.raise hd)

/-- Channel c of machine m comes to rest in STOP with nothing queued, under the limits its registers give. -/
structure Stopping (m : Nat) (c : Chan) (s : State) : Prop where
  mode : c.mode = .stop
  queue : c.queue = []
  moves : c.v ≠ 0
  limits : regLimits m s = (c.aUse, c.dUse, c.jUse, c.dsUse, c.jsUse)
  settled : c.deferred = false

/-- Channel d is c after one more tick of the generator toward rest, on the limits of a stop (R142, R148). -/
def SteppedToRest (c d : Chan) : Prop :=
  let a2 := steerTo (1000 * c.aUse) (1000 * c.dsUse) c.jsUse c.v c.a 0
  d.v = c.v + c.a + a2 ∧ d.a = a2 ∧ d.st = c.st + (3 * c.v + 2 * c.a + a2) * sg c.dir ∧ d.mode = .stop ∧ d.queue = []

theorem Steady.stopping {m : Nat} {c : Chan} (h : Steady n s t) (hs : Stopping m c s) : Stopping m c t :=
  { hs with limits := (h.regLimits m).trans hs.limits }

/-- Limits that are in use already change nothing. -/
theorem takeLimits_in_use {m : Nat} {c : Chan} (h : Stopping m c s) : takeLimits m c s = (c, s) := by
  obtain ⟨-, -, -, limits, settled⟩ := h
  unfold takeLimits
  rw [limits]
  cases c
  cases settled
  simp

theorem planTick_free (am d j : Nat) (vc : Int) (k : Kin) : planTick am d j [] vc k = steerTo am d j k.v k.a vc := rfl

theorem passSegs_empty {m f : Nat} {c : Chan} (h : c.queue = []) (s : State) : passSegs m f c s = (c, s) := by
  cases f with
  | zero => rfl
  | succ f => unfold passSegs; rw [h]

/-- The tick of an open machine channel leaves it as some d, every other channel and every channel register as it was; one that stops takes the generator's next step. -/
theorem tickMachine_ticks {m : Nat} {c : Chan} (hm : m < 256) (hc : chan? m s = some c) :
    ∃ d u, (∀ n, Steady n s u) ∧ (tickMachine m s).pro = (setChan m d u).pro ∧ (Stopping m c s → SteppedToRest c d) := by
  unfold tickMachine
  rw [hc]
  dsimp -zeta only
  extract_lets taken c1 s1 c2 now d1 j1 a sp near lk running cap gv lim k breach hard c3 s2 d2 j2 joints vc targets a2 q moved wasMoving c4 passed c5 c6 s3 s4 late s5 c7 clm s6 c8 s7 p clm'
  refine ⟨c8, s6, fun n => ?_, ?_, fun h => ?_⟩
  · have taken_ : Steady n s s1 := (Steady.refl n s).takeLimits
    have breached : Steady n s s2 := .ite taken_.count.report.raise taken_
    have rested : Steady n s s4 := .ite breached.passSegs.raise breached.passSegs
    have told : Steady n s s5 := .ite (rested.wr (show isBlk 9 by decide) (by simp only [PRO_LATE]; omega)).count.report.raise rested
    exact .ite told.setClm told
  · split <;> rfl
  · have h1 : c1 = c := congrArg Prod.fst (takeLimits_in_use h)
    have h2 : c2 = c := by simp [c2, h1, atRest, h.moves]
    have calm : breach = false := by simp [breach, h2, h.mode]
    have h3 : c3 = c := by simp [c3, hard, calm, h2]
    have free : targets = [] := by simp [targets, h3, h.mode]
    have halts : vc = 0 := by simp [vc, h3, h.mode]
    have steers : a2 = steerTo (1000 * c.aUse) (1000 * c.dsUse) c.jsUse c.v c.a 0 := by
      simp [a2, free, halts, planTick_free, a, d2, j2, d1, j1, calm, k, h2, h.mode]
    have kept : passed = (c4, s2) := passSegs_empty (by simp [c4, h3, h.queue]) s2
    have last : c5 = c4 := congrArg Prod.fst kept
    have step : q = tickKin k a2 := rfl
    simp only [SteppedToRest, c8, c7, c6, last, c4, moved, step, tickKin, k, steers, h2, h3, h.mode, h.queue, and_self]

theorem Steady.tickMachine {m : Nat} (h : Steady n s t) (hm : m < 256) (hn : n ≠ m) : Steady n s (tickMachine m t) := by
  cases hc : chan? m t with
  | none =>
    unfold Machine.tickMachine
    rwa [hc]
  | some c =>
    obtain ⟨d, u, steady, pro, -⟩ := tickMachine_ticks hm hc
    exact h.trans (((steady n).setChan hn).same pro)
end
end Sys2Proof.Machine

namespace Sys2Proof.Machine

/-! ### The tick of every machine channel (R137) -/

/-- PRO after a command is as its own effect left it, and a frame of the effect is one of the command. -/
theorem run_pro (f : State → State) (s : State) :
    ∃ t, run f s = .next t ∧ t.pro = (f { s with out := [] }).pro ∧ ∀ ps, Keeps ps { s with out := [] } (f { s with out := [] }) → Keeps ps s t :=
  run_answers f s _ fun _ x y _ ap _ => ⟨ap.pro, fun _ h => Keeps.sent ap h x y _⟩

theorem chan?_of_pro {n : Nat} {s t : State} (h : t.pro = s.pro) : chan? n t = chan? n s := by rw [chan?, h, chan?]

theorem tfind_append_cons {α : Type} {k : Nat} {x : α} {l r : Tbl α} (h : ∀ p ∈ l, p.1 ≠ k) : tfind k (l ++ (k, x) :: r) = some x := by
  induction l with
  | nil => simp [tfind]
  | cons p l ih =>
    obtain ⟨own, rest⟩ := List.forall_mem_cons.1 h
    simp [tfind, own, ih rest]

/-- Ticks of other machine channels. -/
theorem Steady.ticks {m : Nat} {s t : State} (h : Steady m s t) {l : List Nat} (hl : ∀ k ∈ l, k < 256 ∧ m ≠ k) :
    Steady m s (l.foldl (fun s k => Machine.tickMachine k s) t) :=
  h.foldl fun _ k hk h => h.tickMachine (hl k hk).1 (hl k hk).2

theorem proTick_pro {s : State} (hp : proOn s = true) (hh : s.held = []) :
    (proTick s).pro = (((keys s.pro.chans).filter (· < 256)).foldl (fun s m => tickMachine m s) s).pro := by
  unfold proTick
  simp only [hp, commitBlk_of_none 9 hh, Bool.not_true, Bool.false_eq_true, if_false]
  split <;> rfl

/-- A channel that stops takes one step of the generator toward rest in a tick of all machine channels. -/
theorem proTick_stopping {m : Nat} {c : Chan} {s : State} (hp : proOn s = true) (hh : s.held = []) (hm : m < 256)
    (only : s.pro.chans.filter (fun p => p.1 == m) = [(m, c)]) (h : Stopping m c s) : ∃ d, chan? m (proTick s) = some d ∧ SteppedToRest c d := by
  obtain ⟨l, r, split_, before, -, after⟩ := List.filter_eq_cons_iff.1 only
  have before : ∀ p ∈ l, p.1 ≠ m := by simpa using before
  have after : ∀ p ∈ r, p.1 ≠ m := by simpa using after
  have others {q : Tbl Chan} (hq : ∀ p ∈ q, p.1 ≠ m) : ∀ k ∈ (keys q).filter (· < 256), k < 256 ∧ m ≠ k := by
    intro k hk
    obtain ⟨listed, small⟩ := List.mem_filter.1 hk
    obtain ⟨p, hp, rfl⟩ := List.mem_map.1 listed
    exact ⟨of_decide_eq_true small, (hq p hp).symm⟩
  have open_ : chan? m s = some c := by rw [chan?, split_]; exact tfind_append_cons before
  have order : (keys s.pro.chans).filter (· < 256) = (keys l).filter (· < 256) ++ m :: (keys r).filter (· < 256) := by simp [split_, keys, hm]
  have first := (Steady.refl m s).ticks (others before)
  obtain ⟨d, u, -, pro, steps⟩ := tickMachine_ticks hm (first.chan.trans open_)
  refine ⟨d, ?_, steps (first.stopping h)⟩
  rw [chan?_of_pro (proTick_pro hp hh), order, List.foldl_append, List.foldl_cons, ((Steady.refl m _).ticks (others after)).chan, chan?_of_pro pro]
  exact chan?_setChan_same m d u

/-- A tick of all machine channels as a command, for one that stops. -/
theorem tick_answers {m : Nat} {c : Chan} {s : State} (hp : proOn s = true) (hh : s.held = []) (hm : m < 256)
    (only : s.pro.chans.filter (fun p => p.1 == m) = [(m, c)]) (h : Stopping m c s) :
    Answers .proTick s (fun t => ∃ d, chan? m t = some d ∧ SteppedToRest c d) := by
  obtain ⟨t, e, pro, -⟩ := run_pro proTick s
  obtain ⟨d, own, step⟩ := proTick_stopping (s := { s with out := [] }) hp hh hm only { h with }
  exact ⟨t, e, d, (chan?_of_pro pro).trans own, step⟩

end Sys2Proof.Machine

namespace Sys2Proof.Machine

/-! ### Load records (R131, R136, Table PRO-3) -/

/-- PRO, at work in state s, takes load record l whole from its flume, for machine channel c, open, and stands in state u with it. -/
structure LoadTaken (s : State) (l : Load) (c : Chan) (u : State) : Prop where
  enabled : on PRO_CTRL_EN s = true
  power : awake s = true
  shown : ∃ w, enginePeek (rd PRO_FLUME_LOAD s) s = some w ∧ w.toNat % 256 = l.op
  whole : ∃ ws whole, engineTake (rd PRO_FLUME_LOAD s) s = (some (ws, whole), u) ∧ loadOf ws whole = l
  ok : l.ok = true
  machine : l.chn < 256
  open_ : chan? l.chn u = some c

section
variable {s t u v : State} {l : Load} {c d : Chan} {n : Nat}

/-- What the record does, its receipt counted. -/
def loadEffect (l : Load) (c : Chan) (s : State) : Nat × State := channelOp l.chn l c (if l.op = 1 then appendCause l.chn c l.segs s else 0) s

theorem proTake_taken (h : LoadTaken s l c u) : proTake l.op s = loadDone l (loadEffect l c (count PRO_CNT_LOAD 1 u)).1 (loadEffect l c (count PRO_CNT_LOAD 1 u)).2 := by
  obtain ⟨enabled, power, ⟨w, peek, op⟩, ⟨ws, whole, take, load⟩, ok, machine, open_⟩ := h
  have counted : chan? l.chn (count PRO_CNT_LOAD 1 u) = some c := ((Steady.refl l.chn u).count).chan.trans open_
  have low : ¬ 256 ≤ l.chn := by omega
  simp [proTake, enabled, power, peek, op, take, load, ok, low, machine, counted, loadEffect]

theorem Steady.loadDone (h : Steady n s t) : Steady n s (loadDone l 0 t) := h.proDone

/-- A record that leaves its channel as d, with no cause to refuse it, is answered so, and no other channel changes. -/
theorem load_answers {i : Instr} (hi : exec i s = run (proTake l.op) s) (h : LoadTaken { s with out := [] } l c u) (hv : ∀ n, Steady n u v)
    (he : loadEffect l c (count PRO_CNT_LOAD 1 u) = (0, setChan l.chn d v)) :
    Answers i s (fun t => chan? l.chn t = some d ∧ ∀ m, m ≠ l.chn → chan? m t = chan? m u) := by
  obtain ⟨t, e, pro, -⟩ := run_pro (proTake l.op) s
  have done (n : Nat) : chan? n t = chan? n (setChan l.chn d v) := by
    rw [chan?_of_pro pro, proTake_taken h, he]
    exact (Steady.refl n _).loadDone.chan
  refine ⟨t, hi.trans e, (done _).trans (chan?_setChan_same _ _ _), fun m hm => ?_⟩
  rw [done, chan?_setChan_other hm, (hv m).chan]

theorem appendTo_queue (c : Chan) (segs : List Seg) (x : Int) : (appendTo c segs x).queue = c.queue ++ segs := by
  unfold appendTo
  split
  · dsimp only
    split <;> split <;> rfl
  · rfl

theorem channelOp_append (hl : l.op = 1) : ∃ x, channelOp n l c 0 s = (0, setChan n (appendTo c l.segs x) s) := by
  unfold channelOp
  rw [hl]
  exact ⟨_, rfl⟩

theorem channelOp_clear (hl : l.op = 2) (rest : atRest { v := c.v, a := c.a } = true) :
    ∃ v, (∀ m, Steady m s v) ∧ channelOp n l c 0 s = (0, setChan n { c with queue := [] } v) := by
  refine ⟨c.queue.foldl (fun s g => segDone n g 2 0 s) s, fun m => (Steady.refl m s).foldl fun _ _ _ h => h.segDone, ?_⟩
  unfold channelOp
  rw [hl]
  exact if_neg (by simp [rest])

theorem channelOp_stop (hl : l.op = 3) (stop : l.arg = 1) : channelOp n l c 0 s = (0, setChan n { c with mode := .stop } s) := by
  unfold channelOp
  rw [hl]
  exact congrArg (Prod.mk 0) (if_pos stop)

/-- A RESUME of a channel that has no solution to take up starts it where its plan stands. -/
theorem channelOp_resume (hl : l.op = 4) (halted : c.mode = .hold ∨ c.mode = .stop) (free : stopLatched s = false) (member : isMember n s = true) (blind : c.hpl = 0xFFFF) :
    channelOp n l c 0 s = (0, setChan n { c with mode := .run } s) := by
  unfold channelOp
  rw [hl]
  simp [halted, free, member, blind]

theorem stopLatched_of_stp (h : t.stp = s.stp) : stopLatched t = stopLatched s := by simp only [stopLatched, rd, regsAt, STP_STATUS_STATE, h]

theorem isMember_of_air (h : t.air = s.air) (n : Nat) : isMember n t = isMember n s := by simp only [isMember, idxState, h]

theorem loadEffect_of_not_append (hl : l.op ≠ 1) : loadEffect l c s = channelOp l.chn l c 0 s := by rw [loadEffect, if_neg hl]

theorem load_appends (h : LoadTaken { s with out := [] } l c u) (hl : l.op = 1) (hc : appendCause l.chn c l.segs (count PRO_CNT_LOAD 1 u) = 0) :
    Answers .proAppend s (fun t => ∃ d, chan? l.chn t = some d ∧ d.queue = c.queue ++ l.segs ∧ ∀ m, m ≠ l.chn → chan? m t = chan? m u) := by
  obtain ⟨x, appends⟩ := channelOp_append (n := l.chn) (c := c) (s := count PRO_CNT_LOAD 1 u) hl
  obtain ⟨t, e, own, others⟩ := load_answers (i := .proAppend) (v := count PRO_CNT_LOAD 1 u) (by rw [hl]; rfl) h (fun n => (Steady.refl n u).count) (by rwa [loadEffect, if_pos hl, hc])
  exact ⟨t, e, _, own, appendTo_queue _ _ _, others⟩

theorem load_clears (h : LoadTaken { s with out := [] } l c u) (hl : l.op = 2) (rest : atRest { v := c.v, a := c.a } = true) :
    Answers .proClear s (fun t => chan? l.chn t = some { c with queue := [] } ∧ ∀ m, m ≠ l.chn → chan? m t = chan? m u) := by
  obtain ⟨v, steady, clears⟩ := channelOp_clear (n := l.chn) (s := count PRO_CNT_LOAD 1 u) hl rest
  exact load_answers (by rw [hl]; rfl) h (fun n => (Steady.refl n u).count.trans (steady n)) ((loadEffect_of_not_append (by omega)).trans clears)

theorem load_stops (h : LoadTaken { s with out := [] } l c u) (hl : l.op = 3) (stop : l.arg = 1) :
    Answers .proHalt s (fun t => chan? l.chn t = some { c with mode := .stop } ∧ ∀ m, m ≠ l.chn → chan? m t = chan? m u) :=
  load_answers (by rw [hl]; rfl) h (fun n => (Steady.refl n u).count) ((loadEffect_of_not_append (by omega)).trans (channelOp_stop hl stop))

theorem load_resumes (h : LoadTaken { s with out := [] } l c u) (hl : l.op = 4) (halted : c.mode = .hold ∨ c.mode = .stop) (free : stopLatched u = false)
    (member : isMember l.chn u = true) (blind : c.hpl = 0xFFFF) :
    Answers .proResume s (fun t => chan? l.chn t = some { c with mode := .run } ∧ ∀ m, m ≠ l.chn → chan? m t = chan? m u) := by
  have free : stopLatched (count PRO_CNT_LOAD 1 u) = false := (stopLatched_of_stp (wr_stp _ _ _ (by decide))).trans free
  have member : isMember l.chn (count PRO_CNT_LOAD 1 u) = true := (isMember_of_air (wr_air _ _ _ (by decide)) _).trans member
  exact load_answers (by rw [hl]; rfl) h (fun n => (Steady.refl n u).count) ((loadEffect_of_not_append (by omega)).trans (channelOp_resume hl halted free member blind))
end

end Sys2Proof.Machine

namespace Sys2Proof.Machine

/-! ### Fences (R138) -/

/-- Stations of the rear and the front of machine m's body, or of its front and rear where it drives toward lower stations. -/
def bodySpan (m : Nat) (c : Chan) (s : State) : Int × Int :=
  let o := ownerOf m s
  let x := c.st / fineSt
  if c.dir = 0 then (x - rearOf o s, x + frontOf o s) else (x - frontOf o s, x + rearOf o s)

theorem bodySpan_ends (m : Nat) (c : Chan) (s : State) :
    bodySpan m c s = (if c.dir = 0 then c.st / fineSt - rearOf (ownerOf m s) s else c.st / fineSt - frontOf (ownerOf m s) s,
      if c.dir = 0 then c.st / fineSt + frontOf (ownerOf m s) s else c.st / fineSt + rearOf (ownerOf m s) s) := by
  unfold bodySpan
  dsimp only
  split <;> rfl

/-- The body of machine m meets the stations from lo to hi of a reach. -/
abbrev Meets (reach : Nat) (lo hi : Int) (m : Nat) (c : Chan) (s : State) : Prop := c.reach = some reach ∧ (bodySpan m c s).1 ≤ hi ∧ lo ≤ (bodySpan m c s).2

/-- What a fence makes of a channel. -/
def fenced (reach : Nat) (lo hi : Int) (m : Nat) (c : Chan) (s : State) : Chan :=
  if Meets reach lo hi m c s ∧ c.mode ≠ .stop then { c with mode := .hold } else c

/-- What a fence does to machine m. -/
def fenceHold (reach : Nat) (lo hi : Int) (s : State) (m : Nat) : State :=
  match chan? m s with
  | some c => if Meets reach lo hi m c s then raise 104 (holdChan m s) else s
  | none => s

theorem fenceEnable_eq (f : Nat) (s : State) :
    let t := wr (PRO_FENCE_CTRL_EN f) 1 s
    fenceEnable f s = ((keys t.pro.chans).filter (· < 256)).foldl (fenceHold (rd (PRO_FENCE_CTRL_REACH f) t) (rdS (PRO_FENCE_FROM f) t) (rdS (PRO_FENCE_TO f) t)) t := rfl

/-- From s to t no part but PRO has changed, nor has CAS, nor have PRO's registers. -/
structure FenceFrame (s t : State) : Prop where
  keeps : Keeps [.pro] s t
  cas : t.cas = s.cas
  regs : t.pro.regs = s.pro.regs

section
variable {s t x : State} {reach : Nat} {lo hi : Int} {m n : Nat} {c : Chan}

theorem FenceFrame.refl (s : State) : FenceFrame s s := ⟨Keeps.refl _ s, rfl, rfl⟩

theorem FenceFrame.trans (h : FenceFrame s t) (g : FenceFrame t x) : FenceFrame s x := ⟨h.keeps.trans g.keeps, g.cas.trans h.cas, g.regs.trans h.regs⟩

theorem bodySpan_same (hc : t.clm = s.clm) (hs : t.cas = s.cas) : bodySpan m c t = bodySpan m c s := by
  have owner : ownerOf m t = ownerOf m s := by simp only [ownerOf, ownModule, on, rd, regsAt, CAS_CTRL_EN, CAS_CTRL_ROLE, CAS_CTRL_MEMBER, hs]
  simp only [bodySpan, frontOf, rearOf, owner, hc]

theorem fenced_same (hc : t.clm = s.clm) (hs : t.cas = s.cas) : fenced reach lo hi m c t = fenced reach lo hi m c s := by
  have meets : Meets reach lo hi m c t ↔ Meets reach lo hi m c s := by rw [Meets, bodySpan_same hc hs, Meets]
  simp only [fenced, meets]

theorem fenced_fenced : fenced reach lo hi m (fenced reach lo hi m c s) s = fenced reach lo hi m c s := by
  by_cases h : Meets reach lo hi m c s ∧ c.mode ≠ .stop
  · have held : fenced reach lo hi m c s = { c with mode := .hold } := if_pos h
    rw [held]
    exact ite_self _
  · have kept : fenced reach lo hi m c s = c := if_neg h
    rw [kept, kept]

theorem Keeps.setChan (n : Nat) (c : Chan) (s : State) : Keeps [.pro] s (setChan n c s) := ⟨rfl, fun p hp => by
  cases p
  case pro => exact absurd (.head _) hp
  all_goals rfl⟩

theorem holdChan_frame (m : Nat) (s : State) : FenceFrame s (holdChan m s) := by
  unfold holdChan
  split
  · split
    · exact .refl s
    · exact ⟨.setChan _ _ _, rfl, rfl⟩
  · exact .refl s

theorem fenceHold_frame (s : State) (m : Nat) : FenceFrame s (fenceHold reach lo hi s m) := by
  unfold fenceHold
  split
  · split
    · exact (holdChan_frame m s).trans ⟨.raise _ _ _, rfl, rfl⟩
    · exact .refl s
  · exact .refl s

theorem holdChan_other (h : n ≠ m) : chan? n (holdChan m s) = chan? n s := by
  cases hc : chan? m s with
  | none => simp only [holdChan, hc]
  | some c =>
    simp only [holdChan, hc]
    split
    · rfl
    · exact chan?_setChan_other h _ _

theorem fenceHold_other (h : n ≠ m) : chan? n (fenceHold reach lo hi s m) = chan? n s := by
  cases hc : chan? m s with
  | none => simp only [fenceHold, hc]
  | some c =>
    simp only [fenceHold, hc]
    split
    · exact holdChan_other h
    · rfl

theorem fenceHold_same (hc : chan? m s = some c) : chan? m (fenceHold reach lo hi s m) = some (fenced reach lo hi m c s) := by
  simp only [fenceHold, holdChan, fenced, hc]
  by_cases meets : Meets reach lo hi m c s
  · by_cases stop : c.mode = .stop
    · rw [if_pos meets, if_pos stop, if_neg fun h => h.2 stop]
      exact hc
    · rw [if_pos meets, if_neg stop, if_pos ⟨meets, stop⟩]
      exact chan?_setChan_same m _ s
  · rw [if_neg meets, if_neg fun h => meets h.1]
    exact hc

theorem fence_frame (l : List Nat) (s : State) : FenceFrame s (l.foldl (fenceHold reach lo hi) s) := by
  induction l generalizing s with
  | nil => exact .refl s
  | cons k l ih => exact (fenceHold_frame s k).trans (ih _)

/-- A fence passes every channel on its list, each as if it stood alone. -/
theorem fence_chan (l : List Nat) (hc : chan? m s = some c) :
    chan? m (l.foldl (fenceHold reach lo hi) s) = some (if m ∈ l then fenced reach lo hi m c s else c) := by
  induction l generalizing s c with
  | nil => exact hc
  | cons k l ih =>
    have frame : FenceFrame s (fenceHold reach lo hi s k) := fenceHold_frame s k
    have same (d : Chan) : fenced reach lo hi m d (fenceHold reach lo hi s k) = fenced reach lo hi m d s := fenced_same (frame.keeps.2 .clm (by decide)) frame.cas
    rw [List.foldl_cons]
    by_cases h : m = k
    · subst h
      rw [ih (fenceHold_same hc), same, fenced_fenced]
      simp
    · rw [ih ((fenceHold_other h).trans hc), same]
      simp [h]

theorem mem_keys_of_chan? (h : chan? m s = some c) : m ∈ keys s.pro.chans := by
  refine Decidable.by_contra fun absent => ?_
  have none_ : chan? m s = none := tfind_eq_none.2 fun p hp e => absent (e ▸ List.mem_map_of_mem hp)
  rw [none_] at h
  cases h

/-- Enabling a fence sets its EN, and of the rest of PRO changes channels alone: each machine's as the fence makes it. -/
theorem fenceEnable_fences (f : Nat) (s : State) :
    on (PRO_FENCE_CTRL_EN f) (fenceEnable f s) = true ∧ Keeps [.pro] s (fenceEnable f s) ∧
      ∀ m c, m < 256 → chan? m s = some c →
        chan? m (fenceEnable f s) = some (fenced (rd (PRO_FENCE_CTRL_REACH f) s) (rdS (PRO_FENCE_FROM f) s) (rdS (PRO_FENCE_TO f) s) m c s) := by
  have blk : isBlk 9 := by decide
  have other (g : Fld) (hg : (PRO_FENCE_CTRL_EN f).key ≠ g.key) : rd g (wr (PRO_FENCE_CTRL_EN f) 1 s) = rd g s := rd_wr_other _ _ _ _ blk (.inr hg)
  have reach := other (PRO_FENCE_CTRL_REACH f) (by simp only [PRO_FENCE_CTRL_EN, PRO_FENCE_CTRL_REACH]; omega)
  have lo : rdS (PRO_FENCE_FROM f) _ = rdS _ s := congrArg (sgn 32) (other (PRO_FENCE_FROM f) (by simp only [PRO_FENCE_CTRL_EN, PRO_FENCE_FROM]; omega))
  have hi : rdS (PRO_FENCE_TO f) _ = rdS _ s := congrArg (sgn 32) (other (PRO_FENCE_TO f) (by simp only [PRO_FENCE_CTRL_EN, PRO_FENCE_TO]; omega))
  rw [fenceEnable_eq, reach, lo, hi]
  generalize ht : wr (PRO_FENCE_CTRL_EN f) 1 s = t
  have enabled : on (PRO_FENCE_CTRL_EN f) t = true := by rw [← ht, on, rd_wr_same _ _ _ blk]; rfl
  have frame := fence_frame (reach := rd (PRO_FENCE_CTRL_REACH f) s) (lo := rdS (PRO_FENCE_FROM f) s) (hi := rdS (PRO_FENCE_TO f) s) ((keys t.pro.chans).filter (· < 256)) t
  refine ⟨?_, ?_, fun m c hm hc => ?_⟩
  · refine Eq.trans ?_ enabled
    simp only [on, rd, PRO_FENCE_CTRL_EN, regsAt]
    exact congrArg (fun r => (tfind _ r).getD 0 == 1) frame.regs
  · exact (ht ▸ Keeps.wr _ _ _ (by decide : ∀ p, blkPart 9 = some p → p ∈ [Part.pro])).trans frame.keeps
  · have hc : chan? m t = some c := by rw [← ht, chan?, chans_wr]; exact hc
    have listed : m ∈ (keys t.pro.chans).filter (· < 256) := List.mem_filter.2 ⟨mem_keys_of_chan? hc, decide_eq_true hm⟩
    refine (fence_chan _ hc).trans ?_
    rw [if_pos listed, fenced_same]
    · rw [← ht]; exact wr_clm _ _ _ (show 9 ≠ 8 by decide)
    · rw [← ht]; exact wr_cas _ _ _ (show 9 ≠ 25 by decide)

theorem fence_answers {f : Nat} (hf : f < 64) (s : State) :
    Answers (.fenceEnable f) s (fun t => on (PRO_FENCE_CTRL_EN f) t = true ∧ Keeps [.pro] s t ∧
      ∀ m c, m < 256 → chan? m s = some c →
        chan? m t = some (fenced (rd (PRO_FENCE_CTRL_REACH f) s) (rdS (PRO_FENCE_FROM f) s) (rdS (PRO_FENCE_TO f) s) m c s)) := by
  obtain ⟨enabled, frame, chans⟩ := fenceEnable_fences f { s with out := [] }
  obtain ⟨t, e, pro, keeps⟩ := run_pro (fenceEnable f) s
  have command : exec (.fenceEnable f) s = run (fenceEnable f) s := congrArg (fun n => run (fenceEnable n) s) (Nat.mod_eq_of_lt hf)
  refine ⟨t, command.trans e, ?_, keeps _ frame, fun m c hm hc => (chan?_of_pro pro).trans (chans m c hm hc)⟩
  exact (show on (PRO_FENCE_CTRL_EN f) t = on (PRO_FENCE_CTRL_EN f) _ by simp only [on, rd, regsAt, PRO_FENCE_CTRL_EN, pro]).trans enabled
end

/-- Settles O29: load records, by their operation; the tick of a channel that stops; a fence. -/
theorem machineChannels : Obligations.MachineChannels := by
  refine ⟨?_, ?_, fun f s hf => ?_⟩
  · intro w ws whole c s u enabled power f peek take l op ok machine open_
    have h : LoadTaken { s with out := [] } l c u := ⟨enabled, power, ⟨w, peek, op⟩, ⟨ws, whole, take, rfl⟩, ok, machine, open_⟩
    exact ⟨load_appends h, load_clears h, load_stops h, load_resumes h⟩
  · intro m c s hp hh hm only mode queue moves limits settled
    exact tick_answers hp hh hm only ⟨mode, queue, moves, limits, settled⟩
  · obtain ⟨t, e, enabled, frame, chans⟩ := fence_answers hf s
    refine ⟨t, e, enabled, frame, fun m c hm hc => (chans m c hm hc).trans ?_⟩
    simp only [fenced, Meets, bodySpan_ends, and_assoc]

end Sys2Proof.Machine

namespace Sys2Proof.Machine

/-! ### What a command leaves of KEY and of AIR -/

/-- t is the outcome of a command in state s whose own effect ends in v: KEY and AIR are as v has them, and a frame of the effect is one of the command. -/
structure KeyLeaves (s v t : State) : Prop where
  key : t.key = v.key
  air : t.air = v.air
  keeps : ∀ ps, Keeps ps { s with out := [] } v → Keeps ps s t

theorem run_key (f : State → State) (s : State) : ∃ t, run f s = .next t ∧ KeyLeaves s (f { s with out := [] }) t :=
  run_answers f s _ fun _ x y _ ap _ => ⟨ap.key, ap.air, fun _ h => Keeps.sent ap h x y _⟩

/-- The CMD_RES register of a block shows the command just written into it. -/
theorem cmdResQuiet_shows {blk inst off cmd status error : Nat} (hb : isBlk blk) (hc : cmd < 16) (hs : status < 8) (he : error < 0x10000) (s : State) :
    Result blk inst off cmd status error (cmdResQuiet blk inst off cmd status error s) := by
  have other {lo lo' w w' : Nat} (h : lo ≠ lo') (v : Nat) (u : State) : rd (fldAt blk inst off lo' w') (wr (fldAt blk inst off lo w) v u) = rd (fldAt blk inst off lo' w') u :=
    rd_wr_other _ _ _ _ hb (.inr (by simp only [fldAt]; omega))
  have same {lo w v : Nat} (h : v < 2 ^ w) (u : State) : rd (fldAt blk inst off lo w) (wr (fldAt blk inst off lo w) v u) = v :=
    (rd_wr_same _ _ _ hb).trans (Nat.mod_eq_of_lt h)
  refine ⟨?_, same hs _, ?_⟩ <;> unfold cmdResQuiet
  · rw [other (by decide), same hc]
  · rw [other (by decide), other (by decide), same he]

section
variable {s t v : State}

theorem KeyLeaves.rd (h : KeyLeaves s v t) (f : Fld) (hf : f.blk = 26 := by rfl) : rd f t = rd f v := by simp only [Machine.rd, hf, regsAt, h.key]

theorem KeyLeaves.on (h : KeyLeaves s v t) {f : Fld} {b : Bool} (ho : on f v = b) (hf : f.blk = 26 := by rfl) : on f t = b := by
  rwa [Machine.on, h.rd f hf]

theorem KeyLeaves.result (h : KeyLeaves s v t) {cmd status error : Nat} (hr : Result 26 0 0x10 cmd status error v) : Result 26 0 0x10 cmd status error t := by
  obtain ⟨command, status, error⟩ := hr
  exact ⟨(h.rd _).trans command, (h.rd _).trans status, (h.rd _).trans error⟩

/-! ### KEY beside its registers -/

@[simp] theorem wr_window (f : Fld) (n : Nat) (s : State) : (wr f n s).key.window = s.key.window := by unfold wr setRegs; split <;> rfl
@[simp] theorem wr_bkey (f : Fld) (n : Nat) (s : State) : (wr f n s).key.bkey = s.key.bkey := by unfold wr setRegs; split <;> rfl
@[simp] theorem wr_bprev (f : Fld) (n : Nat) (s : State) : (wr f n s).key.bprev = s.key.bprev := by unfold wr setRegs; split <;> rfl
@[simp] theorem wr_rotated (f : Fld) (n : Nat) (s : State) : (wr f n s).key.rotated = s.key.rotated := by unfold wr setRegs; split <;> rfl

/-- The parts of KEY beside its registers are no registers. -/
theorem rd_setKey (f : Fld) {k : Key} {s : State} (h : k.regs = s.key.regs) : rd f (setKey k s) = rd f s := by
  have regs : regsAt f.blk (setKey k s) = regsAt f.blk s := by
    unfold regsAt
    split <;> first | rfl | exact h
  rw [rd, rd, regs]

theorem Keeps.setKey (k : Key) (s : State) : Keeps [.key] s (setKey k s) := ⟨rfl, fun p hp => by cases p <;> first | rfl | exact absurd (.head _) hp⟩

theorem Keeps.keyReg (f : Fld) (n : Nat) (s : State) (hf : f.blk = 26 := by rfl) : Keeps [.key] s (Machine.wr f n s) := Keeps.wr _ _ _ (by rw [hf]; decide)

/-! KEY_CMD_RES. -/

theorem keyCmdDone_shows {cmd status error : Nat} (s : State) (hc : cmd < 16 := by decide) (hs : status < 8 := by decide) (he : error < 0x10000 := by decide) :
    Result 26 0 0x10 cmd status error (keyCmdDone cmd status error s) := cmdResQuiet_shows (by decide) hc hs he s

theorem rd_keyCmdDone (f : Fld) (cmd status error : Nat) (s : State) (hf : f.key / 32 ≠ 0x10 := by decide) : rd f (keyCmdDone cmd status error s) = rd f s := by
  have other (lo w n : Nat) (hl : lo < 32) (u : State) : rd f (wr (fldAt 26 0 0x10 lo w) n u) = rd f u :=
    rd_wr_other _ _ _ _ (show (26 : Nat) ∈ _ by decide) (.inr (by simp only [fldAt]; omega))
  unfold keyCmdDone cmdResQuiet
  rw [other _ _ _ (by decide), other _ _ _ (by decide), other _ _ _ (by decide)]

@[simp] theorem keyCmdDone_window (cmd status error : Nat) (s : State) : (keyCmdDone cmd status error s).key.window = s.key.window := by simp [keyCmdDone, cmdResQuiet]
@[simp] theorem keyCmdDone_bkey (cmd status error : Nat) (s : State) : (keyCmdDone cmd status error s).key.bkey = s.key.bkey := by simp [keyCmdDone, cmdResQuiet]
@[simp] theorem keyCmdDone_bprev (cmd status error : Nat) (s : State) : (keyCmdDone cmd status error s).key.bprev = s.key.bprev := by simp [keyCmdDone, cmdResQuiet]
@[simp] theorem keyCmdDone_rotated (cmd status error : Nat) (s : State) : (keyCmdDone cmd status error s).key.rotated = s.key.rotated := by simp [keyCmdDone, cmdResQuiet]

theorem Keeps.keyCmdDone (cmd status error : Nat) (s : State) : Keeps [.key] s (Machine.keyCmdDone cmd status error s) :=
  ((Keeps.keyReg (fldAt 26 0 0x10 16 16) _ _).trans (.keyReg (fldAt 26 0 0x10 4 4) _ _)).trans (.keyReg (fldAt 26 0 0x10 0 3) _ _)

/-! ### Presence (R524 to R526) -/

@[simp] theorem endWindow_window (s : State) : (endWindow s).key.window = none := by
  unfold endWindow
  cases h : s.key.window
  · exact h
  · simp [presenceRecord, setKey]

theorem rd_endWindow (f : Fld) (s : State) (hf : f.key ≠ KEY_PRESENCE_OPEN.key ∧ f.key ≠ KEY_PRESENCE_REMAIN.key := by decide) : rd f (endWindow s) = rd f s := by
  have blk : isBlk 26 := by decide
  unfold endWindow
  cases s.key.window
  · rfl
  · have others : rd f _ = rd f (setKey { s.key with window := none } s) := (rd_wr_other KEY_PRESENCE_OPEN f 0 _ blk (.inr hf.1.symm)).trans (rd_wr_other KEY_PRESENCE_REMAIN f 0 _ blk (.inr hf.2.symm))
    exact others.trans (rd_setKey f rfl)

/-- The end of a window that stood shows in KEY_PRESENCE. -/
theorem endWindow_closes {w : Nat × Nat} (h : s.key.window = some w) : on KEY_PRESENCE_OPEN (endWindow s) = false := by
  have zero : rd KEY_PRESENCE_OPEN (endWindow s) = 0 := by
    simp only [endWindow, h]
    exact rd_wr_same KEY_PRESENCE_OPEN 0 _ (by decide)
  rw [on, zero]; rfl

theorem Keeps.endWindow (s : State) : Keeps [.key] s (endWindow s) := by
  unfold Machine.endWindow
  cases s.key.window
  · exact .refl _ _
  · exact ((Keeps.setKey _ _).trans ((Keeps.keyReg KEY_PRESENCE_REMAIN _ _).trans (.keyReg KEY_PRESENCE_OPEN _ _))).trans ((Keeps.note _ _ _).trans (.raise _ _ _))

theorem windowOpen_some (h : windowOpen s = true) : ∃ w, s.key.window = some w := by
  unfold windowOpen at h
  split at h
  next w some => exact ⟨w, some⟩
  next => cases h

@[simp] theorem rd_presenceRecord (f : Fld) (what ends : Nat) (s : State) : rd f (presenceRecord what ends s) = rd f s := rfl

/-- A counter goes up from where an effect before it has left it as it was. -/
theorem count_since {f : Fld} {n : Nat} {u : State} (hb : isBlk f.blk) (h : rd f u = rd f s) : CountsUp f n s (count f n u) := by
  have counted := count_countsUp hb n u
  rwa [CountsUp, h] at counted

/-- The window of a presence, opened in state s (R524): 120 s from now, by the free-running counter and in site time. -/
def windowOpened (s : State) : State :=
  let u := wr KEY_PRESENCE_FIELD 1 (endWindow s)
  wr KEY_PRESENCE_OPEN 1 (wr KEY_PRESENCE_REMAIN 120 (setKey { u.key with window := some (s.clk.frc + 60000000000, siteNs s + 120000000000) } u))

theorem presenceOpen_opened (power : s.pwr.off = false) (free : on KEY_PRESENCE_STUCK s = false) :
    presenceOpen s = raise 234 (presenceRecord 0 (siteNs s + 120000000000) (count KEY_CNT_PRESENCE 1 (windowOpened s))) := by
  have frame : Keeps [.key] s (wr KEY_PRESENCE_FIELD 1 (endWindow s)) := (Keeps.endWindow s).trans (.keyReg KEY_PRESENCE_FIELD _ _)
  have clk : (wr KEY_PRESENCE_FIELD 1 (endWindow s)).clk = s.clk := frame.2 .clk (by decide)
  have site : siteNs (wr KEY_PRESENCE_FIELD 1 (endWindow s)) = siteNs s := by simp only [siteNs, clk]
  simp only [presenceOpen, windowOpened, power, free, clk, site, Bool.or_self, Bool.false_eq_true, if_false]

theorem Keeps.windowOpened (s : State) : Keeps [.key] s (windowOpened s) :=
  ((Keeps.endWindow s).trans (.keyReg KEY_PRESENCE_FIELD _ _)).trans
    ((Keeps.setKey _ _).trans ((Keeps.keyReg KEY_PRESENCE_REMAIN _ _).trans (.keyReg KEY_PRESENCE_OPEN _ _)))

theorem windowOpened_counter (s : State) : rd KEY_CNT_PRESENCE (windowOpened s) = rd KEY_CNT_PRESENCE s := by
  have blk : isBlk 26 := by decide
  unfold windowOpened
  rw [rd_wr_other _ _ _ _ blk (by decide), rd_wr_other _ _ _ _ blk (by decide)]
  refine Eq.trans (rd_setKey (s := wr KEY_PRESENCE_FIELD 1 (endWindow s)) KEY_CNT_PRESENCE rfl) ?_
  rw [rd_wr_other _ _ _ _ blk (by decide), rd_endWindow KEY_CNT_PRESENCE]

/-- R524: a presence opens a window, counted. -/
theorem presenceOpen_opens (power : s.pwr.off = false) (free : on KEY_PRESENCE_STUCK s = false) :
    let t := presenceOpen s
    t.key.window = some (s.clk.frc + 60000000000, siteNs s + 120000000000) ∧ on KEY_PRESENCE_OPEN t = true ∧ rd KEY_PRESENCE_REMAIN t = 120 ∧ CountsUp KEY_CNT_PRESENCE 1 s t ∧ Keeps [.key] s t := by
  have blk : isBlk 26 := by decide
  have shown : rd KEY_PRESENCE_OPEN (count KEY_CNT_PRESENCE 1 (windowOpened s)) = 1 := by
    rw [count, rd_wr_other _ _ _ _ blk (by decide)]; exact rd_wr_same _ _ _ blk
  have remain : rd KEY_PRESENCE_REMAIN (count KEY_CNT_PRESENCE 1 (windowOpened s)) = 120 := by
    rw [count, rd_wr_other _ _ _ _ blk (by decide), windowOpened, rd_wr_other _ _ _ _ blk (by decide)]; exact rd_wr_same _ _ _ blk
  rw [presenceOpen_opened power free]
  simp only [CountsUp, on, rd_raise, rd_presenceRecord]
  refine ⟨?_, beq_iff_eq.2 shown, remain, count_since blk (windowOpened_counter s), ?_⟩
  · simp [presenceRecord, count, windowOpened, setKey]
  · exact (Keeps.windowOpened s).trans ((Keeps.keyReg KEY_CNT_PRESENCE _ _).trans ((Keeps.note _ _ _).trans (.raise _ _ _)))

/-- What the sensor reads shows in KEY_PRESENCE. -/
theorem on_field (field : Bool) (s : State) : on KEY_PRESENCE_FIELD (wr KEY_PRESENCE_FIELD (b2n field) s) = field := by
  rw [on, rd_wr_same _ _ _ (by decide)]
  cases field <;> rfl

theorem windowOpen_wr (f : Fld) (n : Nat) (s : State) : windowOpen (wr f n s) = windowOpen s := by simp only [windowOpen, wr_window, wr_clk]

/-- R526: at its end a window closes. -/
theorem presenceClose_over (field : Bool) {w : Nat × Nat} (power : s.pwr.off = false) (window : s.key.window = some w) (past : w.1 ≤ s.clk.frc) :
    let t := presenceClose field s
    t.key.window = none ∧ on KEY_PRESENCE_OPEN t = false ∧ on KEY_PRESENCE_FIELD t = field ∧ Keeps [.key] s t := by
  have closed : windowOpen s = false := by simpa [windowOpen, window] using past
  have closes : presenceClose field s = endWindow (wr KEY_PRESENCE_FIELD (b2n field) s) := by simp [presenceClose, power, windowOpen_wr, closed]
  rw [closes]
  refine ⟨endWindow_window _, endWindow_closes (w := w) (by simp [window]), ?_, (Keeps.keyReg KEY_PRESENCE_FIELD _ _).trans (.endWindow _)⟩
  rw [on, rd_endWindow KEY_PRESENCE_FIELD]
  exact on_field field s

/-- R526: nothing closes a window before its end. -/
theorem presenceClose_before (field : Bool) (power : s.pwr.off = false) (opened : windowOpen s = true) :
    let t := presenceClose field s
    t.key.window = s.key.window ∧ on KEY_PRESENCE_FIELD t = field ∧ Keeps [.key] s t := by
  have stays : presenceClose field s = wr KEY_PRESENCE_FIELD (b2n field) s := by simp [presenceClose, power, windowOpen_wr, opened]
  rw [stays]
  exact ⟨wr_window _ _ _, on_field field s, .keyReg KEY_PRESENCE_FIELD _ _⟩

/-- R525: a presence of 30 s ends the window and sets STUCK, counted. -/
theorem presenceStuck_held (power : s.pwr.off = false) (free : on KEY_PRESENCE_STUCK s = false) :
    let t := presenceStuck true s
    on KEY_PRESENCE_STUCK t = true ∧ t.key.window = none ∧ CountsUp KEY_CNT_STUCK 1 s t ∧ Keeps [.key] s t := by
  have blk : isBlk 26 := by decide
  have sticks : presenceStuck true s = raiseAlarm 234 (presenceRecord 2 0 (count KEY_CNT_STUCK 1 (wr KEY_PRESENCE_FIELD 1 (wr KEY_PRESENCE_STUCK 1 (endWindow s))))) := by
    simp [presenceStuck, power, free]
  have shown : rd KEY_PRESENCE_STUCK (count KEY_CNT_STUCK 1 (wr KEY_PRESENCE_FIELD 1 (wr KEY_PRESENCE_STUCK 1 (endWindow s)))) = 1 := by
    rw [count, rd_wr_other _ _ _ _ blk (by decide), rd_wr_other _ _ _ _ blk (by decide)]; exact rd_wr_same _ _ _ blk
  have counter : rd KEY_CNT_STUCK (wr KEY_PRESENCE_FIELD 1 (wr KEY_PRESENCE_STUCK 1 (endWindow s))) = rd KEY_CNT_STUCK s := by
    rw [rd_wr_other _ _ _ _ blk (by decide), rd_wr_other _ _ _ _ blk (by decide), rd_endWindow KEY_CNT_STUCK]
  rw [sticks]
  simp only [CountsUp, on, rd_raiseAlarm, rd_presenceRecord]
  refine ⟨beq_iff_eq.2 shown, ?_, count_since blk counter, ?_⟩
  · simp [presenceRecord, count]
  · exact ((Keeps.endWindow s).trans ((Keeps.keyReg KEY_PRESENCE_STUCK _ _).trans (.keyReg KEY_PRESENCE_FIELD _ _))).trans
      ((Keeps.keyReg KEY_CNT_STUCK _ _).trans ((Keeps.note _ _ _).trans (.note _ _ _)))

/-- R525: an absence of 2 s ends STUCK, and no window. -/
theorem presenceStuck_absent (power : s.pwr.off = false) :
    let t := presenceStuck false s
    on KEY_PRESENCE_STUCK t = false ∧ t.key.window = s.key.window ∧ Keeps [.key] s t := by
  have frame : Keeps [.key] s (wr KEY_PRESENCE_FIELD 0 s) := .keyReg KEY_PRESENCE_FIELD _ _
  simp only [presenceStuck, power, Bool.false_eq_true, if_false, Bool.not_false, if_true]
  split
  next stuck =>
    have cleared : rd KEY_PRESENCE_STUCK (wr KEY_PRESENCE_STUCK 0 (wr KEY_PRESENCE_FIELD 0 s)) = 0 := rd_wr_same _ _ _ (by decide)
    exact ⟨beq_eq_false_iff_ne.2 fun set => absurd (cleared.symm.trans set) (by decide), by simp, frame.trans ((Keeps.keyReg KEY_PRESENCE_STUCK _ _).trans (.raise _ _ _))⟩
  next free => exact ⟨Bool.eq_false_iff.2 free, wr_window _ _ _, frame⟩

/-- CLOSE_WINDOW with a window open. -/
theorem closeWindow_open (opened : windowOpen s = true) :
    let t := closeWindow s
    t.key.window = none ∧ on KEY_PRESENCE_OPEN t = false ∧ Result 26 0 0x10 3 0 0 t ∧ Keeps [.key] s t := by
  obtain ⟨w, window⟩ := windowOpen_some opened
  have closes : closeWindow s = keyCmdDone 3 0 0 (endWindow s) := if_pos opened
  rw [closes]
  refine ⟨by simp, ?_, keyCmdDone_shows _, (Keeps.endWindow s).trans (.keyCmdDone _ _ _ _)⟩
  rw [on, rd_keyCmdDone KEY_PRESENCE_OPEN]
  exact endWindow_closes window

/-- CLOSE_WINDOW without one. -/
theorem closeWindow_refused (closed : windowOpen s = false) :
    let t := closeWindow s
    t.key.window = s.key.window ∧ Result 26 0 0x10 3 4 0x1AF4 t ∧ Keeps [.key] s t := by
  have refuses : closeWindow s = keyCmdDone 3 4 0x1AF4 s := if_neg (by simp [closed])
  rw [refuses]
  exact ⟨keyCmdDone_window _ _ _ _, keyCmdDone_shows _, .keyCmdDone _ _ _ _⟩

/-! ### The random generator (R508) -/

theorem drbgFail_shows (s : State) :
    let t := drbgFail s
    on KEY_STATUS_DRBG_OK t = false ∧ CountsUp KEY_CNT_DRBG_FAIL 1 s t ∧ t.key.bkey = s.key.bkey ∧ Keeps [.key] s t := by
  have blk : isBlk 26 := by decide
  have cleared : rd KEY_STATUS_DRBG_OK (drbgFail s) = 0 := rd_wr_same KEY_STATUS_DRBG_OK 0 _ blk
  have counter : rd KEY_CNT_DRBG_FAIL (drbgFail s) = rd KEY_CNT_DRBG_FAIL (count KEY_CNT_DRBG_FAIL 1 s) := rd_wr_other KEY_STATUS_DRBG_OK _ 0 _ blk (by decide)
  refine ⟨beq_eq_false_iff_ne.2 fun set => absurd (cleared.symm.trans set) (by decide), counter.trans (count_countsUp blk 1 s), ?_, ?_⟩
  · simp [drbgFail, count]
  · exact ((Keeps.keyReg KEY_CNT_DRBG_FAIL _ _).trans (.keyReg KEY_STATUS_DRBG_OK _ _)).trans (.note _ _ _)

theorem drbgPass_shows (s : State) :
    let t := drbgPass s
    on KEY_STATUS_DRBG_OK t = true ∧ t.key.bkey = s.key.bkey ∧ Keeps [.key] s t :=
  ⟨beq_iff_eq.2 (rd_wr_same KEY_STATUS_DRBG_OK 1 _ (by decide)), wr_bkey _ _ _, .keyReg KEY_STATUS_DRBG_OK _ _⟩

/-! ### Broadcast keys (R192, R508, R514) -/

theorem randomBytes_state (n : Nat) (s : State) : (randomBytes n s).2 = { s with free := s.free + n } := by
  induction n generalizing s with
  | zero => rfl
  | succ n ih =>
    rw [randomBytes, ih]
    simp [fresh, Nat.add_comm 1, Nat.add_assoc]

/-- The KEY_ID after the broadcast key there is (R514). -/
def nextKeyId (key : Option (Nat × List Byte)) : Nat :=
  match key with
  | some b => (b.1 + 1) % 256
  | none => 0

/-- KEY with a new broadcast key of identifier id, the former one kept, its identifier shown as prev. -/
def bkeyMade (id prev : Nat) (key : List Byte) (s : State) : State :=
  wr KEY_STATUS_BKEY_ID id (wr KEY_STATUS_PREV_ID prev (setKey { s.key with bkey := some (id, key), bprev := s.key.bkey, rotated := siteNs s } s))

/-- AIR with the new key queued for every member, the key items of older keys dropped; first says that there was no key before (R192). -/
def keyQueued (first : Bool) (s : State) : State :=
  let targets := (s.air.idx.filter (fun p => p.2.st == .member)).map Prod.fst ++ (s.wkr.ptr.filter (fun p => p.2.st == .member)).map (fun p => 0x8000 + p.1)
  { s with air := { s.air with keyFrom := none, keyUse := first,
                               items := s.air.items.filter (fun i => i.kind != .key) ++ targets.map (fun m => ({ target := m, kind := .key } : DItem)) } }

/-- A rotation draws 16 bytes, makes them the key, and queues it. -/
theorem rotateBkey_makes (healthy : on KEY_STATUS_DRBG_OK s = true) :
    ∃ prev key, rotateBkey s = raise 233 (keyQueued s.key.bkey.isNone (bkeyMade (nextKeyId s.key.bkey) prev key { s with free := s.free + 16 })) := by
  unfold rotateBkey
  rw [if_neg (by simp [healthy])]
  simp only [randomBytes_state]
  exact ⟨_, _, rfl⟩

theorem Keeps.bkeyMade (id prev : Nat) (key : List Byte) (s : State) : Keeps [.key] s (bkeyMade id prev key s) :=
  (Keeps.setKey _ _).trans ((Keeps.keyReg KEY_STATUS_PREV_ID _ _).trans (.keyReg KEY_STATUS_BKEY_ID _ _))

theorem bkeyMade_key (id prev : Nat) (key : List Byte) (s : State) :
    let t := bkeyMade id prev key s
    t.key.bkey = some (id, key) ∧ t.key.bprev = s.key.bkey ∧ t.key.rotated = siteNs s := by
  simp [bkeyMade, setKey]

theorem Keeps.keyQueued (first : Bool) (s : State) : Keeps [.key, .air] s (keyQueued first s) :=
  ⟨rfl, fun p hp => by cases p <;> first | rfl | exact absurd (by decide) hp⟩

theorem Keeps.more {ps qs : List Part} (h : Keeps ps s t) (sub : ∀ p, p ∈ ps → p ∈ qs) : Keeps qs s t := ⟨h.1, fun p hp => h.2 p fun m => hp (sub p m)⟩

theorem keyQueued_member (first : Bool) {p : Nat × Idx} (hp : p ∈ s.air.idx) (member : p.2.st = .member) :
    ∃ i ∈ (keyQueued first s).air.items, i.target = p.1 ∧ i.kind = .key := by
  refine ⟨{ target := p.1, kind := .key }, ?_, rfl, rfl⟩
  refine List.mem_append_right _ (List.mem_map.2 ⟨p.1, List.mem_append_left _ (List.mem_map.2 ⟨p, ?_, rfl⟩), rfl⟩)
  exact List.mem_filter.2 ⟨hp, beq_iff_eq.2 member⟩

/-- ROTATE_BKEY with a healthy generator: the key's KEY_ID, the former key kept, and a key item for every member. -/
theorem rotateCmd_makes (healthy : on KEY_STATUS_DRBG_OK s = true) :
    let t := rotateCmd s
    (∃ k, t.key.bkey = some (nextKeyId s.key.bkey, k)) ∧ t.key.bprev = s.key.bkey ∧ t.key.rotated = siteNs s ∧ Result 26 0 0x10 1 0 0 t ∧
      (∀ p ∈ s.air.idx, p.2.st = .member → ∃ i ∈ t.air.items, i.target = p.1 ∧ i.kind = .key) ∧ Keeps [.key, .air] s t := by
  obtain ⟨prev, key, makes⟩ := rotateBkey_makes healthy
  have rotates : rotateCmd s = keyCmdDone 1 0 0 (rotateBkey s) := if_pos healthy
  have drawn : Keeps [.key] s { s with free := s.free + 16 } := ⟨rfl, fun p _ => by cases p <;> rfl⟩
  have made : Keeps [.key] s _ := drawn.trans (Keeps.bkeyMade (nextKeyId s.key.bkey) prev key _)
  obtain ⟨bkey, bprev, rotated⟩ := bkeyMade_key (nextKeyId s.key.bkey) prev key { s with free := s.free + 16 }
  rw [rotates, makes]
  generalize bkeyMade _ _ _ _ = u at made bkey bprev rotated
  have done := Keeps.keyCmdDone 1 0 0 (raise 233 (keyQueued s.key.bkey.isNone u))
  refine ⟨⟨key, ?_⟩, ?_, ?_, keyCmdDone_shows _, fun p hp member => ?_, (made.more (by decide)).trans ((Keeps.keyQueued _ u).trans ((Keeps.raise _ _ _).trans (done.more (by decide))))⟩
  · exact (keyCmdDone_bkey _ _ _ _).trans bkey
  · exact (keyCmdDone_bprev _ _ _ _).trans bprev
  · exact (keyCmdDone_rotated _ _ _ _).trans rotated
  · have air : u.air = s.air := made.2 .air (by decide)
    have kept : (keyCmdDone 1 0 0 (raise 233 (keyQueued s.key.bkey.isNone u))).air = (keyQueued s.key.bkey.isNone u).air := done.2 .air (by decide)
    rw [kept]
    exact keyQueued_member _ (air ▸ hp) member

/-- ROTATE_BKEY after a health failure. -/
theorem rotateCmd_refused (failed : on KEY_STATUS_DRBG_OK s = false) :
    let t := rotateCmd s
    t.key.bkey = s.key.bkey ∧ Result 26 0 0x10 1 4 0x1A0A t ∧ Keeps [.key] s t := by
  have refuses : rotateCmd s = keyCmdDone 1 4 0x1A0A s := if_neg (by simp [failed])
  rw [refuses]
  exact ⟨keyCmdDone_bkey _ _ _ _, keyCmdDone_shows _, .keyCmdDone _ _ _ _⟩

/-! ### DEBUG_ENABLE (R523) -/

/-- With a window open and the lane out of PERMIT. -/
theorem keyDebugEnable_enables (opened : windowOpen s = true) (lane : on STP_STATUS_PERMIT s = false) :
    let t := keyDebugEnable s
    on KEY_STATUS_DEBUG t = true ∧ on KEY_STATUS_TEST_ROOT t = true ∧ Result 26 0 0x10 2 0 0 t ∧ t.key.window = s.key.window ∧ Keeps [.key] s t := by
  have blk : isBlk 26 := by decide
  simp only [keyDebugEnable, debugEnable, opened, lane, Bool.not_true, Bool.false_eq_true, if_false]
  refine ⟨?_, ?_, keyCmdDone_shows _, by simp, ?_⟩
  · rw [on, rd_keyCmdDone KEY_STATUS_DEBUG]
    exact beq_iff_eq.2 (rd_wr_same KEY_STATUS_DEBUG 1 _ blk)
  · rw [on, rd_keyCmdDone KEY_STATUS_TEST_ROOT]
    exact beq_iff_eq.2 ((rd_wr_other KEY_STATUS_DEBUG KEY_STATUS_TEST_ROOT 1 _ blk (by decide)).trans (rd_wr_same _ _ _ blk))
  · exact ((Keeps.keyReg KEY_STATUS_TEST_ROOT _ _).trans (.keyReg KEY_STATUS_DEBUG _ _)).trans ((Keeps.note _ _ _).trans ((Keeps.raise _ _ _).trans (.keyCmdDone _ _ _ _)))

/-- Without a window. -/
theorem keyDebugEnable_refused (closed : windowOpen s = false) :
    let t := keyDebugEnable s
    rd KEY_STATUS_DEBUG t = rd KEY_STATUS_DEBUG s ∧ CountsUp KEY_CNT_GATE_REFUSED 1 s t ∧ Result 26 0 0x10 2 4 0x1AF0 t ∧ Keeps [.key] s t := by
  have refuses : keyDebugEnable s = keyCmdDone 2 4 0x1AF0 (count KEY_CNT_GATE_REFUSED 1 s) := by simp [keyDebugEnable, debugEnable, closed, gateRefused]
  rw [refuses]
  refine ⟨?_, ?_, keyCmdDone_shows _, (Keeps.keyReg KEY_CNT_GATE_REFUSED _ _).trans (.keyCmdDone _ _ _ _)⟩
  · rw [rd_keyCmdDone KEY_STATUS_DEBUG, count, rd_wr_other _ _ _ _ (by decide) (by decide)]
  · rw [CountsUp, rd_keyCmdDone KEY_CNT_GATE_REFUSED]
    exact count_countsUp (by decide) 1 s

end

/-- Settles O37: presence and its window, the random generator's health, and KEY's commands. -/
theorem presenceAndKeys : Obligations.PresenceAndKeys := by
  intro s power
  refine ⟨fun free => ?_, fun w field window past => ?_, fun field opened => ?_, fun free => ?_, ?_, fun opened => ?_, fun closed => ?_, ?_, ?_, fun failed => ?_, fun healthy => ?_,
    fun opened lane => ?_, fun closed => ?_⟩
  · obtain ⟨t, e, l⟩ := run_key presenceOpen s
    obtain ⟨window, shown, remain, counted, frame⟩ := presenceOpen_opens (s := { s with out := [] }) power free
    have keeps := l.keeps _ frame
    have own : t.key.window = some (s.clk.frc + 60000000000, siteNs s + 120000000000) := by rw [l.key]; exact window
    have clk : t.clk = s.clk := keeps.2 .clk (by decide)
    exact ⟨t, e, own, l.on shown, (l.rd _).trans remain, (l.rd _).trans counted, by simp [windowOpen, own, clk], keeps⟩
  · obtain ⟨t, e, l⟩ := run_key (presenceClose field) s
    obtain ⟨none, shown, sensed, frame⟩ := presenceClose_over (s := { s with out := [] }) field power window past
    exact ⟨t, e, l.key ▸ none, l.on shown, l.on sensed, l.keeps _ frame⟩
  · obtain ⟨t, e, l⟩ := run_key (presenceClose field) s
    obtain ⟨same, sensed, frame⟩ := presenceClose_before (s := { s with out := [] }) field power opened
    exact ⟨t, e, l.key ▸ same, l.on sensed, l.keeps _ frame⟩
  · obtain ⟨t, e, l⟩ := run_key (presenceStuck true) s
    obtain ⟨shown, none, counted, frame⟩ := presenceStuck_held (s := { s with out := [] }) power free
    exact ⟨t, e, l.on shown, l.key ▸ none, (l.rd _).trans counted, l.keeps _ frame⟩
  · obtain ⟨t, e, l⟩ := run_key (presenceStuck false) s
    obtain ⟨cleared, same, frame⟩ := presenceStuck_absent (s := { s with out := [] }) power
    exact ⟨t, e, l.on cleared, l.key ▸ same, l.keeps _ frame⟩
  · obtain ⟨t, e, l⟩ := run_key closeWindow s
    obtain ⟨none, shown, result, frame⟩ := closeWindow_open (s := { s with out := [] }) opened
    exact ⟨t, e, l.key ▸ none, l.on shown, l.result result, l.keeps _ frame⟩
  · obtain ⟨t, e, l⟩ := run_key closeWindow s
    obtain ⟨same, result, frame⟩ := closeWindow_refused (s := { s with out := [] }) closed
    exact ⟨t, e, l.key ▸ same, l.result result, l.keeps _ frame⟩
  · obtain ⟨t, e, l⟩ := run_key (fun s => if s.pwr.off then s else drbgFail s) s
    obtain ⟨shown, counted, same, frame⟩ := drbgFail_shows { s with out := [] }
    simp only [power, Bool.false_eq_true, if_false] at l
    exact ⟨t, e, l.on shown, (l.rd _).trans counted, l.key ▸ same, l.keeps _ frame⟩
  · obtain ⟨t, e, l⟩ := run_key (fun s => if s.pwr.off then s else drbgPass s) s
    obtain ⟨shown, same, frame⟩ := drbgPass_shows { s with out := [] }
    simp only [power, Bool.false_eq_true, if_false] at l
    exact ⟨t, e, l.on shown, l.key ▸ same, l.keeps _ frame⟩
  · obtain ⟨t, e, l⟩ := run_key rotateCmd s
    obtain ⟨same, result, frame⟩ := rotateCmd_refused (s := { s with out := [] }) failed
    exact ⟨t, e, l.key ▸ same, l.result result, l.keeps _ frame⟩
  · obtain ⟨t, e, l⟩ := run_key rotateCmd s
    obtain ⟨⟨k, made⟩, kept, rotated, result, queued, frame⟩ := rotateCmd_makes (s := { s with out := [] }) healthy
    exact ⟨t, e, ⟨k, l.key ▸ made⟩, l.key ▸ kept, l.key ▸ rotated, l.result result, fun p hp member => l.air ▸ queued p hp member, l.keeps _ frame⟩
  · obtain ⟨t, e, l⟩ := run_key keyDebugEnable s
    obtain ⟨debug, root, result, same, frame⟩ := keyDebugEnable_enables (s := { s with out := [] }) opened lane
    exact ⟨t, e, l.on debug, l.on root, l.result result, l.key ▸ same, l.keeps _ frame⟩
  · obtain ⟨t, e, l⟩ := run_key keyDebugEnable s
    obtain ⟨same, counted, result, frame⟩ := keyDebugEnable_refused (s := { s with out := [] }) closed
    exact ⟨t, e, (l.rd _).trans same, (l.rd _).trans counted, l.result result, l.keeps _ frame⟩

end Sys2Proof.Machine

namespace Sys2Proof.Machine

/-! ### Orders at a cycle start (R195) -/

/-- AIR with no order waiting, its count of failed orders at v (AIR_CNT_ORDER_FAILED, 0xAC, a register of 32 bits). -/
def airWithFailed (v : Nat) : State := { air := { regs := [(AIR_CNT_ORDER_FAILED.key, v)] } }

/-- At a cycle start that no order's deadline has reached, nothing happens. -/
theorem orderDeadline_without_late {s : State} (h : ∀ o ∈ s.air.orders, ¬ 0 ≤ sgn 32 (cycleNo s + 2 ^ 32 - o.due)) : orderDeadline s = s := by
  have none_late : s.air.orders.filter (fun o => decide (0 ≤ sgn 32 (cycleNo s + 2 ^ 32 - o.due))) = [] :=
    List.filter_eq_nil_iff.2 fun o ho => by simpa using h o ho
  unfold orderDeadline
  rw [none_late]
  rfl

/-- Refutes O46 in its clause on the orders that fail at a cycle start: where no order is late it still asks that the count be min(count + 0, 2^32 - 1), so that it
lies within 32 bits. A State may hold any number in a register's table, and a cycle start with no order late leaves 2^32 there. -/
theorem not_ordersAndPartners : ¬ Obligations.OrdersAndPartners := by
  intro h
  obtain ⟨-, -, deadlines, -⟩ := h
  obtain ⟨t, answer, -, counted, -⟩ := deadlines (airWithFailed (2 ^ 32))
  obtain ⟨u, effect, leaves⟩ := run_leaves orderDeadline (airWithFailed (2 ^ 32))
  obtain rfl : t = u := Host.Outcome.next.inj (answer.symm.trans effect)
  have full : rd AIR_CNT_ORDER_FAILED (airWithFailed (2 ^ 32)) = 2 ^ 32 := rfl
  have kept : rd AIR_CNT_ORDER_FAILED t = 2 ^ 32 := by
    rw [leaves.reg _ (by decide), orderDeadline_without_late (s := { airWithFailed (2 ^ 32) with out := [] }) (by nofun)]
    exact full
  have held_to : rd AIR_CNT_ORDER_FAILED t = min (2 ^ 32 + 0) (2 ^ 32 - 1) := full ▸ counted
  omega

end Sys2Proof.Machine
